-- ==== Sys2Proof/Word.lean ====
section
/-!
DEFINITION. The plainest value types of the block: bytes, 64-bit register words, 64-byte sectors, and the
sparse tables in which the state keeps anything that is indexed.
-/

namespace Sys2Proof

/-- A byte. -/
abbrev Byte := BitVec 8

/-- A register or memory word (R9, R34). -/
abbrev Word := BitVec 64

/-- The 64 bytes of a sector, byte `k` in bits `[8k+7:8k]` (Table 7-1). -/
abbrev SectorBits := BitVec 512

/-- A sparse table: index and value pairs, indexes strictly rising, no pair equal to what an unlisted index
reads as.  Equal tables are equal lists. -/
abbrev Tab (α : Type) := List (Nat × α)

end Sys2Proof
end

