-- ==== Sys2Proof/Syntax.lean ====
section
/-!
DEFINITION. The commands of the block: one constructor per row of spec/opcode_table.json, with what the row's
sender gives it.  A row that stands for an event of the surroundings carries as operands what the surroundings
answer.
-/

namespace Sys2Proof

/-- A request header (Table 7-2) less TYPE, which the command's name gives. -/
structure ReqHdr where
  tag : BitVec 10
  part : BitVec 6
  tc : BitVec 2
  addr : BitVec 44
  lenM1 : BitVec 5
  og : BitVec 8
  aop : BitVec 3
  asz : BitVec 1
  masked : BitVec 1
  scl : BitVec 4
  /-- bits [111:88], which must be 0 -/
  rsv : BitVec 24
  hcrc : BitVec 16
  deriving DecidableEq, Repr

/-- A sector as it arrives on DAT and DSB (Table 7-1): its 64 bytes, its Hallmark and its FAULT bit. -/
structure InSector where
  data : SectorBits
  hallmark : BitVec 16
  fault : Bool
  deriving DecidableEq, Repr

/-- A request with the sectors that follow it.  A masked write carries the mask half as its second sector
(R164). -/
structure PortReq where
  hdr : ReqHdr
  sectors : List InSector
  deriving DecidableEq, Repr

/-- A response header as the partner sends it for a block write (Table 7-4). -/
structure RspHdr where
  tag : BitVec 10
  part : BitVec 6
  tc : BitVec 2
  status : BitVec 8
  /-- bits [111:30] -/
  rest : BitVec 82
  hcrc : BitVec 16
  deriving DecidableEq, Repr

/-- An MGT packet (Table 7-11) less KIND. -/
structure MgtPkt where
  bid : BitVec 6
  tag : BitVec 8
  /-- word 0 bits [31:18]: 0 in a request, STATUS and 0 in a response -/
  w0hi : BitVec 14
  /-- word 1 bits [23:0] -/
  offset : BitVec 24
  /-- word 1 bits [31:24] -/
  w1hi : BitVec 8
  dataLo : BitVec 32
  dataHi : BitVec 32
  /-- word 4 -/
  w4 : BitVec 32
  deriving DecidableEq, Repr

/-- A SYNC frame (Table 11-5) less START and TYPE. -/
structure SyncFrame where
  payload : BitVec 72
  crc : BitVec 16
  deriving DecidableEq, Repr

/-- What one site answers at the identity read (R208). -/
structure SiteIdent where
  answers : Bool
  /-- the identity passed its check within two attempts -/
  identOk : Bool
  extLevel : BitVec 4
  /-- units of 100 Mbit/s -/
  speed : BitVec 12
  height : BitVec 5
  density : BitVec 8
  deriving DecidableEq, Repr

/-- Arithmetic slots A and B are identical (R65). -/
inductive SlotAB | a | b
  deriving DecidableEq, Repr

/-- What a slot works for (R55): the preamble, a body stage 0 to 3, or the epilogue. -/
inductive SlotCtx
  | preamble
  | body (stage : Fin 4)
  | epilogue
  deriving DecidableEq, Repr

/-- The fields of a slot word (R63) beside OP, which the command's name gives.  `sb` is bit [27] in slots A and B;
in slots C and D `fmt` holds bits [27:24] and `sb` is false. -/
structure SlotWord where
  sb : Bool
  fmt : BitVec 4
  dst : BitVec 5
  srcA : BitVec 5
  srcB : BitVec 5
  srcC : BitVec 5
  mod : BitVec 4
  deriving DecidableEq, Repr

/-- One slot issue on one Anvil. -/
structure Issue where
  anvil : Nat
  ctx : SlotCtx
  word : SlotWord
  deriving DecidableEq, Repr

/-- An error pattern the stack shows on a read: word 0 to 7 of a sector, its 64 data bits and 8 check bits. -/
structure BitErr where
  word : Fin 8
  data : BitVec 64
  check : BitVec 8
  deriving DecidableEq, Repr

/-- What an operand access to a computing bank group is (R138). -/
inductive PlAccess | act | rd | wr | pre
  deriving DecidableEq, Repr

/-- The two gaps of R236: EWR on the write path, ERR on the read path. -/
inductive Gap | ewr | err
  deriving DecidableEq, Repr

/-- Bits that flip in a gap register of a pseudo-channel while it holds its next sector: what the surroundings do to the
register (R236, R237). -/
structure GapFlip where
  pc : Nat
  gap : Gap
  flips : SectorBits
  deriving DecidableEq, Repr

/-- How an admission's steps end (R242): whether retraining succeeded within its two attempts, the self-test, and the
queued rows, as channel engines number them, for which the stack had a spare row in their bank. -/
structure AdmitOutcome where
  trained : Bool
  selfTest : Bool
  spared : List Nat
  deriving DecidableEq, Repr

/-- How far a Bureau write has come (R320): the bank is programmed and read back (step 4), the other bank is prepared (step 5), or a
step has failed twice. -/
inductive BureauStep | verified | prepared | failed
  deriving DecidableEq, Repr

/-- What is sensed of the supply, in mV: domain 0's sense, and the 64 voltage monitors (R293, R294). -/
structure SupplySense where
  domain : Nat
  monitors : List Nat
  deriving DecidableEq, Repr

/-- One command of the block: a row of spec/opcode_table.json.  `p` is a port, `d` a Drawer, `pos` the submission
position of a started command, `n` a channel engine (32 × site + CH), `a` an Anvil. -/
inductive Instr
  -- life cycle
  | porstNFall
  | coldPowerUp
  | pllLock
  | pllLockLoss
  | boot (romOk : Bool)
  | fuse (first second : List (BitVec 32)) (senseMv : SupplySense)
  | stageSegment (senseMv : Nat)
  | stageAbort (failDom : Nat) (senseMv : Nat)
  | bureauRead (sfdpOk slowFlash : Bool) (bank0 bank1 : List Byte)
  | identityRead (sites : List SiteIdent)
  | powerUpWaitEnd
  | training (failed : List Nat)
  | bist (failed : List Nat) (checkersOk : Bool) (badPipes : List Nat)
  | fill
  | portRelease
  | wrstNFall
  | wrstDrainDone
  | warmStart (trainFailed bistFailed : List Nat) (checkersOk : Bool) (badPipes : List Nat)
  | pwrFailNFall
  | pfDrainDone
  | pfHeaderWritten
  | pwrFailNRise
  | coolantOkFall
  | coolantStopped
  | coolantOkRise
  | coolantResume
  | droopDetect (monitor : Nat) (belowMv : Nat)
  | stretchEnd
  | lineClassify (lineOff : List Int) (monitors : List Int)
  | governorInterval
  | stackTempRead (temps : List Nat)
  | refresh (n pc bg : Nat)
  | targetOp (v : BitVec 2) (senseMv : Nat)
  | opSwitch
  -- Drawer commands
  | nop (d pos : Nat)
  | fence (d pos : Nat)
  | bucketOpen (d pos : Nat)
  | bucketClose (d pos : Nat)
  | bucketCloseSweepDone (base : Nat)
  | bucketDiscard (d pos : Nat)
  | update (d pos : Nat)
  | emit (d pos : Nat)
  | entryStart (d pos : Nat)
  | loadKernel (d pos : Nat)
  | copy (d pos : Nat)
  | fillCmd (d pos : Nat)
  | offloadAct (d pos : Nat)
  | recallAct (d pos : Nat)
  | recallSend (d pos : Nat)
  | planish (d pos : Nat)
  | sample (d pos : Nat)
  | scrub (d pos : Nat)
  | rebuild (d pos : Nat)
  | channelRetire (d pos : Nat)
  | channelAdmit (d pos : Nat)
  | launchAt (d pos : Nat)
  | launchGateOpen (d : Nat)
  | armedFirstAction (d : Nat)
  | barrier (d pos : Nat)
  | barrierGateOpen (d : Nat)
  | barrierTimeout (d : Nat)
  | regionSet (d pos : Nat)
  | partitionSet (d pos : Nat)
  | powerCap (d pos : Nat)
  | tinker (d pos : Nat)
  | query (d pos : Nat)
  | commandStart (d : Nat)
  | commandComplete (d pos : Nat)
  -- ports
  | rd (p : Nat) (r : PortReq)
  | wr (p : Nat) (r : PortReq)
  | wrFinal (p : Nat) (r : PortReq)
  | wrFinalLand (p : Nat) (tag : BitVec 10)
  | acc (p : Nat) (r : PortReq)
  | atom (p : Nat) (r : PortReq)
  | rndrd (p : Nat) (r : PortReq)
  | door (p : Nat) (r : PortReq)
  | rsp (p : Nat) (h : RspHdr)
  | rspData (p : Nat) (code : BitVec 4) (r : PortReq)
  | crd (p : Nat) (hdr : BitVec 10) (sect : BitVec 12)
  | blockWriteSend (p : Nat)
  | rspTmo (p : Nat) (tag : Nat)
  | starve (p : Nat) (tc0 tc1 : Bool)
  | regulatorResume (part : Nat)
  | portReset (p : Nat)
  | portResetDone (p : Nat)
  -- management port
  | read (kind : BitVec 4) (m : MgtPkt)
  | write (m : MgtPkt)
  | enum (m : MgtPkt)
  | mgtResponse (m : MgtPkt)
  -- SYNC ring and time
  | align (f : SyncFrame) (sinceFirstBit : Nat)
  | alignHoldEnd
  | arrive (f : SyncFrame)
  | release (f : SyncFrame)
  | releaseRepeat (bar : Fin 16)
  | withdraw (f : SyncFrame)
  | sendAlign
  | advance
  -- Crucible
  | seedReq
  | seedReady
  | seedConsume
  | nsRestart
  | nsEn (on : Bool)
  | oscSample (bits : BitVec 8)
  | seedStage (n : Fin 64) (w : Fin 3) (key : Word)
  | seedCommit (n : Fin 64) (key : Word)
  -- registers with a row of their own
  | drawerEnable (n : Fin 64)
  | drawerDisable (n : Fin 64)
  | drDbWrite (n : Fin 64) (v : Word)
  | flush
  | flushDone
  | resWays (v : BitVec 4)
  | resWaysDone
  | bureauSync
  | bureauWrite
  | bureauWriteDone (o : BureauStep)
  | errsumRefresh
  | mwIrqSet (v : BitVec 8)
  | registerWrite (offset : BitVec 24) (v : Word)
  -- integrity
  | dramReadDone (n : Nat) (errs : List (Nat × BitErr)) (flips : List GapFlip)
  | correctWriteBack (n : Nat)
  | caPar (n : Nat)
  | phy (n : Nat)
  | admission (n : Nat) (o : AdmitOutcome)
  | admissionDeadline (n : Nat)
  | mendRowIssue (c : Nat)
  | heldRequestRelease (p : Nat) (tag : BitVec 10)
  -- Planisher units
  | planisherModeEntry (n : Nat) (bgs : BitVec 8) (clear : Bool)
  | planisherModeExit (n : Nat) (bg : Fin 8)
  | planisherPreempt (n : Nat) (bg : Fin 8)
  | planisherWindowWrite (addr : BitVec 44) (data : SectorBits) (lanes : BitVec 64)
  | planisherWindowRead (addr : BitVec 44) (lanes : BitVec 64)
  | planisherOperandAccess (n : Nat) (bg : Fin 8) (acc : PlAccess) (m sector : Nat)
  -- Glizo slots A and B
  | mov (s : SlotAB) (i : Issue)
  | add (s : SlotAB) (i : Issue)
  | sub (s : SlotAB) (i : Issue)
  | mul (s : SlotAB) (i : Issue)
  | fma (s : SlotAB) (i : Issue)
  | fms (s : SlotAB) (i : Issue)
  | min (s : SlotAB) (i : Issue)
  | max (s : SlotAB) (i : Issue)
  | abs (s : SlotAB) (i : Issue)
  | neg (s : SlotAB) (i : Issue)
  | sel (s : SlotAB) (i : Issue)
  | cmplt (s : SlotAB) (i : Issue)
  | cmpeq (s : SlotAB) (i : Issue)
  | twosum (s : SlotAB) (i : Issue)
  | ftwosum (s : SlotAB) (i : Issue)
  | scale (s : SlotAB) (i : Issue)
  -- slot C
  | rcp (i : Issue)
  | rsq (i : Issue)
  | sqrt (i : Issue)
  | exp2 (i : Issue)
  | log2 (i : Issue)
  | lmul (i : Issue)
  | ltof (i : Issue)
  | ftol (i : Issue)
  -- slot D
  | ld (i : Issue)
  | st (i : Issue)
  | cvt (i : Issue)
  | rnd (i : Issue)
  | assay (i : Issue)
  | hist (i : Issue)
  | maxacc (i : Issue)
  | end_ (i : Issue)
  | slotNop (i : Issue)
  | wrstNRise
  deriving DecidableEq, Repr

end Sys2Proof
end

