-- ==== Sys2Proof/Machine/Formats.lean ====
section
/-!
DEFINITION. The twelve number formats (02_number_formats.md): decoding to exact values, rounding back, scales,
conversions, and the exact arithmetic on which every instruction rests.
-/

namespace Sys2Proof.Num

/-! ## Exact values -/

/-- The dyadic number `m × 2^e`. -/
structure Dy where
  m : Int
  e : Int
  deriving DecidableEq, Repr

namespace Dy

def zero : Dy := ⟨0, 0⟩
def neg (a : Dy) : Dy := ⟨-a.m, a.e⟩
def abs (a : Dy) : Dy := ⟨a.m.natAbs, a.e⟩
def mul (a b : Dy) : Dy := ⟨a.m * b.m, a.e + b.e⟩
/-- The significand of `a` at the exponent `e ≤ a.e`. -/
def atExp (a : Dy) (e : Int) : Int := a.m * 2 ^ (a.e - e).toNat
def add (a b : Dy) : Dy :=
  let e := min a.e b.e
  ⟨a.atExp e + b.atExp e, e⟩
def sub (a b : Dy) : Dy := add a (neg b)
def isZero (a : Dy) : Bool := a.m == 0
def isNeg (a : Dy) : Bool := decide (a.m < 0)
def lt (a b : Dy) : Bool := (sub a b).isNeg
def le (a b : Dy) : Bool := !lt b a
def eq (a b : Dy) : Bool := (sub a b).isZero
def scaleBy (a : Dy) (k : Int) : Dy := ⟨a.m, a.e + k⟩
/-- `2^k`. -/
def pow2 (k : Int) : Dy := ⟨1, k⟩
/-- floor(log2 |a|), for `a ≠ 0`. -/
def ilog2 (a : Dy) : Int := (Nat.log2 a.m.natAbs : Int) + a.e
/-- The integer nearest to zero from `a`: `a` truncated toward zero. -/
def trunc (a : Dy) : Int :=
  let n := if 0 ≤ a.e then a.m.natAbs * 2 ^ a.e.toNat else a.m.natAbs / 2 ^ (-a.e).toNat
  if a.m < 0 then -(n : Int) else n

end Dy

/-- `num / den` to the nearest integer, ties to even (R38). -/
def rne (num den : Nat) : Nat :=
  let q := num / den
  let r := num % den
  if den < 2 * r || (2 * r == den && q % 2 == 1) then q + 1 else q

/-- An exact dyadic to the nearest integer, ties to even. -/
def Dy.toIntRne (a : Dy) : Int :=
  let n := if 0 ≤ a.e then a.m.natAbs * 2 ^ a.e.toNat else rne a.m.natAbs (2 ^ (-a.e).toNat)
  if a.m < 0 then -(n : Int) else n

/-- The integer square root by bits, with `b` result bits. -/
def isqrtAux (n : Nat) : Nat → Nat → Nat
  | 0, acc => acc
  | b + 1, acc =>
    let t := acc + 2 ^ b
    isqrtAux n b (if t * t ≤ n then t else acc)

def isqrt (n : Nat) : Nat := isqrtAux n (Nat.log2 n / 2 + 1) 0

/-- The fraction bits of log2 of a significand in [1, 2) held with 128 fraction bits: `k` bits by repeated
squaring. -/
def log2Bits : Nat → Nat → Nat → Nat
  | 0, _, acc => acc
  | k + 1, x, acc =>
    let y := x * x / 2 ^ 128
    if 2 ^ 129 ≤ y then log2Bits k (y / 2) (2 * acc + 1) else log2Bits k y (2 * acc)

/-- log2 of a non-zero magnitude, in units of 2^-60 (exact for a power of two). -/
def log2Fix (a : Dy) : Int :=
  let n := a.m.natAbs
  let l := Nat.log2 n
  let x := if l ≤ 128 then n * 2 ^ (128 - l) else n / 2 ^ (l - 128)
  ((l : Int) + a.e) * 2 ^ 60 + log2Bits 60 x 0

/-- `2^f` for a fraction `f` of `k` bits, as a significand with 128 fraction bits: the product of the square roots
that the set bits of `f` select.  `c` is `2^(2^-i)` for the bit about to be taken. -/
def exp2Prod : Nat → Nat → Nat → Nat → Nat
  | 0, _, _, acc => acc
  | k + 1, f, c, acc =>
    let acc' := if f / 2 ^ k % 2 = 1 then acc * c / 2 ^ 128 else acc
    if f % 2 ^ k = 0 then acc' else exp2Prod k f (isqrt (c * 2 ^ 128)) acc'

/-- `2^(l / 2^g)` as an integer significand with 128 fraction bits and an exponent. -/
def exp2Fix (l : Int) (g : Nat) : Dy :=
  let q := l / (2 ^ g : Int)
  let r := (l % (2 ^ g : Int)).toNat
  ⟨exp2Prod g r (isqrt (2 ^ 257)) (2 ^ 128), q - 128⟩

/-! ## Formats -/

/-- The twelve formats (Table 3-4). -/
inductive Fmt
  | df32 | df24 | df16w | df16p | df12 | df8w | df8p | df6 | df4 | dl16 | dl8 | dx64
  deriving DecidableEq, Repr

namespace Fmt

/-- R64: the code of Table 3-4. -/
def ofCode : Nat → Option Fmt
  | 0 => some .df32 | 1 => some .df24 | 2 => some .df16w | 3 => some .df16p | 4 => some .df12 | 5 => some .df8w
  | 6 => some .df8p | 7 => some .df6 | 8 => some .df4 | 9 => some .dl16 | 10 => some .dl8 | 11 => some .dx64
  | _ => none

/-- Table 2-1 and Table 2-2: bits of a value. -/
def width : Fmt → Nat
  | .df32 => 32 | .df24 => 24 | .df16w => 16 | .df16p => 16 | .df12 => 12 | .df8w => 8 | .df8p => 8 | .df6 => 6
  | .df4 => 4 | .dl16 => 16 | .dl8 => 8 | .dx64 => 64

/-- Table 2-7: the lane in which the format runs. -/
def lane : Fmt → Nat
  | .df32 => 32 | .df24 => 32 | .df16w => 16 | .df16p => 16 | .df12 => 16 | .df8w => 8 | .df8p => 8 | .df6 => 8
  | .df4 => 4 | .dl16 => 16 | .dl8 => 8 | .dx64 => 64

/-- Exponent field width of a DF format. -/
def expBits : Fmt → Nat
  | .df32 => 8 | .df24 => 8 | .df16w => 8 | .df16p => 5 | .df12 => 5 | .df8w => 5 | .df8p => 4 | .df6 => 3
  | .df4 => 2 | _ => 0

/-- Fraction field width of a DF format. -/
def fracBits : Fmt → Nat
  | .df32 => 23 | .df24 => 15 | .df16w => 7 | .df16p => 10 | .df12 => 6 | .df8w => 2 | .df8p => 3 | .df6 => 2
  | .df4 => 1 | _ => 0

/-- Exponent bias of a DF format. -/
def bias : Fmt → Nat
  | .df32 => 127 | .df24 => 127 | .df16w => 127 | .df16p => 15 | .df12 => 15 | .df8w => 15 | .df8p => 7 | .df6 => 3
  | .df4 => 1 | _ => 0

/-- Fraction bits `G` of a DL format (R31). -/
def logBits : Fmt → Nat
  | .dl16 => 8 | .dl8 => 3 | _ => 0

def isDF : Fmt → Bool
  | .dl16 | .dl8 | .dx64 => false
  | _ => true

def isDL : Fmt → Bool
  | .dl16 | .dl8 => true
  | _ => false

/-- R35: the formats that may carry shared scales. -/
def scalable : Fmt → Bool
  | .df12 | .df8w | .df8p | .df6 | .df4 | .dl8 => true
  | _ => false

/-- Tables 2-1 and 2-2, R33: the Fault pattern. -/
def faultCode : Fmt → Nat
  | .dx64 => 2 ^ 63
  | f => 2 ^ f.width - 1

/-- Table 2-1: the code of M. -/
def maxCode (f : Fmt) : Nat :=
  if f.isDL then 2 ^ (f.width - 2) - 1 else 2 ^ (f.width - 1) - 2

end Fmt

/-- What a code stands for: Fault, a dyadic number, or a non-zero `(−1)^neg × 2^(l / 2^g)` of a DL format. -/
inductive Val
  | fault
  | dy (v : Dy)
  | lg (neg : Bool) (l : Int) (g : Nat)
  deriving DecidableEq, Repr

/-- The signed integer in the low `w` bits of `n`. -/
def signed (w n : Nat) : Int := if n % 2 ^ w < 2 ^ (w - 1) then (n % 2 ^ w : Nat) else (n % 2 ^ w : Nat) - 2 ^ w

/-- R23 to R26, R31 to R33: the value of a code.  A DX64 code gives the integer X. -/
def decode (f : Fmt) (code : Nat) : Val :=
  let c := code % 2 ^ f.width
  if c = f.faultCode then .fault else
  let neg := decide (2 ^ (f.width - 1) ≤ c)
  let mag := c % 2 ^ (f.width - 1)
  match f with
  | .dx64 => .dy ⟨signed 64 c, 0⟩
  | .dl16 | .dl8 =>
    let l := signed (f.width - 1) mag
    if l = -(2 ^ (f.width - 2)) then .dy .zero else .lg neg l f.logBits
  | f =>
    let mag := if mag = 2 ^ (f.width - 1) - 1 then mag - 1 else mag
    let e := mag / 2 ^ f.fracBits
    let fr := mag % 2 ^ f.fracBits
    let n := if e = 0 then fr else 2 ^ f.fracBits + fr
    let x : Int := (if e = 0 then 1 else (e : Int)) - f.bias - f.fracBits
    .dy ⟨if neg then -(n : Int) else n, x⟩

/-- A rounded result: its code and whether it overflowed (R28). -/
structure Res where
  code : Nat
  ovf : Bool
  deriving DecidableEq, Repr

/-- How a conversion rounds: to nearest (R38), or stochastically with `n` bits whose value is `u` (R39). -/
inductive Rnd
  | nearest
  | stoch (n u : Nat)
  deriving DecidableEq, Repr

/-- `num / den` to an integer under a rounding. -/
def roundNat (r : Rnd) (num den : Nat) : Nat :=
  match r with
  | .nearest => rne num den
  | .stoch n u =>
    let q := num / den
    let d := num % den * 2 ^ n / den
    if 2 ^ n ≤ d + u then q + 1 else q

/-- R28: the result that stands for an overflow. -/
def overflow (f : Fmt) (flt neg : Bool) : Res :=
  if flt then ⟨f.faultCode, true⟩ else ⟨f.maxCode + (if neg then 2 ^ (f.width - 1) else 0), true⟩

/-- Round the magnitude `num / den × 2^e` with a sign into a DF format (R26, R28, R38, R39). -/
def roundDF (f : Fmt) (flt : Bool) (r : Rnd) (neg : Bool) (num den : Nat) (e : Int) : Res :=
  if num = 0 then ⟨0, false⟩ else
  let l : Int := (Nat.log2 num : Int) - Nat.log2 den
  let ge := if 0 ≤ l then decide (den * 2 ^ l.toNat ≤ num) else decide (den ≤ num * 2 ^ (-l).toNat)
  let k0 : Int := (if ge then l else l - 1) + e
  let k := max k0 (1 - (f.bias : Int))
  let sh := e - (k - f.fracBits)
  let n := if 0 ≤ sh then roundNat r (num * 2 ^ sh.toNat) den else roundNat r num (den * 2 ^ (-sh).toNat)
  let code := ((k + f.bias - 1) * 2 ^ f.fracBits).toNat + n
  if f.maxCode < code then overflow f flt neg
  else ⟨if neg && code ≠ 0 then code + 2 ^ (f.width - 1) else code, false⟩

/-- R32: a sign and an integer L into a DL format. -/
def encodeL (f : Fmt) (flt neg : Bool) (l : Int) : Res :=
  let top : Int := 2 ^ (f.width - 2)
  if l ≤ -top then ⟨2 ^ (f.width - 2), false⟩
  else if top ≤ l then overflow f flt neg
  else
    let l' := if neg && l = -1 then 0 else l
    ⟨(l' % (2 ^ (f.width - 1) : Int)).toNat + (if neg then 2 ^ (f.width - 1) else 0), false⟩

/-- `n / 2^k` to an integer under a rounding, for a signed `n`: toward minus infinity plus the rounded rest. -/
def roundIntShift (r : Rnd) (n : Int) (k : Nat) : Int :=
  let q := n / (2 ^ k : Int)
  let rest := (n % (2 ^ k : Int)).toNat
  match r with
  | .nearest =>
    if 2 ^ k < 2 * rest || (2 * rest == 2 ^ k && q % 2 == 1) then q + 1 else q
  | .stoch b u =>
    let d := rest * 2 ^ b / 2 ^ k
    if 2 ^ b ≤ d + u then q + 1 else q

/-- Round a value into a format (R28, R29, R32, R38, R39).  Into DX64 the value is taken as the integer X. -/
def encode (f : Fmt) (flt : Bool) (r : Rnd) (v : Val) : Res :=
  match v with
  | .fault => ⟨f.faultCode, false⟩
  | .dy a =>
    match f with
    | .dx64 => ⟨(a.toIntRne % 2 ^ 64).toNat, false⟩
    | .dl16 | .dl8 =>
      if a.isZero then ⟨2 ^ (f.width - 2), false⟩
      else encodeL f flt a.isNeg (roundIntShift r (log2Fix a) (60 - f.logBits))
    | f => roundDF f flt r a.isNeg a.m.natAbs 1 a.e
  | .lg neg l g =>
    match f with
    | .dx64 => ⟨0, false⟩
    | .dl16 | .dl8 =>
      if g ≤ f.logBits then encodeL f flt neg (l * 2 ^ (f.logBits - g))
      else encodeL f flt neg (roundIntShift r l (g - f.logBits))
    | f =>
      let a := exp2Fix l g
      roundDF f flt r neg a.m.natAbs 1 a.e

/-- R35: a value under the E8S scale code `c`. -/
def applyScale (c : Nat) (v : Val) : Val :=
  if c = 255 then .fault else
  match v with
  | .fault => .fault
  | .dy a => .dy (a.scaleBy ((c : Int) - 127))
  | .lg n l g => .lg n (l + ((c : Int) - 127) * 2 ^ g) g

/-- A value with the scale code `c` taken off before it is rounded into a scaled format; 0xFF makes it Fault (R37). -/
def removeScale (c : Nat) (v : Val) : Val :=
  if c = 255 then .fault else
  match v with
  | .fault => .fault
  | .dy a => .dy (a.scaleBy (127 - (c : Int)))
  | .lg n l g => .lg n (l + (127 - (c : Int)) * 2 ^ g) g

/-- R38: the conversions that are exact: those of its list, and every other one whose source values are all values of the
target. -/
def exactPair (src dst : Fmt) : Bool :=
  src == dst ||
  match dst with
  | .df32 => src.isDF
  | .df24 => src.isDF && src != .df32
  | .df16w | .df16p => [Fmt.df12, .df8w, .df8p, .df6, .df4].contains src
  | .df12 => [Fmt.df8w, .df8p, .df6, .df4].contains src
  | .df8p | .df8w => src == .df6 || src == .df4
  | .df6 => src == .df4
  | .dl16 => src == .dl8
  | _ => false

/-- R39: the rounding of a conversion: a stochastic one is to nearest where the target is no narrower than its source. -/
def Rnd.into (r : Rnd) (src dst : Fmt) : Rnd := if dst.width < src.width then r else .nearest

/-- The magnitude of a value as a dyadic, for maxima: a DL value by its significand to 128 bits. -/
def Val.magnitude : Val → Dy
  | .fault => .zero
  | .dy a => a.abs
  | .lg _ l g => exp2Fix l g

/-- R37: M of a target format, or 2^(63/8) for DL8. -/
def maxMag (f : Fmt) : Dy := (decode f f.maxCode).magnitude

/-- R37 BLOCK mode: the E8S code for a block whose largest non-Fault magnitude is `m`: the smallest `c` with
`m ≤ M × 2^(c − 127)`, clamped to 0–254; 127 when `m = 0`. -/
def blockCode (f : Fmt) (m : Dy) : Nat :=
  if m.isZero then 127 else
  let mm := maxMag f
  let d := m.ilog2 - mm.ilog2
  let c := if Dy.le m (mm.scaleBy (d - 1)) then d - 1 else if Dy.le m (mm.scaleBy d) then d else d + 1
  (min (max (127 + c) 0) 254).toNat

/-! ## DX64 windows -/

/-- The DX64 Fault pattern (R33). -/
def dxFault : BitVec 64 := 0x8000000000000000#64

/-- R33, R88: one bucket addition: modulo 2^64, Fault absorbing. -/
def dxAdd (a x : BitVec 64) : BitVec 64 := if a = dxFault ∨ x = dxFault then dxFault else a + x

/-- R41: a contribution into the window of exponent code `bx`: the word and whether it was clamped. -/
def toWindow (bx : Nat) (v : Val) : BitVec 64 × Bool :=
  match v with
  | .fault => (dxFault, false)
  | .lg .. => (dxFault, false)
  | .dy a =>
    let x := (a.scaleBy (174 - (bx : Int))).toIntRne
    let lim : Int := 2 ^ 47 - 1
    if lim < x then (BitVec.ofInt 64 lim, true)
    else if x < -lim then (BitVec.ofInt 64 (-lim), true)
    else (BitVec.ofInt 64 x, false)

/-- R42, R94: the exact value of an accumulator word. -/
def windowVal (bx : Nat) (w : BitVec 64) : Val :=
  if w = dxFault then .fault else .dy ⟨w.toInt, (bx : Int) - 174⟩

/-! ## Lanes and words -/

/-- R49: a value's code in its lane (DF24 in bits [31:8]).  For DF12 and DF6 the spec names the lane and no place in it: the
model puts the code in the low bits, writes zeros above it and does not read them (DESIGN CHOICE, log 50). -/
def toLane (f : Fmt) (code : Nat) : Nat :=
  match f with
  | .df24 => code * 256 + (if code = f.faultCode then 255 else 0)
  | _ => code

/-- R49: the code of a format that a lane holds (log 50 for DF12 and DF6). -/
def ofLane (f : Fmt) (lane : Nat) : Nat :=
  match f with
  | .df24 => lane / 256 % 2 ^ 24
  | f => lane % 2 ^ f.width

/-- Table 2-4: elements per 64-bit word. -/
def perWord (f : Fmt) : Nat :=
  match f with
  | .df32 | .df24 => 2
  | .df16w | .df16p | .dl16 => 4
  | .df12 => 5
  | .df8w | .df8p | .dl8 => 8
  | .df6 => 10
  | .df4 => 16
  | .dx64 => 1

/-- Table 2-4: the bits of a slot of a word. -/
def slotBits (f : Fmt) : Nat :=
  match f with
  | .df24 => 32
  | f => f.width

/-- Element `j` of a 64-bit word (R34). -/
def ofWord (f : Fmt) (w : BitVec 64) (j : Nat) : Nat :=
  ofLane f (w.toNat / 2 ^ (slotBits f * j) % 2 ^ slotBits f)

/-- Pack up to `perWord` codes into a word, from bit 0 upward (R34). -/
def packWord (f : Fmt) (cs : List Nat) : BitVec 64 :=
  BitVec.ofNat 64 ((cs.take (perWord f)).zipIdx.foldl (fun a e => a + toLane f e.1 * 2 ^ (slotBits f * e.2)) 0)

/-- Words that a row of `cols` elements takes: a row of DF12 or DF6 starts on a new word, and a row of another
format does so when it fills whole words (R34). -/
def rowWords (f : Fmt) (cols : Nat) : Nat := (cols + perWord f - 1) / perWord f

/-! ## Arithmetic of slots A and B (R65, R28, R29, R30) -/

/-- A lane result from an exact value: rounded to nearest in `f`. -/
def fin (f : Fmt) (flt : Bool) (a : Dy) : Res := encode f flt .nearest (.dy a)

/-- Apply an exact operation to operands, Fault propagating (R29). -/
def lift1 (f : Fmt) (flt : Bool) (op : Dy → Dy) (a : Val) : Res :=
  match a with
  | .dy x => fin f flt (op x)
  | _ => ⟨f.faultCode, false⟩

def lift2 (f : Fmt) (flt : Bool) (op : Dy → Dy → Dy) (a b : Val) : Res :=
  match a, b with
  | .dy x, .dy y => fin f flt (op x y)
  | _, _ => ⟨f.faultCode, false⟩

def lift3 (f : Fmt) (flt : Bool) (op : Dy → Dy → Dy → Dy) (a b c : Val) : Res :=
  match a, b, c with
  | .dy x, .dy y, .dy z => fin f flt (op x y z)
  | _, _, _ => ⟨f.faultCode, false⟩

/-- R30: compares return false when an operand is Fault. -/
def cmp (op : Dy → Dy → Bool) (a b : Val) : Bool :=
  match a, b with
  | .dy x, .dy y => op x y
  | _, _ => false

/-- Table 3-5 SCALE: the exponent is srcB truncated toward zero and clamped to −512…511. -/
def scaleExp (b : Dy) : Int :=
  let n := b.trunc
  if n < -512 then -512 else if 511 < n then 511 else n

/-- R46: TWOSUM's pair in DF32: hi rounded, lo exact, lo zero when hi overflows. -/
def twoSum (flt : Bool) (a b : Val) : Res × Nat :=
  match a, b with
  | .dy x, .dy y =>
    let s := Dy.add x y
    let hi := fin .df32 flt s
    if hi.ovf then (hi, 0) else
    match decode .df32 hi.code with
    | .dy h => (hi, (fin .df32 flt (Dy.sub s h)).code)
    | _ => (hi, 0)
  | _, _ => (⟨Fmt.df32.faultCode, false⟩, Fmt.df32.faultCode)

/-! ## Functions known by a bound (R66) -/

/-- ulp of a value in a DF format (R23). -/
def ulp (f : Fmt) (a : Dy) : Dy :=
  let k := if a.isZero then 1 - (f.bias : Int) else max a.ilog2 (1 - (f.bias : Int))
  Dy.pow2 (k - f.fracBits)

/-- A code the block may produce in a DF format: neither Fault, nor the spare code, nor negative zero
(R25, R26). -/
def producible (f : Fmt) (c : Nat) : Bool :=
  decide (c < 2 ^ f.width) && c != f.faultCode && c != 2 ^ (f.width - 1) - 1 && c != 2 ^ (f.width - 1)

/-- A part's own result `free` where it is a value inside the bound, the nearest result elsewhere. -/
def pick (f : Fmt) (free : Nat) (inBound : Dy → Bool) (near : Res) : Res :=
  if near.ovf then near else
  match decode f free with
  | .dy v => if producible f free && inBound v then ⟨free, false⟩ else near
  | _ => near

/-- Is `y` within `k` ulp of an exact value known to lie in `[lo, hi]`? -/
def nearIval (f : Fmt) (k : Int) (lo hi y : Dy) : Bool :=
  let u := (ulp f lo)
  let d : Dy := ⟨k * u.m, u.e⟩
  Dy.le (Dy.sub lo d) y && Dy.le y (Dy.add hi d)

/-- The exact quotient `a / b` rounded into a DF format. -/
def divRound (f : Fmt) (flt : Bool) (a b : Dy) : Res :=
  if b.isZero then overflow f flt a.isNeg
  else roundDF f flt .nearest (a.isNeg != b.isNeg) a.m.natAbs b.m.natAbs (a.e - b.e)

/-- 1 / x to 100 significant bits, rounded toward zero, and its successor. -/
def recipIval (x : Dy) : Dy × Dy :=
  let n := x.m.natAbs
  let s := Nat.log2 n + 100
  let q := 2 ^ s / n
  let sgn : Int := if x.m < 0 then -1 else 1
  let e := -x.e - (s : Int)
  if x.m < 0 then (⟨sgn * (q + 1), e⟩, ⟨sgn * q, e⟩) else (⟨q, e⟩, ⟨q + 1, e⟩)

/-- sqrt x of a positive value to about 100 significant bits, and its successor. -/
def sqrtIval (x : Dy) : Dy × Dy :=
  let sh : Nat := 200
  let e := x.e - sh
  let (m, e') := if e % 2 = 0 then (x.m.natAbs * 2 ^ sh, e) else (x.m.natAbs * 2 ^ (sh + 1), e - 1)
  let q := isqrt m
  (⟨q, e' / 2⟩, ⟨q + 1, e' / 2⟩)

/-- RCP in DF32 (R66, R67): zero overflows; the part's value within 1 ulp. -/
def rcp (free : Nat) (flt : Bool) (a : Val) : Res :=
  match a with
  | .dy x =>
    if x.isZero then overflow .df32 flt false else
    let (lo, hi) := recipIval x
    pick .df32 free (nearIval .df32 1 lo hi) (divRound .df32 flt ⟨1, 0⟩ x)
  | _ => ⟨Fmt.df32.faultCode, false⟩

/-- SQRT in DF32 (R66, R67): correctly rounded; a negative operand gives Fault. -/
def sqrtDF (a : Val) : Res :=
  match a with
  | .dy x =>
    if x.isZero then ⟨0, false⟩ else if x.isNeg then ⟨Fmt.df32.faultCode, false⟩ else
    let (lo, hi) := sqrtIval x
    let mid : Dy := if Dy.eq (Dy.mul lo lo) x then lo else Dy.add lo ⟨hi.m - lo.m, lo.e - 1⟩
    fin .df32 false mid
  | _ => ⟨Fmt.df32.faultCode, false⟩

/-- RSQ in DF32 (R66, R67). -/
def rsq (free : Nat) (flt : Bool) (a : Val) : Res :=
  match a with
  | .dy x =>
    if x.isZero then overflow .df32 flt false else if x.isNeg then ⟨Fmt.df32.faultCode, false⟩ else
    let (slo, shi) := sqrtIval x
    let lo := (recipIval shi).1
    let hi := (recipIval slo).2
    pick .df32 free (nearIval .df32 1 lo hi) (fin .df32 flt lo)
  | _ => ⟨Fmt.df32.faultCode, false⟩

/-- 2^x in a DF format within 2 ulp (R66, R67; Table 6-1 for DF24): a result below half the smallest subnormal
is +0. -/
def exp2DF (f : Fmt) (free : Nat) (flt : Bool) (a : Val) : Res :=
  match a with
  | .dy x =>
    if Dy.le ⟨(2 : Int) ^ 10, 0⟩ x then overflow f flt false
    else if Dy.lt x ⟨-(f.bias : Int) - f.fracBits, 0⟩ then ⟨0, false⟩
    else
      let l := (x.scaleBy 40)
      let fl : Int := if 0 ≤ l.e then l.m * 2 ^ l.e.toNat else l.m / 2 ^ (-l.e).toNat
      let exact := 0 ≤ l.e || l.m % 2 ^ (-l.e).toNat == 0
      let lo := exp2Fix fl 40
      let hi := if exact then ⟨lo.m + 1, lo.e⟩ else exp2Fix (fl + 1) 40
      pick f free (nearIval f 2 lo hi) (fin f flt lo)
  | _ => ⟨f.faultCode, false⟩

/-- LOG2 in DF32 (R66, R67): Fault for a negative operand; zero gives −M or Fault under OVF. -/
def log2DF (free : Nat) (flt : Bool) (a : Val) : Res :=
  match a with
  | .dy x =>
    if x.isZero then overflow .df32 flt true else if x.isNeg then ⟨Fmt.df32.faultCode, false⟩ else
    let l := log2Fix x
    let lo : Dy := ⟨l, -60⟩
    let hi : Dy := ⟨l + 1, -60⟩
    let inAbs := Dy.le (Dy.pow2 (-1)) x && Dy.le x (Dy.pow2 1)
    let ok := fun y => if inAbs then Dy.le (Dy.sub lo (Dy.pow2 (-22))) y && Dy.le y (Dy.add hi (Dy.pow2 (-22)))
      else nearIval .df32 2 lo hi y
    pick .df32 free ok (fin .df32 flt lo)
  | _ => ⟨Fmt.df32.faultCode, false⟩

/-- LTOF (R66, R67): DL to DF32 within 1 ulp; the zero code gives +0. -/
def ltofDF (free : Nat) (flt : Bool) (a : Val) : Res :=
  match a with
  | .fault => ⟨Fmt.df32.faultCode, false⟩
  | .dy _ => ⟨0, false⟩
  | .lg neg l g =>
    let m := exp2Fix l g
    let lo : Dy := if neg then ⟨-(m.m + 1), m.e⟩ else m
    let hi : Dy := if neg then m.neg else ⟨m.m + 1, m.e⟩
    pick .df32 free (nearIval .df32 1 lo hi) (encode .df32 flt .nearest a)

/-- FTOL (R66, R67): DF32 to DL within 0.51 step of L: the nearest L, or a neighbour that is no further than 0.51
step; zero gives the zero code. -/
def ftolDF (f : Fmt) (free : Nat) (flt : Bool) (a : Val) : Res :=
  match a with
  | .dy x =>
    if x.isZero then ⟨2 ^ (f.width - 2), false⟩ else
    let near := encode f flt .nearest a
    let t := log2Fix x
    let step : Int := 2 ^ (60 - f.logBits)
    match decode f free with
    | .lg neg l _ =>
      let ok := (neg == x.isNeg) && decide (100 * (l * step - t).natAbs ≤ (51 * step).toNat)
      if near.ovf then near else if ok then encodeL f flt neg l else near
    | _ => near
  | _ => ⟨f.faultCode, false⟩

/-- LMUL (R45). -/
def lmul (f : Fmt) (flt : Bool) (a b : Val) : Res :=
  match a, b with
  | .fault, _ => ⟨f.faultCode, false⟩
  | _, .fault => ⟨f.faultCode, false⟩
  | .lg na la _, .lg nb lb _ => encodeL f flt (na != nb) (la + lb)
  | _, _ => ⟨2 ^ (f.width - 2), false⟩

end Sys2Proof.Num
end

