-- ==== Sys2Proof/Machine/Assay.lean ====
section
/-!
DEFINITION. The measurements that do not depend on order: sums of squares, exponent histograms, running maxima
(R43, R71, R72).
-/

namespace Sys2Proof.Num

/-- The largest `m` below `acc + 2^b` with `m ^ (2^g) ≤ 2^p`, bit by bit from bit `b - 1` down. -/
def rootBits (g p : Nat) : Nat → Nat → Nat
  | 0, acc => acc
  | b + 1, acc =>
    let t := acc + 2 ^ b
    rootBits g p b (if t ^ (2 ^ g) ≤ 2 ^ p then t else acc)

/-- 2^(p / 2^g) to the nearest integer, ties to even; from 2^129 on it answers 2^129, which saturates any sum. -/
def pow2Units (p : Int) (g : Nat) : Nat :=
  if p ≤ -(2 ^ g) then 0
  else if 129 * 2 ^ g ≤ p then 2 ^ 129
  else (rootBits g (p + 2 ^ g).toNat 131 0 + 1) / 2

/-- R71: the square of a value in units of 2^-64 under the Assay scale code, rounded once to nearest even.  Of a DL value the
exact square is a power of two with a fraction in the exponent. -/
def squareUnits (asc : Nat) (v : Val) : Nat :=
  let k : Int := 64 + 2 * ((asc : Int) - 127)
  match v with
  | .fault => 0
  | .dy a => (((a.mul a).scaleBy k).toIntRne).toNat
  | .lg _ l g => pow2Units (2 * l + k * 2 ^ g) g

/-- R71: a saturating 128-bit addition; true when it saturates. -/
def addSsq (a x : Nat) : Nat × Bool := if 2 ^ 128 ≤ a + x then (2 ^ 128 - 1, true) else (a + x, false)

/-- R72: the bin of a value. -/
def histBin (hb : Int) (v : Val) : Nat :=
  let bin (x : Int) : Nat := if x ≤ hb then 1 else if hb + 61 ≤ x then 62 else (x - hb + 1).toNat
  match v with
  | .fault => 63
  | .dy a => if a.isZero then 0 else bin a.ilog2
  | .lg _ l g => bin (l / (2 ^ g : Int))

/-- R43, R73: the larger of a DF32 maximum and the magnitude of a value; Fault does not count.  A DL magnitude is in general no
DF value, and the spec does not say how the exact DF32 maximum takes it: the model rounds it to the nearest DF32 (DESIGN
CHOICE, log 49). -/
def raiseMax (m : BitVec 32) (v : Val) : BitVec 32 :=
  match v with
  | .fault => m
  | v =>
    let c := (encode .df32 false .nearest (.dy v.magnitude)).code
    if m.toNat < c then BitVec.ofNat 32 c else m

end Sys2Proof.Num
end

