-- ==== Sys2Proof/Config.lean ====
section
/-!
DEFINITION. What the spec leaves open: opaque constants that no proof can evaluate.  A statement about one of
them holds whatever its value is.  Each is named in the assumption log.
-/

namespace Sys2Proof.Config

/-- RCP, RSQ of Table 3-6: the value a part gives for a DF32 operand.  Used only where it lies inside the bound of
R66 (log 10). -/
opaque rcp : BitVec 32 → BitVec 32
opaque rsq : BitVec 32 → BitVec 32

/-- EXP2 and LOG2 of Table 3-6, inside the bound of R66 (log 10). -/
opaque exp2 : BitVec 32 → BitVec 32
opaque log2 : BitVec 32 → BitVec 32

/-- LTOF and FTOL of Table 3-6 for DL16 (`true`) or DL8 (`false`), inside the bound of R66 (log 10). -/
opaque ltof : Bool → Nat → BitVec 32
opaque ftol : Bool → BitVec 32 → Nat

/-- FTWOSUM's low part when R46's condition does not hold: a fixed function of both operands (log 11). -/
opaque ftwosumLo : BitVec 32 → BitVec 32 → BitVec 32

/-- EXP2 of a Planisher unit in DF24, inside the bound of Table 6-1 (log 10). -/
opaque planisherExp2 : BitVec 24 → BitVec 24

/-- ROW_LSE of R152, a function of the largest element, of `l` and of the sum of the weights.  Used only where it lies within
1 ulp of R152's formula (log 12). -/
opaque rowLse : BitVec 32 → BitVec 24 → Nat → BitVec 32

/-- What ROW_STATS, ROW_MAX and ROW_LSE, by their codes, give for a row without elements: R144 and R152 name no value (log 57). -/
opaque emptyRow : Nat → Word

/-- The two fixed internal keys of R277, which the spec does not give (log 13). -/
opaque seedKey : Fin 2 → BitVec 256

/-- The built-in energy coefficients of R293 (log 14). -/
opaque builtinCoefficient : Nat → BitVec 32

/-- Where the fuse image holds its values: R292 names them and gives no places.  The contents of PW_FUSE_OPk, BOOT_OP,
and the words of the image that are the
coefficients, in image order, where they are 16 words before the CRC (log 17). -/
opaque fuseOp : List (BitVec 32) → Nat → BitVec 40
opaque fuseBootOp : List (BitVec 32) → BitVec 2
opaque fuseCoefficientPlaces : List Nat

/-- PHY calibration bytes of the CAL record (R318): byte number `n` of the draw (log 18). -/
opaque calByte : Nat → Byte

/-- How many activations a DRAM access makes, how many commands a row of Planisher work takes, and how many PHY lanes idle in a
tick (R292 classes 5, 11 and 13): the spec does not fix them (log 15). -/
opaque activations : Nat → Nat
opaque planisherCommands : Nat → Nat
opaque idleLanes : Nat → Nat

/-- R283: whether the sixteenths of a tick that GT_SYNC_DLY leaves round V up to the next tick (log 33). -/
opaque delayRoundsUp : Nat → Bool

/-- Open contents of a channel after a writing TINKER pattern (R258) or of Planisher destination rows past those
done at a reset (Table 5-10): byte number `n` of the draw (log 16). -/
opaque openByte : Nat → Byte

/-- Values that the spec leaves open take their value here, one for each draw (log 4). -/
opaque freeWord : Nat → Word

end Sys2Proof.Config
end

