-- ==== Sys2Proof/Machine/Codes.lean ====
section
/-!
DEFINITION. Check values and codes: the Hallmark CRC-16 (R166), CRC-32 of the Bureau (R317), the SEC-DED code
(R228, R230), the generator F (R269, R270), and the status codes (R340).
-/

namespace Sys2Proof

/-! ## CRC -/

/-- One byte into a CRC-16 of polynomial 0x8BB7, most significant bit first (R166). -/
def crc16Byte (crc : BitVec 16) (b : Byte) : BitVec 16 :=
  let step := fun (c : BitVec 16) => if c.msb then (c <<< 1) ^^^ 0x8BB7#16 else c <<< 1
  let c := crc ^^^ (b.setWidth 16 <<< 8)
  step (step (step (step (step (step (step (step c)))))))

/-- The CRC-16 of a byte sequence from an initial value. -/
def crc16 (init : BitVec 16) (bs : List Byte) : BitVec 16 := bs.foldl crc16Byte init

/-- Byte `k` of a wide value, byte 0 lowest. -/
def byteOf {w : Nat} (x : BitVec w) (k : Nat) : Byte := BitVec.ofNat 8 (x.toNat >>> (8 * k))

/-- The first `n` bytes of a value, byte 0 first. -/
def bytesOf {w : Nat} (n : Nat) (x : BitVec w) : List Byte := (List.range n).map (byteOf x)

/-- The number whose bytes are the list, byte 0 lowest (R34). -/
def ofBytes (bs : List Byte) : Nat := bs.foldr (fun b a => b.toNat + 256 * a) 0

/-- R166: the Hallmark of a sector. -/
def hallmark (s : SectorBits) : BitVec 16 := crc16 0xFFFF#16 (bytesOf 64 s)

/-- One byte into the reflected CRC-32 of IEEE 802.3 (R317). -/
def crc32Byte (crc : BitVec 32) (b : Byte) : BitVec 32 :=
  let step := fun (c : BitVec 32) => if c.getLsbD 0 then (c >>> 1) ^^^ 0xEDB88320#32 else c >>> 1
  let c := crc ^^^ b.setWidth 32
  step (step (step (step (step (step (step (step c)))))))

/-- CRC-32 with initial value all ones and final inversion. -/
def crc32 (bs : List Byte) : BitVec 32 := ~~~ (bs.foldl crc32Byte 0xFFFFFFFF#32)

/-! ## SEC-DED (R228 to R231) -/

/-- Table 10-1: the columns of the data bits. -/
def hsiao : List Nat :=
  [0x07, 0x0B, 0x0D, 0x0E, 0x13, 0x15, 0x16, 0x19, 0x1A, 0x1C, 0x23, 0x25, 0x26, 0x29, 0x2A, 0x2C,
   0x31, 0x32, 0x34, 0x38, 0x43, 0x45, 0x46, 0x49, 0x4A, 0x4C, 0x51, 0x52, 0x54, 0x58, 0x61, 0x62,
   0x64, 0x68, 0x70, 0x83, 0x85, 0x86, 0x89, 0x8A, 0x8C, 0x91, 0x92, 0x94, 0x98, 0xA1, 0xA2, 0xA4,
   0xA8, 0xB0, 0xC1, 0xC2, 0xC4, 0xC8, 0xD0, 0xE0, 0x1F, 0x3E, 0x7C, 0xF8, 0xF1, 0xE3, 0xC7, 0x8F]

/-- R228: the check byte of a word. -/
def checkByte (w : Word) : BitVec 8 :=
  hsiao.zipIdx.foldl (fun c e => if w.getLsbD e.2 then c ^^^ BitVec.ofNat 8 e.1 else c) 0

/-- R230: the syndrome of a word as read. -/
def syndrome (w : Word) (c : BitVec 8) : BitVec 8 := c ^^^ checkByte w

/-- Table 10-2: the verdict on one word. -/
inductive Verdict
  | clean
  | correctedCheck
  | correctedData (bit : Nat)
  | uncorrectable
  deriving DecidableEq, Repr

/-- Is the syndrome of weight 1? -/
def isCheckColumn (s : BitVec 8) : Bool := (List.range 8).any fun j => s == (1#8 <<< j)

/-- R230: the verdict of a syndrome. -/
def verdict (s : BitVec 8) : Verdict :=
  if s = 0 then .clean
  else if isCheckColumn s then .correctedCheck
  else match hsiao.findIdx? (fun h => BitVec.ofNat 8 h == s) with
    | some i => .correctedData i
    | none => .uncorrectable

/-- The word a verdict delivers. -/
def corrected (w : Word) : Verdict → Word
  | .correctedData i => w ^^^ (1#64 <<< i)
  | _ => w

/-- Word `k` of a sector (R229). -/
def sectorWord (s : SectorBits) (k : Nat) : Word := BitVec.ofNat 64 (s.toNat >>> (64 * k))

/-- A sector from its words, word 0 first; at most eight. -/
def ofWords (ws : List Word) : SectorBits := BitVec.ofNat 512 (ws.foldr (fun w a => w.toNat + 2 ^ 64 * a) 0)

/-- The eight check bytes of a sector. -/
def sectorChecks (s : SectorBits) : List (BitVec 8) := (List.range 8).map fun k => checkByte (sectorWord s k)

/-- All ones: the Fault sector of R233, the data of a poisoned sector (R231). -/
def allOnes : SectorBits := BitVec.allOnes 512

/-- R231: does a stored sector read as poisoned? -/
def isPoisoned (s : SectorBits) (cs : List (BitVec 8)) : Bool :=
  decide (7 ≤ ((List.range 8).filter fun k =>
    sectorWord s k == BitVec.allOnes 64 && syndrome (sectorWord s k) (cs.getD k 0) == 0xFF#8).length)

/-! ## The generator F (R269, R270) -/

namespace Gen

/-- Table 11-2. -/
def rotP : List Nat := [7, 19, 3, 26, 13, 22]
def rotQ : List Nat := [12, 5, 29, 17, 9, 24]

/-- The four words of the state. -/
structure X where
  x0 : BitVec 32
  x1 : BitVec 32
  x2 : BitVec 32
  x3 : BitVec 32
  deriving DecidableEq, Repr

/-- Key word `i` of a 256-bit key. -/
def key (k : BitVec 256) (i : Nat) : BitVec 32 := BitVec.ofNat 32 (k.toNat >>> (32 * (i % 8)))

/-- Key injection `j`. -/
def inject (k : BitVec 256) (j : Nat) (x : X) : X :=
  ⟨x.x0 ^^^ key k j, x.x1 + key k (j + 3), x.x2 ^^^ key k (j + 5),
   x.x3 + key k (j + 6) + BitVec.ofNat 32 (j * 0x5A3C96E1)⟩

/-- One round. -/
def round (k : BitVec 256) (r : Nat) (x : X) : X :=
  let x := if r % 3 = 0 then inject k (r / 3) x else x
  let x1 := x.x1 + ((x.x0.rotateLeft (rotP.getD (r % 6) 0)) ^^^ x.x2)
  let x3 := x.x3 ^^^ (x1 + x.x2).rotateLeft (rotQ.getD (r % 6) 0)
  ⟨x1, x.x2, x3, x.x0⟩

/-- F(K, x): the 128-bit output, y0 in the low word. -/
def f (k : BitVec 256) (x : X) : BitVec 128 :=
  let y := inject k 8 ((List.range 24).foldl (fun x r => round k r x) x)
  y.x3 ++ y.x2 ++ y.x1 ++ y.x0

/-- R270: `w` random bits (4, 8, 16 or 32) for element `i` at draw index `d` under stream `s`. -/
def bits (k : BitVec 256) (w i : Nat) (s d : BitVec 32) : Nat :=
  let per := 128 / w
  let wcode := if w = 4 then 0 else if w = 8 then 1 else if w = 16 then 2 else 3
  let e := wcode * 2 ^ 62 + i / per
  let y := f k ⟨BitVec.ofNat 32 e, BitVec.ofNat 32 (e >>> 32), s, d⟩
  (y.toNat >>> (w * (i % per))) % 2 ^ w

end Gen

/-! ## Status codes (R340) -/

/-- Table 5-6. -/
inductive Status
  | ok | okCorrected | okClamped | rebuilt | degraded | abortedReset
  | reserveFull | badArg | regionClass | notPermitted | badOpcode | dataFault | internal
  deriving DecidableEq, Repr

namespace Status

/-- The code of Table 5-6. -/
def code : Status → Nat
  | .ok => 0x00 | .okCorrected => 0x01 | .okClamped => 0x02 | .rebuilt => 0x03 | .degraded => 0x04
  | .abortedReset => 0x05 | .reserveFull => 0x10 | .badArg => 0x11 | .regionClass => 0x12
  | .notPermitted => 0x13 | .badOpcode => 0x14 | .dataFault => 0x20 | .internal => 0x3F

/-- The status of a code, where the code is in the table. -/
def ofCode (c : Nat) : Option Status :=
  [ok, okCorrected, okClamped, rebuilt, degraded, abortedReset, reserveFull, badArg, regionClass, notPermitted,
    badOpcode, dataFault, internal].find? fun s => s.code == c

/-- R340: the more severe of two statuses: the larger code. -/
def worst (a b : Status) : Status := if a.code < b.code then b else a

end Status

end Sys2Proof
end

