-- ==== Sys2Proof/Machine/RegMap.lean ====
section
/-!
DEFINITION. The register map (14_register_map.md, Table 14-12) and every field of every register table of the spec:
bits, access code, reset value, and whether WRST_N keeps it.  Written from the spec's tables, one entry per row.
-/

namespace Sys2Proof

/-- The register families of Table 14-12.  `CR_RCTX0` and `CR_RCTX1` are words 0 and 1 of a context; `IN_LOG`,
`CR_SEED` and `CR_NS_DATA` are numbered word by word. -/
inductive Reg
  | MW_ID | MW_CONFIG | MW_STAT | MW_IRQ_CAUSE | MW_IRQ_MASK | MW_IRQ_SET | MW_IRQ_DRAWER | MW_OVF_SRC
  | PW_CLK_STAT | PW_OP_CTL | PW_FUSE_OP | PW_DOM_STAT | PW_MON_STAT | PW_STRETCH | PW_GOV_CFG | PW_GOV_STAT
  | PW_SLACK | PW_THERM | PW_STACK_TEMP | PW_COOL | PW_ENERGY | LC_STAT | LC_CTL | LC_RELEASE
  | LC_DROPS | LC_BUREAU | LC_LAST_SHUT | PT_CTL | PT_CRED | PT_STAT | PT_FLAGS | PT_PROTO
  | PT_HM | PT_STARVE | PT_MGT_ID | PT_MGT_STAT | PA_CFG | PA_PORTS | PA_REG | PA_TOKENS
  | DR_SQ_BASE | DR_CQ_BASE | DR_CTL | DR_DB | DR_STAT | DR_ERR | DR_FW | RG_GRAN
  | SB_CTL | SB_STAT | SB_HITS | SB_MISSES | AV_KSLOT | AV_ENG | AV_STALL | AV_BKT_STAT
  | AV_BKT_SEQ | AV_ACC_REFUSED | AV_SPILL_OPS | AV_ASSAY_STAT | IN_CTL | IN_STAT | IN_RETIRED | IN_LOG_PTR
  | IN_LOG_LOST | IN_INTCNT | IN_MEND_STAT | IN_LOG | CR_CTL | CR_NS_STAT | CR_NS_DATA | CR_SEED
  | CR_RCTX0 | CR_RCTX1 | CR_SMP_STAT | CR_SMP_ROWS | GT_TIME | GT_CTL | GT_SYNC_DLY | GT_BAR_MARGIN
  | GT_SYNC_STAT | GT_STEP | CE_STATE | CE_CORR | CE_UNCORR | CE_PL_STAT | CE_PL_PREEMPT | SS_IDENT
  deriving DecidableEq, Repr

namespace Reg

/-- Every family, in increasing offset order. -/
def all : List Reg :=
  [.MW_ID, .MW_CONFIG, .MW_STAT, .MW_IRQ_CAUSE, .MW_IRQ_MASK, .MW_IRQ_SET, .MW_IRQ_DRAWER,
   .MW_OVF_SRC, .PW_CLK_STAT, .PW_OP_CTL, .PW_FUSE_OP, .PW_DOM_STAT, .PW_MON_STAT, .PW_STRETCH,
   .PW_GOV_CFG, .PW_GOV_STAT, .PW_SLACK, .PW_THERM, .PW_STACK_TEMP, .PW_COOL, .PW_ENERGY,
   .LC_STAT, .LC_CTL, .LC_RELEASE, .LC_DROPS, .LC_BUREAU, .LC_LAST_SHUT, .PT_CTL,
   .PT_CRED, .PT_STAT, .PT_FLAGS, .PT_PROTO, .PT_HM, .PT_STARVE, .PT_MGT_ID,
   .PT_MGT_STAT, .PA_CFG, .PA_PORTS, .PA_REG, .PA_TOKENS, .DR_SQ_BASE, .DR_CQ_BASE,
   .DR_CTL, .DR_DB, .DR_STAT, .DR_ERR, .DR_FW, .RG_GRAN, .SB_CTL,
   .SB_STAT, .SB_HITS, .SB_MISSES, .AV_KSLOT, .AV_ENG, .AV_STALL, .AV_BKT_STAT,
   .AV_BKT_SEQ, .AV_ACC_REFUSED, .AV_SPILL_OPS, .AV_ASSAY_STAT, .IN_CTL, .IN_STAT, .IN_RETIRED,
   .IN_LOG_PTR, .IN_LOG_LOST, .IN_INTCNT, .IN_MEND_STAT, .IN_LOG, .CR_CTL, .CR_NS_STAT,
   .CR_NS_DATA, .CR_SEED, .CR_RCTX0, .CR_RCTX1, .CR_SMP_STAT, .CR_SMP_ROWS, .GT_TIME,
   .GT_CTL, .GT_SYNC_DLY, .GT_BAR_MARGIN, .GT_SYNC_STAT, .GT_STEP, .CE_STATE, .CE_CORR,
   .CE_UNCORR, .CE_PL_STAT, .CE_PL_PREEMPT, .SS_IDENT]

/-- CSR offset of index 0 (Table 14-12). -/
def base : Reg → Nat
  | .MW_ID => 0x000000 | .MW_CONFIG => 0x000008 | .MW_STAT => 0x000010 | .MW_IRQ_CAUSE => 0x000018
  | .MW_IRQ_MASK => 0x000020 | .MW_IRQ_SET => 0x000028 | .MW_IRQ_DRAWER => 0x000030 | .MW_OVF_SRC => 0x000038
  | .PW_CLK_STAT => 0x001000 | .PW_OP_CTL => 0x001008 | .PW_FUSE_OP => 0x001010 | .PW_DOM_STAT => 0x001040
  | .PW_MON_STAT => 0x001100 | .PW_STRETCH => 0x001108 | .PW_GOV_CFG => 0x001180 | .PW_GOV_STAT => 0x001188
  | .PW_SLACK => 0x001190 | .PW_THERM => 0x0011A0 | .PW_STACK_TEMP => 0x0011A8 | .PW_COOL => 0x0011B0
  | .PW_ENERGY => 0x001200 | .LC_STAT => 0x002000 | .LC_CTL => 0x002008 | .LC_RELEASE => 0x002010
  | .LC_DROPS => 0x002018 | .LC_BUREAU => 0x002020 | .LC_LAST_SHUT => 0x002028 | .PT_CTL => 0x010000
  | .PT_CRED => 0x010008 | .PT_STAT => 0x010010 | .PT_FLAGS => 0x010018 | .PT_PROTO => 0x010020
  | .PT_HM => 0x010028 | .PT_STARVE => 0x010030 | .PT_MGT_ID => 0x012000 | .PT_MGT_STAT => 0x012008
  | .PA_CFG => 0x020000 | .PA_PORTS => 0x020008 | .PA_REG => 0x020010 | .PA_TOKENS => 0x020018
  | .DR_SQ_BASE => 0x030000 | .DR_CQ_BASE => 0x030008 | .DR_CTL => 0x030010 | .DR_DB => 0x030018
  | .DR_STAT => 0x030020 | .DR_ERR => 0x030028 | .DR_FW => 0x031000 | .RG_GRAN => 0x040000
  | .SB_CTL => 0x050000 | .SB_STAT => 0x050008 | .SB_HITS => 0x050010 | .SB_MISSES => 0x050018
  | .AV_KSLOT => 0x060000 | .AV_ENG => 0x061000 | .AV_STALL => 0x061400 | .AV_BKT_STAT => 0x062000
  | .AV_BKT_SEQ => 0x062008 | .AV_ACC_REFUSED => 0x062010 | .AV_SPILL_OPS => 0x062018 | .AV_ASSAY_STAT => 0x062020
  | .IN_CTL => 0x080000 | .IN_STAT => 0x080008 | .IN_RETIRED => 0x080010 | .IN_LOG_PTR => 0x080030
  | .IN_LOG_LOST => 0x080038 | .IN_INTCNT => 0x080040 | .IN_MEND_STAT => 0x080100 | .IN_LOG => 0x088000
  | .CR_CTL => 0x0A0000 | .CR_NS_STAT => 0x0A0008 | .CR_NS_DATA => 0x0A0010 | .CR_SEED => 0x0A0400
  | .CR_RCTX0 => 0x0A0C00 | .CR_RCTX1 => 0x0A0C08 | .CR_SMP_STAT => 0x0A1000 | .CR_SMP_ROWS => 0x0A1008
  | .GT_TIME => 0x0C0000 | .GT_CTL => 0x0C0008 | .GT_SYNC_DLY => 0x0C0010 | .GT_BAR_MARGIN => 0x0C0018
  | .GT_SYNC_STAT => 0x0C0020 | .GT_STEP => 0x0C0028 | .CE_STATE => 0x100000 | .CE_CORR => 0x100008
  | .CE_UNCORR => 0x100010 | .CE_PL_STAT => 0x100200 | .CE_PL_PREEMPT => 0x100208 | .SS_IDENT => 0x200000

/-- Distance from one index to the next. -/
def stride : Reg → Nat
  | .MW_ID => 0x0 | .MW_CONFIG => 0x0 | .MW_STAT => 0x0 | .MW_IRQ_CAUSE => 0x0
  | .MW_IRQ_MASK => 0x0 | .MW_IRQ_SET => 0x0 | .MW_IRQ_DRAWER => 0x0 | .MW_OVF_SRC => 0x0
  | .PW_CLK_STAT => 0x0 | .PW_OP_CTL => 0x0 | .PW_FUSE_OP => 0x8 | .PW_DOM_STAT => 0x8
  | .PW_MON_STAT => 0x0 | .PW_STRETCH => 0x0 | .PW_GOV_CFG => 0x0 | .PW_GOV_STAT => 0x0
  | .PW_SLACK => 0x0 | .PW_THERM => 0x0 | .PW_STACK_TEMP => 0x0 | .PW_COOL => 0x0
  | .PW_ENERGY => 0x8 | .LC_STAT => 0x0 | .LC_CTL => 0x0 | .LC_RELEASE => 0x0
  | .LC_DROPS => 0x0 | .LC_BUREAU => 0x0 | .LC_LAST_SHUT => 0x0 | .PT_CTL => 0x80
  | .PT_CRED => 0x80 | .PT_STAT => 0x80 | .PT_FLAGS => 0x80 | .PT_PROTO => 0x80
  | .PT_HM => 0x80 | .PT_STARVE => 0x80 | .PT_MGT_ID => 0x0 | .PT_MGT_STAT => 0x0
  | .PA_CFG => 0x20 | .PA_PORTS => 0x20 | .PA_REG => 0x20 | .PA_TOKENS => 0x20
  | .DR_SQ_BASE => 0x40 | .DR_CQ_BASE => 0x40 | .DR_CTL => 0x40 | .DR_DB => 0x40
  | .DR_STAT => 0x40 | .DR_ERR => 0x40 | .DR_FW => 0x0 | .RG_GRAN => 0x8
  | .SB_CTL => 0x0 | .SB_STAT => 0x0 | .SB_HITS => 0x0 | .SB_MISSES => 0x0
  | .AV_KSLOT => 0x8 | .AV_ENG => 0x8 | .AV_STALL => 0x8 | .AV_BKT_STAT => 0x0
  | .AV_BKT_SEQ => 0x0 | .AV_ACC_REFUSED => 0x0 | .AV_SPILL_OPS => 0x0 | .AV_ASSAY_STAT => 0x0
  | .IN_CTL => 0x0 | .IN_STAT => 0x0 | .IN_RETIRED => 0x8 | .IN_LOG_PTR => 0x0
  | .IN_LOG_LOST => 0x0 | .IN_INTCNT => 0x0 | .IN_MEND_STAT => 0x8 | .IN_LOG => 0x8
  | .CR_CTL => 0x0 | .CR_NS_STAT => 0x0 | .CR_NS_DATA => 0x8 | .CR_SEED => 0x8
  | .CR_RCTX0 => 0x10 | .CR_RCTX1 => 0x10 | .CR_SMP_STAT => 0x0 | .CR_SMP_ROWS => 0x0
  | .GT_TIME => 0x0 | .GT_CTL => 0x0 | .GT_SYNC_DLY => 0x0 | .GT_BAR_MARGIN => 0x0
  | .GT_SYNC_STAT => 0x0 | .GT_STEP => 0x0 | .CE_STATE => 0x400 | .CE_CORR => 0x400
  | .CE_UNCORR => 0x400 | .CE_PL_STAT => 0x400 | .CE_PL_PREEMPT => 0x400 | .SS_IDENT => 0x1000

/-- How many indexes the family has. -/
def count : Reg → Nat
  | .MW_ID => 1 | .MW_CONFIG => 1 | .MW_STAT => 1 | .MW_IRQ_CAUSE => 1 | .MW_IRQ_MASK => 1 | .MW_IRQ_SET => 1
  | .MW_IRQ_DRAWER => 1 | .MW_OVF_SRC => 1 | .PW_CLK_STAT => 1 | .PW_OP_CTL => 1 | .PW_FUSE_OP => 3 | .PW_DOM_STAT => 9
  | .PW_MON_STAT => 1 | .PW_STRETCH => 1 | .PW_GOV_CFG => 1 | .PW_GOV_STAT => 1 | .PW_SLACK => 1 | .PW_THERM => 1
  | .PW_STACK_TEMP => 1 | .PW_COOL => 1 | .PW_ENERGY => 64 | .LC_STAT => 1 | .LC_CTL => 1 | .LC_RELEASE => 1
  | .LC_DROPS => 1 | .LC_BUREAU => 1 | .LC_LAST_SHUT => 1 | .PT_CTL => 32 | .PT_CRED => 32 | .PT_STAT => 32
  | .PT_FLAGS => 32 | .PT_PROTO => 32 | .PT_HM => 32 | .PT_STARVE => 32 | .PT_MGT_ID => 1 | .PT_MGT_STAT => 1
  | .PA_CFG => 64 | .PA_PORTS => 64 | .PA_REG => 64 | .PA_TOKENS => 64 | .DR_SQ_BASE => 64 | .DR_CQ_BASE => 64
  | .DR_CTL => 64 | .DR_DB => 64 | .DR_STAT => 64 | .DR_ERR => 64 | .DR_FW => 1 | .RG_GRAN => 768
  | .SB_CTL => 1 | .SB_STAT => 1 | .SB_HITS => 1 | .SB_MISSES => 1 | .AV_KSLOT => 16 | .AV_ENG => 128
  | .AV_STALL => 128 | .AV_BKT_STAT => 1 | .AV_BKT_SEQ => 1 | .AV_ACC_REFUSED => 1 | .AV_SPILL_OPS => 1 | .AV_ASSAY_STAT => 1
  | .IN_CTL => 1 | .IN_STAT => 1 | .IN_RETIRED => 4 | .IN_LOG_PTR => 1 | .IN_LOG_LOST => 1 | .IN_INTCNT => 1
  | .IN_MEND_STAT => 32 | .IN_LOG => 4096 | .CR_CTL => 1 | .CR_NS_STAT => 1 | .CR_NS_DATA => 4 | .CR_SEED => 256
  | .CR_RCTX0 => 64 | .CR_RCTX1 => 64 | .CR_SMP_STAT => 1 | .CR_SMP_ROWS => 1 | .GT_TIME => 1 | .GT_CTL => 1
  | .GT_SYNC_DLY => 1 | .GT_BAR_MARGIN => 1 | .GT_SYNC_STAT => 1 | .GT_STEP => 1 | .CE_STATE => 256 | .CE_CORR => 256
  | .CE_UNCORR => 256 | .CE_PL_STAT => 256 | .CE_PL_PREEMPT => 256 | .SS_IDENT => 8

/-- The CSR offset of a register. -/
def offset (r : Reg) (i : Nat) : Nat := r.base + r.stride * i

/-- The register at an offset, if the index of Table 14-12 names one (R330, R339). -/
def ofOffset (o : Nat) : Option (Reg × Nat) :=
  all.findSome? fun r =>
    if r.count = 1 then (if o = r.base then some (r, 0) else none)
    else if r.base ≤ o ∧ (o - r.base) % r.stride = 0 ∧ (o - r.base) / r.stride < r.count then
      some (r, (o - r.base) / r.stride)
    else none

end Reg

/-- The access codes of Table 0-3 that the register tables use. -/
inductive Access | ro | rw | wo | w1c
  deriving DecidableEq, Repr

/-- A field: its register and its bits `[lo + w - 1 : lo]`. -/
structure Fld where
  reg : Reg
  lo : Nat
  w : Nat
  deriving DecidableEq, Repr

/-- A row of a register table: the field, its access code, its reset value after PORST_N, and whether WRST_N and a
warm start keep it (R9, R323). -/
structure FSpec where
  fld : Fld
  acc : Access
  reset : Nat
  keep : Bool
  deriving DecidableEq, Repr

namespace F

/-! MW_ID: 14_register_map.md, Table 14-4 -/
def MW_ID_MINOR : Fld := ⟨.MW_ID, 0, 8⟩
def MW_ID_MAJOR : Fld := ⟨.MW_ID, 8, 8⟩
def MW_ID_NAME : Fld := ⟨.MW_ID, 16, 16⟩

/-! MW_CONFIG: 01_block_overview.md, Table 1-6 -/
def MW_CONFIG_SITES_POPULATED : Fld := ⟨.MW_CONFIG, 0, 8⟩
def MW_CONFIG_STACK_DETECTED : Fld := ⟨.MW_CONFIG, 8, 8⟩
def MW_CONFIG_EXT_LEVEL : Fld := ⟨.MW_CONFIG, 16, 4⟩
def MW_CONFIG_SITE_CAP : Fld := ⟨.MW_CONFIG, 24, 32⟩
def MW_CONFIG_MEND_SITES : Fld := ⟨.MW_CONFIG, 56, 3⟩

/-! MW_STAT: 14_register_map.md, Table 14-5 -/
def MW_STAT_LC_STATE : Fld := ⟨.MW_STAT, 0, 4⟩
def MW_STAT_CUR_OP : Fld := ⟨.MW_STAT, 4, 2⟩
def MW_STAT_STOPPED : Fld := ⟨.MW_STAT, 6, 1⟩
def MW_STAT_STRETCHING : Fld := ⟨.MW_STAT, 7, 1⟩
def MW_STAT_THROTTLE : Fld := ⟨.MW_STAT, 8, 4⟩
def MW_STAT_CH_RECOVERING : Fld := ⟨.MW_STAT, 12, 1⟩
def MW_STAT_ANY_RETIRED : Fld := ⟨.MW_STAT, 13, 1⟩
def MW_STAT_MEND_DEGRADED : Fld := ⟨.MW_STAT, 14, 1⟩
def MW_STAT_MEND_TWO_OUT : Fld := ⟨.MW_STAT, 15, 1⟩
def MW_STAT_PORT_FAULT : Fld := ⟨.MW_STAT, 16, 1⟩
def MW_STAT_LOG_PENDING : Fld := ⟨.MW_STAT, 17, 1⟩

/-! MW_IRQ_CAUSE: 14_register_map.md, Table 14-7 -/
def MW_IRQ_CAUSE_DRAWER : Fld := ⟨.MW_IRQ_CAUSE, 0, 4⟩
def MW_IRQ_CAUSE_EVENT : Fld := ⟨.MW_IRQ_CAUSE, 4, 8⟩

/-! MW_IRQ_MASK: 14_register_map.md, Table 14-8 -/
def MW_IRQ_MASK_ENABLE : Fld := ⟨.MW_IRQ_MASK, 0, 12⟩

/-! MW_IRQ_SET: 14_register_map.md, Table 14-9 -/
def MW_IRQ_SET_SET : Fld := ⟨.MW_IRQ_SET, 4, 8⟩

/-! MW_IRQ_DRAWER: 14_register_map.md, Table 14-10 -/
def MW_IRQ_DRAWER_PENDING : Fld := ⟨.MW_IRQ_DRAWER, 0, 64⟩

/-! MW_OVF_SRC: 14_register_map.md, Table 14-11 -/
def MW_OVF_SRC_AV_STALL : Fld := ⟨.MW_OVF_SRC, 0, 1⟩
def MW_OVF_SRC_AV_ACC : Fld := ⟨.MW_OVF_SRC, 1, 1⟩
def MW_OVF_SRC_AV_SPILL : Fld := ⟨.MW_OVF_SRC, 2, 1⟩
def MW_OVF_SRC_PT_PROTO : Fld := ⟨.MW_OVF_SRC, 3, 1⟩
def MW_OVF_SRC_PT_HM : Fld := ⟨.MW_OVF_SRC, 4, 1⟩
def MW_OVF_SRC_PT_STARVE : Fld := ⟨.MW_OVF_SRC, 5, 1⟩
def MW_OVF_SRC_SB : Fld := ⟨.MW_OVF_SRC, 6, 1⟩
def MW_OVF_SRC_CE_ERR : Fld := ⟨.MW_OVF_SRC, 7, 1⟩
def MW_OVF_SRC_CE_PL : Fld := ⟨.MW_OVF_SRC, 8, 1⟩
def MW_OVF_SRC_CR_SMP : Fld := ⟨.MW_OVF_SRC, 9, 1⟩
def MW_OVF_SRC_IN_LOG : Fld := ⟨.MW_OVF_SRC, 10, 1⟩
def MW_OVF_SRC_PW_STRETCH : Fld := ⟨.MW_OVF_SRC, 11, 1⟩
def MW_OVF_SRC_LC_DROPS : Fld := ⟨.MW_OVF_SRC, 12, 1⟩

/-! PW_CLK_STAT: 12_power_clocks_thermal.md, Table 12-7 -/
def PW_CLK_STAT_PLL_LOCK : Fld := ⟨.PW_CLK_STAT, 0, 1⟩
def PW_CLK_STAT_FUSE_DONE : Fld := ⟨.PW_CLK_STAT, 1, 1⟩
def PW_CLK_STAT_FUSE_BAD : Fld := ⟨.PW_CLK_STAT, 2, 1⟩
def PW_CLK_STAT_BOOT_OP : Fld := ⟨.PW_CLK_STAT, 3, 2⟩
def PW_CLK_STAT_CORE_DIV : Fld := ⟨.PW_CLK_STAT, 5, 4⟩

/-! PW_OP_CTL: 12_power_clocks_thermal.md, Table 12-8 -/
def PW_OP_CTL_TARGET_OP : Fld := ⟨.PW_OP_CTL, 0, 2⟩
def PW_OP_CTL_CUR_OP : Fld := ⟨.PW_OP_CTL, 2, 2⟩
def PW_OP_CTL_BUSY : Fld := ⟨.PW_OP_CTL, 4, 1⟩
def PW_OP_CTL_OP_ERR : Fld := ⟨.PW_OP_CTL, 5, 1⟩
def PW_OP_CTL_OP_MAX : Fld := ⟨.PW_OP_CTL, 6, 2⟩

/-! PW_FUSE_OPk: 12_power_clocks_thermal.md, Table 12-9 -/
def PW_FUSE_OP_VNOM_MV : Fld := ⟨.PW_FUSE_OP, 0, 12⟩
def PW_FUSE_OP_VMIN_MV : Fld := ⟨.PW_FUSE_OP, 12, 12⟩
def PW_FUSE_OP_DROOP_TH : Fld := ⟨.PW_FUSE_OP, 24, 8⟩
def PW_FUSE_OP_GUARD : Fld := ⟨.PW_FUSE_OP, 32, 8⟩

/-! PW_DOM_STATd: 12_power_clocks_thermal.md, Table 12-10 -/
def PW_DOM_STAT_ON : Fld := ⟨.PW_DOM_STAT, 0, 1⟩
def PW_DOM_STAT_STAGING : Fld := ⟨.PW_DOM_STAT, 1, 1⟩
def PW_DOM_STAT_HDR_FAULT : Fld := ⟨.PW_DOM_STAT, 2, 1⟩
def PW_DOM_STAT_STAGE_ABORTS : Fld := ⟨.PW_DOM_STAT, 3, 8⟩
def PW_DOM_STAT_SENSE_MV : Fld := ⟨.PW_DOM_STAT, 11, 12⟩

/-! PW_MON_STAT: 12_power_clocks_thermal.md, Table 12-11 -/
def PW_MON_STAT_FAILED : Fld := ⟨.PW_MON_STAT, 0, 8⟩
def PW_MON_STAT_SUSPECT : Fld := ⟨.PW_MON_STAT, 8, 8⟩
def PW_MON_STAT_LR_FAIL : Fld := ⟨.PW_MON_STAT, 16, 1⟩
def PW_MON_STAT_STRETCHING : Fld := ⟨.PW_MON_STAT, 17, 1⟩
def PW_MON_STAT_WORST_MON : Fld := ⟨.PW_MON_STAT, 18, 6⟩

/-! PW_STRETCH: 12_power_clocks_thermal.md, Table 12-12 -/
def PW_STRETCH_COUNT : Fld := ⟨.PW_STRETCH, 0, 48⟩
def PW_STRETCH_OVF : Fld := ⟨.PW_STRETCH, 48, 1⟩

/-! PW_GOV_CFG: 12_power_clocks_thermal.md, Table 12-13 -/
def PW_GOV_CFG_CAP : Fld := ⟨.PW_GOV_CFG, 0, 16⟩
def PW_GOV_CFG_WINDOW : Fld := ⟨.PW_GOV_CFG, 16, 16⟩
def PW_GOV_CFG_PRIO : Fld := ⟨.PW_GOV_CFG, 32, 16⟩
def PW_GOV_CFG_PL_ONE : Fld := ⟨.PW_GOV_CFG, 48, 1⟩

/-! PW_GOV_STAT: 12_power_clocks_thermal.md, Table 12-14 -/
def PW_GOV_STAT_LVL_ACT : Fld := ⟨.PW_GOV_STAT, 0, 3⟩
def PW_GOV_STAT_LVL_PL : Fld := ⟨.PW_GOV_STAT, 3, 1⟩
def PW_GOV_STAT_LVL_AV : Fld := ⟨.PW_GOV_STAT, 4, 3⟩
def PW_GOV_STAT_LVL_PHY : Fld := ⟨.PW_GOV_STAT, 7, 2⟩
def PW_GOV_STAT_THR_BUDGET : Fld := ⟨.PW_GOV_STAT, 9, 4⟩
def PW_GOV_STAT_THR_THERM : Fld := ⟨.PW_GOV_STAT, 13, 4⟩
def PW_GOV_STAT_THROTTLE : Fld := ⟨.PW_GOV_STAT, 17, 4⟩
def PW_GOV_STAT_AT_FLOOR : Fld := ⟨.PW_GOV_STAT, 21, 1⟩
def PW_GOV_STAT_P_AVG : Fld := ⟨.PW_GOV_STAT, 22, 16⟩
def PW_GOV_STAT_P_LAST : Fld := ⟨.PW_GOV_STAT, 38, 16⟩

/-! PW_SLACK: 12_power_clocks_thermal.md, Table 12-15 -/
def PW_SLACK_HEADROOM : Fld := ⟨.PW_SLACK, 0, 16⟩
def PW_SLACK_IDLE : Fld := ⟨.PW_SLACK, 16, 10⟩

/-! PW_THERM: 12_power_clocks_thermal.md, Table 12-16 -/
def PW_THERM_TH_START : Fld := ⟨.PW_THERM, 0, 8⟩
def PW_THERM_TH_CRIT : Fld := ⟨.PW_THERM, 8, 8⟩
def PW_THERM_TH_STEP : Fld := ⟨.PW_THERM, 16, 4⟩
def PW_THERM_MAX_TEMP : Fld := ⟨.PW_THERM, 20, 8⟩
def PW_THERM_HOT_SITE : Fld := ⟨.PW_THERM, 28, 3⟩

/-! PW_STACK_TEMP: 12_power_clocks_thermal.md, Table 12-17 -/
def PW_STACK_TEMP_TEMP_0 : Fld := ⟨.PW_STACK_TEMP, 0, 8⟩
def PW_STACK_TEMP_TEMP_1 : Fld := ⟨.PW_STACK_TEMP, 8, 8⟩
def PW_STACK_TEMP_TEMP_2 : Fld := ⟨.PW_STACK_TEMP, 16, 8⟩
def PW_STACK_TEMP_TEMP_3 : Fld := ⟨.PW_STACK_TEMP, 24, 8⟩
def PW_STACK_TEMP_TEMP_4 : Fld := ⟨.PW_STACK_TEMP, 32, 8⟩
def PW_STACK_TEMP_TEMP_5 : Fld := ⟨.PW_STACK_TEMP, 40, 8⟩
def PW_STACK_TEMP_TEMP_6 : Fld := ⟨.PW_STACK_TEMP, 48, 8⟩
def PW_STACK_TEMP_TEMP_7 : Fld := ⟨.PW_STACK_TEMP, 56, 8⟩

/-! PW_COOL: 12_power_clocks_thermal.md, Table 12-18 -/
def PW_COOL_COOL_HOLD : Fld := ⟨.PW_COOL, 0, 16⟩
def PW_COOL_STOPPED : Fld := ⟨.PW_COOL, 16, 1⟩
def PW_COOL_COOLANT : Fld := ⟨.PW_COOL, 17, 1⟩
def PW_COOL_STOPS : Fld := ⟨.PW_COOL, 18, 16⟩

/-! PW_ENERGYn: 12_power_clocks_thermal.md, Table 12-19 -/
def PW_ENERGY_ENERGY_NJ : Fld := ⟨.PW_ENERGY, 0, 64⟩

/-! LC_STAT: 13_life_cycle.md, Table 13-11 -/
def LC_STAT_STATE : Fld := ⟨.LC_STAT, 0, 4⟩
def LC_STAT_START_CAUSE : Fld := ⟨.LC_STAT, 4, 2⟩
def LC_STAT_HOLD_CAUSE : Fld := ⟨.LC_STAT, 6, 4⟩
def LC_STAT_WAIT_COOL : Fld := ⟨.LC_STAT, 10, 1⟩
def LC_STAT_WAIT_PF : Fld := ⟨.LC_STAT, 11, 1⟩
def LC_STAT_ELAPSED_MS : Fld := ⟨.LC_STAT, 16, 16⟩

/-! LC_CTL: 13_life_cycle.md, Table 13-12 -/
def LC_CTL_BUREAU_SYNC : Fld := ⟨.LC_CTL, 0, 1⟩

/-! LC_RELEASE: 13_life_cycle.md, Table 13-13 -/
def LC_RELEASE_RELEASE_GTC : Fld := ⟨.LC_RELEASE, 0, 64⟩

/-! LC_DROPS: 13_life_cycle.md, Table 13-14 -/
def LC_DROPS_COUNT : Fld := ⟨.LC_DROPS, 0, 48⟩
def LC_DROPS_OVF : Fld := ⟨.LC_DROPS, 48, 1⟩

/-! LC_BUREAU: 13_life_cycle.md, Table 13-15 -/
def LC_BUREAU_CUR_BANK : Fld := ⟨.LC_BUREAU, 0, 1⟩
def LC_BUREAU_PREPARED : Fld := ⟨.LC_BUREAU, 1, 1⟩
def LC_BUREAU_WRITING : Fld := ⟨.LC_BUREAU, 2, 1⟩
def LC_BUREAU_ABSENT : Fld := ⟨.LC_BUREAU, 3, 1⟩
def LC_BUREAU_EMPTY : Fld := ⟨.LC_BUREAU, 4, 1⟩
def LC_BUREAU_ODD : Fld := ⟨.LC_BUREAU, 5, 1⟩
def LC_BUREAU_WRITE_ERR : Fld := ⟨.LC_BUREAU, 6, 1⟩
def LC_BUREAU_SLOW_FLASH : Fld := ⟨.LC_BUREAU, 7, 1⟩
def LC_BUREAU_PF_WRITTEN : Fld := ⟨.LC_BUREAU, 8, 1⟩
def LC_BUREAU_PF_SKIPPED : Fld := ⟨.LC_BUREAU, 9, 1⟩
def LC_BUREAU_SEQ : Fld := ⟨.LC_BUREAU, 10, 32⟩

/-! LC_LAST_SHUT: 13_life_cycle.md, Table 13-16 -/
def LC_LAST_SHUT_SHUT_STEP : Fld := ⟨.LC_LAST_SHUT, 0, 48⟩
def LC_LAST_SHUT_SHUT_VALID : Fld := ⟨.LC_LAST_SHUT, 48, 1⟩

/-! PT_CTLp: 07_trestle_ports.md, Table 7-12 -/
def PT_CTL_PORT_RESET : Fld := ⟨.PT_CTL, 0, 1⟩
def PT_CTL_RSP_TMO_LOG2 : Fld := ⟨.PT_CTL, 1, 5⟩

/-! PT_CREDp: 07_trestle_ports.md, Table 7-13 -/
def PT_CRED_TC0_HDR : Fld := ⟨.PT_CRED, 0, 9⟩
def PT_CRED_TC0_SECT : Fld := ⟨.PT_CRED, 9, 10⟩

/-! PT_STATp: 07_trestle_ports.md, Table 7-14 -/
def PT_STAT_RELEASED : Fld := ⟨.PT_STAT, 0, 1⟩
def PT_STAT_FAULT : Fld := ⟨.PT_STAT, 1, 1⟩
def PT_STAT_RESETTING : Fld := ⟨.PT_STAT, 2, 1⟩
def PT_STAT_TAGS_BUSY : Fld := ⟨.PT_STAT, 3, 11⟩
def PT_STAT_OUT_BUSY : Fld := ⟨.PT_STAT, 14, 7⟩
def PT_STAT_OUT_SECT : Fld := ⟨.PT_STAT, 21, 12⟩
def PT_STAT_OUT_HDR : Fld := ⟨.PT_STAT, 33, 7⟩

/-! PT_FLAGSp: 07_trestle_ports.md, Table 7-15 -/
def PT_FLAGS_HCRC_ERR : Fld := ⟨.PT_FLAGS, 0, 1⟩
def PT_FLAGS_NO_CREDIT : Fld := ⟨.PT_FLAGS, 1, 1⟩
def PT_FLAGS_TAG_DUP : Fld := ⟨.PT_FLAGS, 2, 1⟩
def PT_FLAGS_BAD_TYPE : Fld := ⟨.PT_FLAGS, 3, 1⟩
def PT_FLAGS_HM_IN : Fld := ⟨.PT_FLAGS, 4, 1⟩
def PT_FLAGS_HM_OUT : Fld := ⟨.PT_FLAGS, 5, 1⟩
def PT_FLAGS_RSP_TMO : Fld := ⟨.PT_FLAGS, 6, 1⟩

/-! PT_PROTOp: 07_trestle_ports.md, Table 7-16 -/
def PT_PROTO_COUNT : Fld := ⟨.PT_PROTO, 0, 48⟩
def PT_PROTO_OVF : Fld := ⟨.PT_PROTO, 48, 1⟩

/-! PT_HMp: 07_trestle_ports.md, Table 7-17 -/
def PT_HM_COUNT : Fld := ⟨.PT_HM, 0, 48⟩
def PT_HM_OVF : Fld := ⟨.PT_HM, 48, 1⟩

/-! PT_STARVEp: 07_trestle_ports.md, Table 7-18 -/
def PT_STARVE_COUNT : Fld := ⟨.PT_STARVE, 0, 48⟩
def PT_STARVE_OVF : Fld := ⟨.PT_STARVE, 48, 1⟩

/-! PT_MGT_ID: 07_trestle_ports.md, Table 7-19 -/
def PT_MGT_ID_BLOCK_ID : Fld := ⟨.PT_MGT_ID, 0, 6⟩
def PT_MGT_ID_ASSIGNED : Fld := ⟨.PT_MGT_ID, 6, 1⟩
def PT_MGT_ID_DN_PRESENT : Fld := ⟨.PT_MGT_ID, 7, 1⟩

/-! PT_MGT_STAT: 07_trestle_ports.md, Table 7-20 -/
def PT_MGT_STAT_CRC_DROPS : Fld := ⟨.PT_MGT_STAT, 0, 32⟩
def PT_MGT_STAT_BAD_BID : Fld := ⟨.PT_MGT_STAT, 32, 32⟩

/-! PA_CFGn: 09_stacks_regions_sideboard.md, Table 9-11 -/
def PA_CFG_ENABLE : Fld := ⟨.PA_CFG, 0, 1⟩
def PA_CFG_TC0_EN : Fld := ⟨.PA_CFG, 1, 1⟩
def PA_CFG_STEER : Fld := ⟨.PA_CFG, 2, 1⟩
def PA_CFG_ACT_FIXED : Fld := ⟨.PA_CFG, 3, 1⟩
def PA_CFG_KGRANT : Fld := ⟨.PA_CFG, 4, 16⟩
def PA_CFG_BKT_QUOTA : Fld := ⟨.PA_CFG, 20, 13⟩
def PA_CFG_TC1_WEIGHT : Fld := ⟨.PA_CFG, 33, 8⟩

/-! PA_PORTSn: 09_stacks_regions_sideboard.md, Table 9-12 -/
def PA_PORTS_PORT_MASK : Fld := ⟨.PA_PORTS, 0, 32⟩

/-! PA_REGn: 09_stacks_regions_sideboard.md, Table 9-13 -/
def PA_REG_RATE : Fld := ⟨.PA_REG, 0, 16⟩
def PA_REG_BURST : Fld := ⟨.PA_REG, 16, 32⟩

/-! PA_TOKENSn: 09_stacks_regions_sideboard.md, Table 9-14 -/
def PA_TOKENS_TOKENS : Fld := ⟨.PA_TOKENS, 0, 40⟩
def PA_TOKENS_HELD : Fld := ⟨.PA_TOKENS, 40, 1⟩

/-! DR_SQ_BASEn: 05_drawer_command_set.md, Table 5-11 -/
def DR_SQ_BASE_SQ_LOG2 : Fld := ⟨.DR_SQ_BASE, 0, 5⟩
def DR_SQ_BASE_SQ_BASE : Fld := ⟨.DR_SQ_BASE, 12, 32⟩

/-! DR_CQ_BASEn: 05_drawer_command_set.md, Table 5-12 -/
def DR_CQ_BASE_CQ_LOG2 : Fld := ⟨.DR_CQ_BASE, 0, 5⟩
def DR_CQ_BASE_CQ_BASE : Fld := ⟨.DR_CQ_BASE, 12, 32⟩

/-! DR_CTLn: 05_drawer_command_set.md, Table 5-13 -/
def DR_CTL_ENABLE : Fld := ⟨.DR_CTL, 0, 1⟩
def DR_CTL_IRQ_EN : Fld := ⟨.DR_CTL, 1, 1⟩
def DR_CTL_CFG_ERR : Fld := ⟨.DR_CTL, 2, 1⟩

/-! DR_DBn: 05_drawer_command_set.md, Table 5-14 -/
def DR_DB_SQ_TAIL : Fld := ⟨.DR_DB, 0, 16⟩
def DR_DB_SQ_TAIL_PHASE : Fld := ⟨.DR_DB, 16, 1⟩
def DR_DB_CQ_HEAD : Fld := ⟨.DR_DB, 32, 16⟩
def DR_DB_CQ_HEAD_PHASE : Fld := ⟨.DR_DB, 48, 1⟩

/-! DR_STATn: 05_drawer_command_set.md, Table 5-15 -/
def DR_STAT_SQ_HEAD : Fld := ⟨.DR_STAT, 0, 16⟩
def DR_STAT_SQ_HEAD_PHASE : Fld := ⟨.DR_STAT, 16, 1⟩
def DR_STAT_CQ_TAIL : Fld := ⟨.DR_STAT, 32, 16⟩
def DR_STAT_CQ_TAIL_PHASE : Fld := ⟨.DR_STAT, 48, 1⟩
def DR_STAT_STARTED : Fld := ⟨.DR_STAT, 49, 4⟩
def DR_STAT_GATED : Fld := ⟨.DR_STAT, 53, 1⟩
def DR_STAT_RING_LOST : Fld := ⟨.DR_STAT, 54, 1⟩
def DR_STAT_IDLE : Fld := ⟨.DR_STAT, 55, 1⟩

/-! DR_ERRn: 05_drawer_command_set.md, Table 5-16 -/
def DR_ERR_DOOR_ERR : Fld := ⟨.DR_ERR, 0, 32⟩
def DR_ERR_FETCH_FAULT : Fld := ⟨.DR_ERR, 32, 1⟩
def DR_ERR_CQ_FAULT : Fld := ⟨.DR_ERR, 33, 1⟩

/-! DR_FW: 05_drawer_command_set.md, Table 5-17 -/
def DR_FW_FW_VERSION : Fld := ⟨.DR_FW, 0, 16⟩
def DR_FW_ROM_CRC : Fld := ⟨.DR_FW, 16, 16⟩

/-! RG_GRANg: 09_stacks_regions_sideboard.md, Table 9-7 -/
def RG_GRAN_CLASS : Fld := ⟨.RG_GRAN, 0, 2⟩
def RG_GRAN_OWNER : Fld := ⟨.RG_GRAN, 2, 6⟩
def RG_GRAN_VALID : Fld := ⟨.RG_GRAN, 8, 1⟩
def RG_GRAN_TIER : Fld := ⟨.RG_GRAN, 9, 3⟩
def RG_GRAN_LOST : Fld := ⟨.RG_GRAN, 12, 1⟩
def RG_GRAN_BUSY : Fld := ⟨.RG_GRAN, 13, 1⟩

/-! SB_CTL: 09_stacks_regions_sideboard.md, Table 9-8 -/
def SB_CTL_RES_WAYS : Fld := ⟨.SB_CTL, 0, 4⟩
def SB_CTL_FLUSH : Fld := ⟨.SB_CTL, 4, 1⟩

/-! SB_STAT: 09_stacks_regions_sideboard.md, Table 9-9 -/
def SB_STAT_RES_FREE_MIN : Fld := ⟨.SB_STAT, 0, 10⟩
def SB_STAT_RES_FREE_SLICE : Fld := ⟨.SB_STAT, 10, 8⟩
def SB_STAT_FLUSHING : Fld := ⟨.SB_STAT, 18, 1⟩
def SB_STAT_RES_CHANGING : Fld := ⟨.SB_STAT, 19, 1⟩

/-! SB_HITS: 09_stacks_regions_sideboard.md, Table 9-10 -/
def SB_HITS_COUNT : Fld := ⟨.SB_HITS, 0, 48⟩
def SB_HITS_OVF : Fld := ⟨.SB_HITS, 48, 1⟩

/-! SB_MISSES: 09_stacks_regions_sideboard.md, Table 9-10 -/
def SB_MISSES_COUNT : Fld := ⟨.SB_MISSES, 0, 48⟩
def SB_MISSES_OVF : Fld := ⟨.SB_MISSES, 48, 1⟩

/-! AV_KSLOTn: 03_anvil_and_glizo.md, Table 3-12 -/
def AV_KSLOT_KLEN : Fld := ⟨.AV_KSLOT, 0, 9⟩
def AV_KSLOT_BODY_LEN : Fld := ⟨.AV_KSLOT, 9, 8⟩
def AV_KSLOT_PRE_LEN : Fld := ⟨.AV_KSLOT, 17, 8⟩
def AV_KSLOT_STAGES_M1 : Fld := ⟨.AV_KSLOT, 25, 2⟩
def AV_KSLOT_LOADING : Fld := ⟨.AV_KSLOT, 27, 1⟩
def AV_KSLOT_EFF_II : Fld := ⟨.AV_KSLOT, 28, 9⟩
def AV_KSLOT_KCRC : Fld := ⟨.AV_KSLOT, 48, 16⟩

/-! AV_ENGn: 03_anvil_and_glizo.md, Table 3-13 -/
def AV_ENG_POWERED : Fld := ⟨.AV_ENG, 0, 1⟩
def AV_ENG_BUSY : Fld := ⟨.AV_ENG, 1, 1⟩
def AV_ENG_DRAWER : Fld := ⟨.AV_ENG, 2, 6⟩
def AV_ENG_KSLOT : Fld := ⟨.AV_ENG, 8, 4⟩
def AV_ENG_HALF_RATE : Fld := ⟨.AV_ENG, 12, 1⟩
def AV_ENG_ITER_LEFT : Fld := ⟨.AV_ENG, 16, 32⟩

/-! AV_STALLn: 03_anvil_and_glizo.md, Table 3-14 -/
def AV_STALL_STALL_CYCLES : Fld := ⟨.AV_STALL, 0, 48⟩
def AV_STALL_STALL_OVF : Fld := ⟨.AV_STALL, 48, 1⟩

/-! AV_BKT_STAT: 04_buckets_and_the_update_step.md, Table 4-12 -/
def AV_BKT_STAT_OPEN : Fld := ⟨.AV_BKT_STAT, 0, 13⟩
def AV_BKT_STAT_SPILLED : Fld := ⟨.AV_BKT_STAT, 13, 13⟩
def AV_BKT_STAT_RES_LINES : Fld := ⟨.AV_BKT_STAT, 32, 18⟩

/-! AV_BKT_SEQ: 04_buckets_and_the_update_step.md, Table 4-13 -/
def AV_BKT_SEQ_NEXT_SEQ : Fld := ⟨.AV_BKT_SEQ, 0, 32⟩

/-! AV_ACC_REFUSED: 04_buckets_and_the_update_step.md, Table 4-14 -/
def AV_ACC_REFUSED_COUNT : Fld := ⟨.AV_ACC_REFUSED, 0, 48⟩
def AV_ACC_REFUSED_OVF : Fld := ⟨.AV_ACC_REFUSED, 48, 1⟩

/-! AV_SPILL_OPS: 04_buckets_and_the_update_step.md, Table 4-15 -/
def AV_SPILL_OPS_COUNT : Fld := ⟨.AV_SPILL_OPS, 0, 48⟩
def AV_SPILL_OPS_OVF : Fld := ⟨.AV_SPILL_OPS, 48, 1⟩

/-! AV_ASSAY_STAT: 04_buckets_and_the_update_step.md, Table 4-16 -/
def AV_ASSAY_STAT_SSQ_SAT : Fld := ⟨.AV_ASSAY_STAT, 0, 1⟩
def AV_ASSAY_STAT_HIST_SAT : Fld := ⟨.AV_ASSAY_STAT, 1, 1⟩
def AV_ASSAY_STAT_CAP_SAT : Fld := ⟨.AV_ASSAY_STAT, 2, 1⟩

/-! IN_CTL: 10_integrity_and_mend.md, Table 10-15 -/
def IN_CTL_LOG_CE : Fld := ⟨.IN_CTL, 0, 1⟩
def IN_CTL_AUTO_REPAIR : Fld := ⟨.IN_CTL, 1, 1⟩
def IN_CTL_CE_ROW_LIM : Fld := ⟨.IN_CTL, 2, 8⟩
def IN_CTL_BURNISH_SHARE : Fld := ⟨.IN_CTL, 10, 6⟩

/-! IN_STAT: 10_integrity_and_mend.md, Table 10-16 -/
def IN_STAT_UE : Fld := ⟨.IN_STAT, 0, 1⟩
def IN_STAT_RETIRE : Fld := ⟨.IN_STAT, 1, 1⟩
def IN_STAT_LOST : Fld := ⟨.IN_STAT, 2, 1⟩
def IN_STAT_LOG_LOST : Fld := ⟨.IN_STAT, 3, 1⟩
def IN_STAT_HM_INT : Fld := ⟨.IN_STAT, 4, 1⟩
def IN_STAT_PAR_GAP : Fld := ⟨.IN_STAT, 5, 1⟩
def IN_STAT_REPAIR_EXHAUSTED : Fld := ⟨.IN_STAT, 6, 1⟩
def IN_STAT_BIST_FAIL : Fld := ⟨.IN_STAT, 7, 1⟩
def IN_STAT_POISON : Fld := ⟨.IN_STAT, 8, 1⟩
def IN_STAT_MISMATCH : Fld := ⟨.IN_STAT, 9, 1⟩
def IN_STAT_REBUILT : Fld := ⟨.IN_STAT, 10, 1⟩
def IN_STAT_ADMIT_FAIL : Fld := ⟨.IN_STAT, 11, 1⟩
def IN_STAT_REPAIR : Fld := ⟨.IN_STAT, 12, 1⟩

/-! IN_RETIREDk: 10_integrity_and_mend.md, Table 10-17 -/
def IN_RETIRED_SITE_LO : Fld := ⟨.IN_RETIRED, 0, 32⟩
def IN_RETIRED_SITE_HI : Fld := ⟨.IN_RETIRED, 32, 32⟩

/-! IN_LOG_PTR: 10_integrity_and_mend.md, Table 10-18 -/
def IN_LOG_PTR_HEAD : Fld := ⟨.IN_LOG_PTR, 0, 32⟩
def IN_LOG_PTR_TAIL : Fld := ⟨.IN_LOG_PTR, 32, 32⟩

/-! IN_LOG_LOST: 10_integrity_and_mend.md, Table 10-19 -/
def IN_LOG_LOST_COUNT : Fld := ⟨.IN_LOG_LOST, 0, 48⟩
def IN_LOG_LOST_OVF : Fld := ⟨.IN_LOG_LOST, 48, 1⟩

/-! IN_INTCNT: 10_integrity_and_mend.md, Table 10-20 -/
def IN_INTCNT_HM_INT : Fld := ⟨.IN_INTCNT, 0, 24⟩
def IN_INTCNT_PAR_GAP : Fld := ⟨.IN_INTCNT, 24, 24⟩
def IN_INTCNT_REPAIR_DROPPED : Fld := ⟨.IN_INTCNT, 48, 16⟩

/-! IN_MEND_STATc: 10_integrity_and_mend.md, Table 10-21 -/
def IN_MEND_STAT_OUT_SITES : Fld := ⟨.IN_MEND_STAT, 0, 8⟩
def IN_MEND_STAT_TWO_OUT : Fld := ⟨.IN_MEND_STAT, 8, 1⟩
def IN_MEND_STAT_ROWS_BUSY : Fld := ⟨.IN_MEND_STAT, 9, 6⟩
def IN_MEND_STAT_STALE_BITS : Fld := ⟨.IN_MEND_STAT, 16, 15⟩

/-! IN_LOGi: 10_integrity_and_mend.md, Table 10-22 -/
def IN_LOG_WORD : Fld := ⟨.IN_LOG, 0, 64⟩

/-! CR_CTL: 11_determinism_and_crucible.md, Table 11-12 -/
def CR_CTL_NS_EN : Fld := ⟨.CR_CTL, 0, 1⟩
def CR_CTL_SEED_REQ : Fld := ⟨.CR_CTL, 1, 1⟩
def CR_CTL_NS_RESTART : Fld := ⟨.CR_CTL, 2, 1⟩

/-! CR_NS_STAT: 11_determinism_and_crucible.md, Table 11-13 -/
def CR_NS_STAT_OSC_OK : Fld := ⟨.CR_NS_STAT, 0, 8⟩
def CR_NS_STAT_OSC_FAIL : Fld := ⟨.CR_NS_STAT, 8, 8⟩
def CR_NS_STAT_SEED_READY : Fld := ⟨.CR_NS_STAT, 16, 1⟩
def CR_NS_STAT_SEED_ERR : Fld := ⟨.CR_NS_STAT, 17, 1⟩
def CR_NS_STAT_PIPE_FAIL : Fld := ⟨.CR_NS_STAT, 18, 1⟩
def CR_NS_STAT_HEALTH_FAILS : Fld := ⟨.CR_NS_STAT, 32, 16⟩

/-! CR_NS_DATAw: 11_determinism_and_crucible.md, Table 11-14 -/
def CR_NS_DATA_SEED : Fld := ⟨.CR_NS_DATA, 0, 64⟩

/-! CR_SEEDn_w: 11_determinism_and_crucible.md, Table 11-15 -/
def CR_SEED_KEY : Fld := ⟨.CR_SEED, 0, 64⟩

/-! CR_RCTXn: 11_determinism_and_crucible.md, Table 11-16 -/
def CR_RCTX0_STREAM : Fld := ⟨.CR_RCTX0, 0, 32⟩
def CR_RCTX0_DRAW : Fld := ⟨.CR_RCTX0, 32, 32⟩

/-! CR_RCTX1: 11_determinism_and_crucible.md, Table 11-16 -/
def CR_RCTX1_INDEX_BASE : Fld := ⟨.CR_RCTX1, 0, 62⟩
def CR_RCTX1_WCODE : Fld := ⟨.CR_RCTX1, 62, 2⟩

/-! CR_SMP_STAT: 06_planisher_near_bank.md, Table 6-10 -/
def CR_SMP_STAT_IN_FLIGHT : Fld := ⟨.CR_SMP_STAT, 0, 5⟩
def CR_SMP_STAT_BUSY : Fld := ⟨.CR_SMP_STAT, 5, 1⟩
def CR_SMP_STAT_FAULT_ROWS : Fld := ⟨.CR_SMP_STAT, 16, 32⟩

/-! CR_SMP_ROWS: 06_planisher_near_bank.md, Table 6-11 -/
def CR_SMP_ROWS_COUNT : Fld := ⟨.CR_SMP_ROWS, 0, 48⟩
def CR_SMP_ROWS_OVF : Fld := ⟨.CR_SMP_ROWS, 48, 1⟩

/-! GT_TIME: 11_determinism_and_crucible.md, Table 11-6 -/
def GT_TIME_GTC : Fld := ⟨.GT_TIME, 0, 64⟩

/-! GT_CTL: 11_determinism_and_crucible.md, Table 11-7 -/
def GT_CTL_SYNC_EN : Fld := ⟨.GT_CTL, 0, 1⟩
def GT_CTL_ROOT : Fld := ⟨.GT_CTL, 1, 1⟩
def GT_CTL_ACCEPT_ALIGN : Fld := ⟨.GT_CTL, 2, 1⟩
def GT_CTL_SEND_ALIGN : Fld := ⟨.GT_CTL, 3, 1⟩
def GT_CTL_ALIGNED : Fld := ⟨.GT_CTL, 4, 1⟩

/-! GT_SYNC_DLY: 11_determinism_and_crucible.md, Table 11-8 -/
def GT_SYNC_DLY_DLY : Fld := ⟨.GT_SYNC_DLY, 0, 16⟩

/-! GT_BAR_MARGIN: 11_determinism_and_crucible.md, Table 11-9 -/
def GT_BAR_MARGIN_MARGIN : Fld := ⟨.GT_BAR_MARGIN, 0, 32⟩

/-! GT_SYNC_STAT: 11_determinism_and_crucible.md, Table 11-10 -/
def GT_SYNC_STAT_BAR_WAITING : Fld := ⟨.GT_SYNC_STAT, 0, 16⟩
def GT_SYNC_STAT_CRC_DROPS : Fld := ⟨.GT_SYNC_STAT, 16, 16⟩
def GT_SYNC_STAT_LAST_ALIGN_DELTA : Fld := ⟨.GT_SYNC_STAT, 32, 16⟩
def GT_SYNC_STAT_HOLDING : Fld := ⟨.GT_SYNC_STAT, 48, 1⟩

/-! GT_STEP: 11_determinism_and_crucible.md, Table 11-11 -/
def GT_STEP_STEP : Fld := ⟨.GT_STEP, 0, 48⟩
def GT_STEP_ADVANCE : Fld := ⟨.GT_STEP, 48, 1⟩

/-! CE_STATEn: 10_integrity_and_mend.md, Table 10-13 -/
def CE_STATE_STATE : Fld := ⟨.CE_STATE, 0, 3⟩
def CE_STATE_REBUILDING : Fld := ⟨.CE_STATE, 3, 1⟩
def CE_STATE_STALE : Fld := ⟨.CE_STATE, 4, 1⟩
def CE_STATE_REPAIR_PENDING : Fld := ⟨.CE_STATE, 5, 1⟩
def CE_STATE_AUTO_RETIRED : Fld := ⟨.CE_STATE, 6, 1⟩
def CE_STATE_BIST_FAIL : Fld := ⟨.CE_STATE, 7, 1⟩
def CE_STATE_RESETS : Fld := ⟨.CE_STATE, 8, 32⟩

/-! CE_CORRn: 10_integrity_and_mend.md, Table 10-14 -/
def CE_CORR_COUNT : Fld := ⟨.CE_CORR, 0, 48⟩
def CE_CORR_OVF : Fld := ⟨.CE_CORR, 48, 1⟩

/-! CE_UNCORR: 10_integrity_and_mend.md, Table 10-14 -/
def CE_UNCORR_COUNT : Fld := ⟨.CE_UNCORR, 0, 48⟩
def CE_UNCORR_OVF : Fld := ⟨.CE_UNCORR, 48, 1⟩

/-! CE_PL_STATn: 06_planisher_near_bank.md, Table 6-8 -/
def CE_PL_STAT_BG_MODE : Fld := ⟨.CE_PL_STAT, 0, 8⟩
def CE_PL_STAT_LIMIT : Fld := ⟨.CE_PL_STAT, 8, 2⟩
def CE_PL_STAT_WIN_ERR : Fld := ⟨.CE_PL_STAT, 10, 1⟩
def CE_PL_STAT_WIN_FAIL : Fld := ⟨.CE_PL_STAT, 11, 1⟩
def CE_PL_STAT_QUEUED : Fld := ⟨.CE_PL_STAT, 16, 16⟩

/-! CE_PL_PREEMPTn: 06_planisher_near_bank.md, Table 6-9 -/
def CE_PL_PREEMPT_COUNT : Fld := ⟨.CE_PL_PREEMPT, 0, 48⟩
def CE_PL_PREEMPT_OVF : Fld := ⟨.CE_PL_PREEMPT, 48, 1⟩

/-! SS_IDENTs: 09_stacks_regions_sideboard.md, Table 9-15 -/
def SS_IDENT_DENSITY : Fld := ⟨.SS_IDENT, 0, 8⟩
def SS_IDENT_HEIGHT : Fld := ⟨.SS_IDENT, 8, 5⟩
def SS_IDENT_SPEED : Fld := ⟨.SS_IDENT, 16, 12⟩
def SS_IDENT_EXT_LEVEL : Fld := ⟨.SS_IDENT, 28, 4⟩
def SS_IDENT_ANSWERED : Fld := ⟨.SS_IDENT, 32, 1⟩
def SS_IDENT_USED : Fld := ⟨.SS_IDENT, 33, 1⟩
def SS_IDENT_REASON : Fld := ⟨.SS_IDENT, 34, 3⟩

end F

/-- Every field of a register, in its table's order.  A field whose reset depends on the index has its value for index
0 in `Reg.resetWord`. -/
def Reg.fields : Reg → List FSpec
  | .MW_ID =>
     [⟨F.MW_ID_MINOR, .ro, 0x0, true⟩, ⟨F.MW_ID_MAJOR, .ro, 0x3, true⟩,
      ⟨F.MW_ID_NAME, .ro, 0x4D57, true⟩]
  | .MW_CONFIG =>
     [⟨F.MW_CONFIG_SITES_POPULATED, .ro, 0x0, true⟩, ⟨F.MW_CONFIG_STACK_DETECTED, .ro, 0x0, true⟩,
      ⟨F.MW_CONFIG_EXT_LEVEL, .ro, 0x0, true⟩, ⟨F.MW_CONFIG_SITE_CAP, .ro, 0x0, true⟩,
      ⟨F.MW_CONFIG_MEND_SITES, .ro, 0x0, true⟩]
  | .MW_STAT =>
     [⟨F.MW_STAT_LC_STATE, .ro, 0x0, false⟩, ⟨F.MW_STAT_CUR_OP, .ro, 0x0, false⟩,
      ⟨F.MW_STAT_STOPPED, .ro, 0x0, false⟩, ⟨F.MW_STAT_STRETCHING, .ro, 0x0, false⟩,
      ⟨F.MW_STAT_THROTTLE, .ro, 0x0, false⟩, ⟨F.MW_STAT_CH_RECOVERING, .ro, 0x0, false⟩,
      ⟨F.MW_STAT_ANY_RETIRED, .ro, 0x0, false⟩, ⟨F.MW_STAT_MEND_DEGRADED, .ro, 0x0, false⟩,
      ⟨F.MW_STAT_MEND_TWO_OUT, .ro, 0x0, false⟩, ⟨F.MW_STAT_PORT_FAULT, .ro, 0x0, false⟩,
      ⟨F.MW_STAT_LOG_PENDING, .ro, 0x0, false⟩]
  | .MW_IRQ_CAUSE =>
     [⟨F.MW_IRQ_CAUSE_DRAWER, .ro, 0x0, false⟩, ⟨F.MW_IRQ_CAUSE_EVENT, .w1c, 0x0, true⟩]
  | .MW_IRQ_MASK =>
     [⟨F.MW_IRQ_MASK_ENABLE, .rw, 0x80, true⟩]
  | .MW_IRQ_SET =>
     [⟨F.MW_IRQ_SET_SET, .wo, 0x0, false⟩]
  | .MW_IRQ_DRAWER =>
     [⟨F.MW_IRQ_DRAWER_PENDING, .w1c, 0x0, false⟩]
  | .MW_OVF_SRC =>
     [⟨F.MW_OVF_SRC_AV_STALL, .ro, 0x0, false⟩, ⟨F.MW_OVF_SRC_AV_ACC, .ro, 0x0, false⟩,
      ⟨F.MW_OVF_SRC_AV_SPILL, .ro, 0x0, false⟩, ⟨F.MW_OVF_SRC_PT_PROTO, .ro, 0x0, false⟩,
      ⟨F.MW_OVF_SRC_PT_HM, .ro, 0x0, false⟩, ⟨F.MW_OVF_SRC_PT_STARVE, .ro, 0x0, false⟩,
      ⟨F.MW_OVF_SRC_SB, .ro, 0x0, false⟩, ⟨F.MW_OVF_SRC_CE_ERR, .ro, 0x0, false⟩,
      ⟨F.MW_OVF_SRC_CE_PL, .ro, 0x0, false⟩, ⟨F.MW_OVF_SRC_CR_SMP, .ro, 0x0, false⟩,
      ⟨F.MW_OVF_SRC_IN_LOG, .ro, 0x0, false⟩, ⟨F.MW_OVF_SRC_PW_STRETCH, .ro, 0x0, false⟩,
      ⟨F.MW_OVF_SRC_LC_DROPS, .ro, 0x0, false⟩]
  | .PW_CLK_STAT =>
     [⟨F.PW_CLK_STAT_PLL_LOCK, .ro, 0x0, true⟩, ⟨F.PW_CLK_STAT_FUSE_DONE, .ro, 0x0, true⟩,
      ⟨F.PW_CLK_STAT_FUSE_BAD, .ro, 0x0, true⟩, ⟨F.PW_CLK_STAT_BOOT_OP, .ro, 0x0, true⟩,
      ⟨F.PW_CLK_STAT_CORE_DIV, .ro, 0x8, false⟩]
  | .PW_OP_CTL =>
     [⟨F.PW_OP_CTL_TARGET_OP, .rw, 0x0, false⟩, ⟨F.PW_OP_CTL_CUR_OP, .ro, 0x0, false⟩,
      ⟨F.PW_OP_CTL_BUSY, .ro, 0x0, false⟩, ⟨F.PW_OP_CTL_OP_ERR, .w1c, 0x0, false⟩,
      ⟨F.PW_OP_CTL_OP_MAX, .ro, 0x2, true⟩]
  | .PW_FUSE_OP =>
     [⟨F.PW_FUSE_OP_VNOM_MV, .ro, 0x0, true⟩, ⟨F.PW_FUSE_OP_VMIN_MV, .ro, 0x0, true⟩,
      ⟨F.PW_FUSE_OP_DROOP_TH, .ro, 0x0, true⟩, ⟨F.PW_FUSE_OP_GUARD, .ro, 0x0, true⟩]
  | .PW_DOM_STAT =>
     [⟨F.PW_DOM_STAT_ON, .ro, 0x0, true⟩, ⟨F.PW_DOM_STAT_STAGING, .ro, 0x0, true⟩,
      ⟨F.PW_DOM_STAT_HDR_FAULT, .ro, 0x0, true⟩, ⟨F.PW_DOM_STAT_STAGE_ABORTS, .ro, 0x0, false⟩,
      ⟨F.PW_DOM_STAT_SENSE_MV, .ro, 0x0, false⟩]
  | .PW_MON_STAT =>
     [⟨F.PW_MON_STAT_FAILED, .ro, 0x0, true⟩, ⟨F.PW_MON_STAT_SUSPECT, .ro, 0x0, false⟩,
      ⟨F.PW_MON_STAT_LR_FAIL, .ro, 0x0, true⟩, ⟨F.PW_MON_STAT_STRETCHING, .ro, 0x0, false⟩,
      ⟨F.PW_MON_STAT_WORST_MON, .ro, 0x0, false⟩]
  | .PW_STRETCH =>
     [⟨F.PW_STRETCH_COUNT, .ro, 0x0, false⟩, ⟨F.PW_STRETCH_OVF, .w1c, 0x0, false⟩]
  | .PW_GOV_CFG =>
     [⟨F.PW_GOV_CFG_CAP, .ro, 0x3B0, false⟩, ⟨F.PW_GOV_CFG_WINDOW, .ro, 0x64, false⟩,
      ⟨F.PW_GOV_CFG_PRIO, .ro, 0x3021, false⟩, ⟨F.PW_GOV_CFG_PL_ONE, .ro, 0x0, false⟩]
  | .PW_GOV_STAT =>
     [⟨F.PW_GOV_STAT_LVL_ACT, .ro, 0x0, false⟩, ⟨F.PW_GOV_STAT_LVL_PL, .ro, 0x0, false⟩,
      ⟨F.PW_GOV_STAT_LVL_AV, .ro, 0x0, false⟩, ⟨F.PW_GOV_STAT_LVL_PHY, .ro, 0x0, false⟩,
      ⟨F.PW_GOV_STAT_THR_BUDGET, .ro, 0x0, false⟩, ⟨F.PW_GOV_STAT_THR_THERM, .ro, 0x0, false⟩,
      ⟨F.PW_GOV_STAT_THROTTLE, .ro, 0x0, false⟩, ⟨F.PW_GOV_STAT_AT_FLOOR, .ro, 0x0, false⟩,
      ⟨F.PW_GOV_STAT_P_AVG, .ro, 0x0, false⟩, ⟨F.PW_GOV_STAT_P_LAST, .ro, 0x0, false⟩]
  | .PW_SLACK =>
     [⟨F.PW_SLACK_HEADROOM, .ro, 0x0, false⟩, ⟨F.PW_SLACK_IDLE, .ro, 0x0, false⟩]
  | .PW_THERM =>
     [⟨F.PW_THERM_TH_START, .rw, 0x58, false⟩, ⟨F.PW_THERM_TH_CRIT, .rw, 0x64, false⟩,
      ⟨F.PW_THERM_TH_STEP, .rw, 0x2, false⟩, ⟨F.PW_THERM_MAX_TEMP, .ro, 0x0, false⟩,
      ⟨F.PW_THERM_HOT_SITE, .ro, 0x0, false⟩]
  | .PW_STACK_TEMP =>
     [⟨F.PW_STACK_TEMP_TEMP_0, .ro, 0x0, false⟩, ⟨F.PW_STACK_TEMP_TEMP_1, .ro, 0x0, false⟩,
      ⟨F.PW_STACK_TEMP_TEMP_2, .ro, 0x0, false⟩, ⟨F.PW_STACK_TEMP_TEMP_3, .ro, 0x0, false⟩,
      ⟨F.PW_STACK_TEMP_TEMP_4, .ro, 0x0, false⟩, ⟨F.PW_STACK_TEMP_TEMP_5, .ro, 0x0, false⟩,
      ⟨F.PW_STACK_TEMP_TEMP_6, .ro, 0x0, false⟩, ⟨F.PW_STACK_TEMP_TEMP_7, .ro, 0x0, false⟩]
  | .PW_COOL =>
     [⟨F.PW_COOL_COOL_HOLD, .rw, 0x64, false⟩, ⟨F.PW_COOL_STOPPED, .ro, 0x0, true⟩,
      ⟨F.PW_COOL_COOLANT, .ro, 0x0, true⟩, ⟨F.PW_COOL_STOPS, .ro, 0x0, true⟩]
  | .PW_ENERGY =>
     [⟨F.PW_ENERGY_ENERGY_NJ, .ro, 0x0, true⟩]
  | .LC_STAT =>
     [⟨F.LC_STAT_STATE, .ro, 0x0, false⟩, ⟨F.LC_STAT_START_CAUSE, .ro, 0x0, false⟩,
      ⟨F.LC_STAT_HOLD_CAUSE, .ro, 0x0, false⟩, ⟨F.LC_STAT_WAIT_COOL, .ro, 0x0, false⟩,
      ⟨F.LC_STAT_WAIT_PF, .ro, 0x0, false⟩, ⟨F.LC_STAT_ELAPSED_MS, .ro, 0x0, false⟩]
  | .LC_CTL =>
     [⟨F.LC_CTL_BUREAU_SYNC, .wo, 0x0, false⟩]
  | .LC_RELEASE =>
     [⟨F.LC_RELEASE_RELEASE_GTC, .ro, 0x0, false⟩]
  | .LC_DROPS =>
     [⟨F.LC_DROPS_COUNT, .ro, 0x0, true⟩, ⟨F.LC_DROPS_OVF, .w1c, 0x0, true⟩]
  | .LC_BUREAU =>
     [⟨F.LC_BUREAU_CUR_BANK, .ro, 0x0, true⟩, ⟨F.LC_BUREAU_PREPARED, .ro, 0x0, true⟩,
      ⟨F.LC_BUREAU_WRITING, .ro, 0x0, true⟩, ⟨F.LC_BUREAU_ABSENT, .ro, 0x0, true⟩,
      ⟨F.LC_BUREAU_EMPTY, .ro, 0x0, true⟩, ⟨F.LC_BUREAU_ODD, .ro, 0x0, true⟩,
      ⟨F.LC_BUREAU_WRITE_ERR, .w1c, 0x0, false⟩, ⟨F.LC_BUREAU_SLOW_FLASH, .ro, 0x0, true⟩,
      ⟨F.LC_BUREAU_PF_WRITTEN, .ro, 0x0, true⟩, ⟨F.LC_BUREAU_PF_SKIPPED, .w1c, 0x0, true⟩,
      ⟨F.LC_BUREAU_SEQ, .ro, 0x0, true⟩]
  | .LC_LAST_SHUT =>
     [⟨F.LC_LAST_SHUT_SHUT_STEP, .ro, 0x0, true⟩, ⟨F.LC_LAST_SHUT_SHUT_VALID, .ro, 0x0, true⟩]
  | .PT_CTL =>
     [⟨F.PT_CTL_PORT_RESET, .wo, 0x0, false⟩, ⟨F.PT_CTL_RSP_TMO_LOG2, .rw, 0x14, false⟩]
  | .PT_CRED =>
     [⟨F.PT_CRED_TC0_HDR, .rw, 0x80, false⟩, ⟨F.PT_CRED_TC0_SECT, .rw, 0x200, false⟩]
  | .PT_STAT =>
     [⟨F.PT_STAT_RELEASED, .ro, 0x0, false⟩, ⟨F.PT_STAT_FAULT, .ro, 0x0, false⟩,
      ⟨F.PT_STAT_RESETTING, .ro, 0x0, false⟩, ⟨F.PT_STAT_TAGS_BUSY, .ro, 0x0, false⟩,
      ⟨F.PT_STAT_OUT_BUSY, .ro, 0x0, false⟩, ⟨F.PT_STAT_OUT_SECT, .ro, 0x0, false⟩,
      ⟨F.PT_STAT_OUT_HDR, .ro, 0x0, false⟩]
  | .PT_FLAGS =>
     [⟨F.PT_FLAGS_HCRC_ERR, .w1c, 0x0, false⟩, ⟨F.PT_FLAGS_NO_CREDIT, .w1c, 0x0, false⟩,
      ⟨F.PT_FLAGS_TAG_DUP, .w1c, 0x0, false⟩, ⟨F.PT_FLAGS_BAD_TYPE, .w1c, 0x0, false⟩,
      ⟨F.PT_FLAGS_HM_IN, .w1c, 0x0, false⟩, ⟨F.PT_FLAGS_HM_OUT, .w1c, 0x0, false⟩,
      ⟨F.PT_FLAGS_RSP_TMO, .w1c, 0x0, false⟩]
  | .PT_PROTO =>
     [⟨F.PT_PROTO_COUNT, .ro, 0x0, false⟩, ⟨F.PT_PROTO_OVF, .w1c, 0x0, false⟩]
  | .PT_HM =>
     [⟨F.PT_HM_COUNT, .ro, 0x0, false⟩, ⟨F.PT_HM_OVF, .w1c, 0x0, false⟩]
  | .PT_STARVE =>
     [⟨F.PT_STARVE_COUNT, .ro, 0x0, false⟩, ⟨F.PT_STARVE_OVF, .w1c, 0x0, false⟩]
  | .PT_MGT_ID =>
     [⟨F.PT_MGT_ID_BLOCK_ID, .ro, 0x0, true⟩, ⟨F.PT_MGT_ID_ASSIGNED, .ro, 0x0, true⟩,
      ⟨F.PT_MGT_ID_DN_PRESENT, .ro, 0x0, true⟩]
  | .PT_MGT_STAT =>
     [⟨F.PT_MGT_STAT_CRC_DROPS, .ro, 0x0, false⟩, ⟨F.PT_MGT_STAT_BAD_BID, .ro, 0x0, false⟩]
  | .PA_CFG =>
     [⟨F.PA_CFG_ENABLE, .ro, 0x0, true⟩, ⟨F.PA_CFG_TC0_EN, .ro, 0x0, true⟩,
      ⟨F.PA_CFG_STEER, .ro, 0x0, true⟩, ⟨F.PA_CFG_ACT_FIXED, .ro, 0x0, true⟩,
      ⟨F.PA_CFG_KGRANT, .ro, 0x0, true⟩, ⟨F.PA_CFG_BKT_QUOTA, .ro, 0x0, true⟩,
      ⟨F.PA_CFG_TC1_WEIGHT, .ro, 0x1, true⟩]
  | .PA_PORTS =>
     [⟨F.PA_PORTS_PORT_MASK, .ro, 0x0, true⟩]
  | .PA_REG =>
     [⟨F.PA_REG_RATE, .ro, 0x0, true⟩, ⟨F.PA_REG_BURST, .ro, 0x0, true⟩]
  | .PA_TOKENS =>
     [⟨F.PA_TOKENS_TOKENS, .ro, 0x0, true⟩, ⟨F.PA_TOKENS_HELD, .ro, 0x0, true⟩]
  | .DR_SQ_BASE =>
     [⟨F.DR_SQ_BASE_SQ_LOG2, .rw, 0x0, true⟩, ⟨F.DR_SQ_BASE_SQ_BASE, .rw, 0x0, true⟩]
  | .DR_CQ_BASE =>
     [⟨F.DR_CQ_BASE_CQ_LOG2, .rw, 0x0, true⟩, ⟨F.DR_CQ_BASE_CQ_BASE, .rw, 0x0, true⟩]
  | .DR_CTL =>
     [⟨F.DR_CTL_ENABLE, .rw, 0x0, false⟩, ⟨F.DR_CTL_IRQ_EN, .rw, 0x0, false⟩,
      ⟨F.DR_CTL_CFG_ERR, .w1c, 0x0, false⟩]
  | .DR_DB =>
     [⟨F.DR_DB_SQ_TAIL, .rw, 0x0, false⟩, ⟨F.DR_DB_SQ_TAIL_PHASE, .rw, 0x0, false⟩,
      ⟨F.DR_DB_CQ_HEAD, .rw, 0x0, false⟩, ⟨F.DR_DB_CQ_HEAD_PHASE, .rw, 0x0, false⟩]
  | .DR_STAT =>
     [⟨F.DR_STAT_SQ_HEAD, .ro, 0x0, false⟩, ⟨F.DR_STAT_SQ_HEAD_PHASE, .ro, 0x0, false⟩,
      ⟨F.DR_STAT_CQ_TAIL, .ro, 0x0, false⟩, ⟨F.DR_STAT_CQ_TAIL_PHASE, .ro, 0x0, false⟩,
      ⟨F.DR_STAT_STARTED, .ro, 0x0, false⟩, ⟨F.DR_STAT_GATED, .ro, 0x0, false⟩,
      ⟨F.DR_STAT_RING_LOST, .ro, 0x0, false⟩, ⟨F.DR_STAT_IDLE, .ro, 0x1, false⟩]
  | .DR_ERR =>
     [⟨F.DR_ERR_DOOR_ERR, .ro, 0x0, false⟩, ⟨F.DR_ERR_FETCH_FAULT, .w1c, 0x0, false⟩,
      ⟨F.DR_ERR_CQ_FAULT, .w1c, 0x0, false⟩]
  | .DR_FW =>
     [⟨F.DR_FW_FW_VERSION, .ro, 0x300, true⟩, ⟨F.DR_FW_ROM_CRC, .ro, 0x6E21, true⟩]
  | .RG_GRAN =>
     [⟨F.RG_GRAN_CLASS, .ro, 0x1, true⟩, ⟨F.RG_GRAN_OWNER, .ro, 0x0, true⟩,
      ⟨F.RG_GRAN_VALID, .ro, 0x0, true⟩, ⟨F.RG_GRAN_TIER, .ro, 0x0, true⟩,
      ⟨F.RG_GRAN_LOST, .w1c, 0x0, true⟩, ⟨F.RG_GRAN_BUSY, .ro, 0x0, false⟩]
  | .SB_CTL =>
     [⟨F.SB_CTL_RES_WAYS, .rw, 0x8, true⟩, ⟨F.SB_CTL_FLUSH, .wo, 0x0, false⟩]
  | .SB_STAT =>
     [⟨F.SB_STAT_RES_FREE_MIN, .ro, 0x0, false⟩, ⟨F.SB_STAT_RES_FREE_SLICE, .ro, 0x0, false⟩,
      ⟨F.SB_STAT_FLUSHING, .ro, 0x0, false⟩, ⟨F.SB_STAT_RES_CHANGING, .ro, 0x0, false⟩]
  | .SB_HITS =>
     [⟨F.SB_HITS_COUNT, .ro, 0x0, false⟩, ⟨F.SB_HITS_OVF, .w1c, 0x0, false⟩]
  | .SB_MISSES =>
     [⟨F.SB_MISSES_COUNT, .ro, 0x0, false⟩, ⟨F.SB_MISSES_OVF, .w1c, 0x0, false⟩]
  | .AV_KSLOT =>
     [⟨F.AV_KSLOT_KLEN, .ro, 0x0, false⟩, ⟨F.AV_KSLOT_BODY_LEN, .ro, 0x0, false⟩,
      ⟨F.AV_KSLOT_PRE_LEN, .ro, 0x0, false⟩, ⟨F.AV_KSLOT_STAGES_M1, .ro, 0x0, false⟩,
      ⟨F.AV_KSLOT_LOADING, .ro, 0x0, false⟩, ⟨F.AV_KSLOT_EFF_II, .ro, 0x0, false⟩,
      ⟨F.AV_KSLOT_KCRC, .ro, 0x0, false⟩]
  | .AV_ENG =>
     [⟨F.AV_ENG_POWERED, .ro, 0x0, true⟩, ⟨F.AV_ENG_BUSY, .ro, 0x0, false⟩,
      ⟨F.AV_ENG_DRAWER, .ro, 0x0, false⟩, ⟨F.AV_ENG_KSLOT, .ro, 0x0, false⟩,
      ⟨F.AV_ENG_HALF_RATE, .ro, 0x0, false⟩, ⟨F.AV_ENG_ITER_LEFT, .ro, 0x0, false⟩]
  | .AV_STALL =>
     [⟨F.AV_STALL_STALL_CYCLES, .ro, 0x0, false⟩, ⟨F.AV_STALL_STALL_OVF, .w1c, 0x0, false⟩]
  | .AV_BKT_STAT =>
     [⟨F.AV_BKT_STAT_OPEN, .ro, 0x0, false⟩, ⟨F.AV_BKT_STAT_SPILLED, .ro, 0x0, false⟩,
      ⟨F.AV_BKT_STAT_RES_LINES, .ro, 0x0, false⟩]
  | .AV_BKT_SEQ =>
     [⟨F.AV_BKT_SEQ_NEXT_SEQ, .ro, 0x0, true⟩]
  | .AV_ACC_REFUSED =>
     [⟨F.AV_ACC_REFUSED_COUNT, .ro, 0x0, false⟩, ⟨F.AV_ACC_REFUSED_OVF, .w1c, 0x0, false⟩]
  | .AV_SPILL_OPS =>
     [⟨F.AV_SPILL_OPS_COUNT, .ro, 0x0, false⟩, ⟨F.AV_SPILL_OPS_OVF, .w1c, 0x0, false⟩]
  | .AV_ASSAY_STAT =>
     [⟨F.AV_ASSAY_STAT_SSQ_SAT, .w1c, 0x0, false⟩, ⟨F.AV_ASSAY_STAT_HIST_SAT, .w1c, 0x0, false⟩,
      ⟨F.AV_ASSAY_STAT_CAP_SAT, .w1c, 0x0, false⟩]
  | .IN_CTL =>
     [⟨F.IN_CTL_LOG_CE, .rw, 0x1, false⟩, ⟨F.IN_CTL_AUTO_REPAIR, .rw, 0x1, true⟩,
      ⟨F.IN_CTL_CE_ROW_LIM, .rw, 0x10, false⟩, ⟨F.IN_CTL_BURNISH_SHARE, .rw, 0x4, false⟩]
  | .IN_STAT =>
     [⟨F.IN_STAT_UE, .w1c, 0x0, false⟩, ⟨F.IN_STAT_RETIRE, .w1c, 0x0, false⟩,
      ⟨F.IN_STAT_LOST, .w1c, 0x0, false⟩, ⟨F.IN_STAT_LOG_LOST, .w1c, 0x0, false⟩,
      ⟨F.IN_STAT_HM_INT, .w1c, 0x0, false⟩, ⟨F.IN_STAT_PAR_GAP, .w1c, 0x0, false⟩,
      ⟨F.IN_STAT_REPAIR_EXHAUSTED, .w1c, 0x0, false⟩, ⟨F.IN_STAT_BIST_FAIL, .w1c, 0x0, false⟩,
      ⟨F.IN_STAT_POISON, .w1c, 0x0, false⟩, ⟨F.IN_STAT_MISMATCH, .w1c, 0x0, false⟩,
      ⟨F.IN_STAT_REBUILT, .w1c, 0x0, false⟩, ⟨F.IN_STAT_ADMIT_FAIL, .w1c, 0x0, false⟩,
      ⟨F.IN_STAT_REPAIR, .w1c, 0x0, false⟩]
  | .IN_RETIRED =>
     [⟨F.IN_RETIRED_SITE_LO, .ro, 0x0, true⟩, ⟨F.IN_RETIRED_SITE_HI, .ro, 0x0, true⟩]
  | .IN_LOG_PTR =>
     [⟨F.IN_LOG_PTR_HEAD, .ro, 0x0, true⟩, ⟨F.IN_LOG_PTR_TAIL, .rw, 0x0, true⟩]
  | .IN_LOG_LOST =>
     [⟨F.IN_LOG_LOST_COUNT, .ro, 0x0, false⟩, ⟨F.IN_LOG_LOST_OVF, .w1c, 0x0, false⟩]
  | .IN_INTCNT =>
     [⟨F.IN_INTCNT_HM_INT, .ro, 0x0, false⟩, ⟨F.IN_INTCNT_PAR_GAP, .ro, 0x0, false⟩,
      ⟨F.IN_INTCNT_REPAIR_DROPPED, .ro, 0x0, false⟩]
  | .IN_MEND_STAT =>
     [⟨F.IN_MEND_STAT_OUT_SITES, .ro, 0x0, true⟩, ⟨F.IN_MEND_STAT_TWO_OUT, .ro, 0x0, true⟩,
      ⟨F.IN_MEND_STAT_ROWS_BUSY, .ro, 0x0, false⟩, ⟨F.IN_MEND_STAT_STALE_BITS, .ro, 0x0, true⟩]
  | .IN_LOG =>
     [⟨F.IN_LOG_WORD, .ro, 0x0, true⟩]
  | .CR_CTL =>
     [⟨F.CR_CTL_NS_EN, .rw, 0x1, false⟩, ⟨F.CR_CTL_SEED_REQ, .wo, 0x0, false⟩,
      ⟨F.CR_CTL_NS_RESTART, .wo, 0x0, false⟩]
  | .CR_NS_STAT =>
     [⟨F.CR_NS_STAT_OSC_OK, .ro, 0x0, false⟩, ⟨F.CR_NS_STAT_OSC_FAIL, .ro, 0x0, false⟩,
      ⟨F.CR_NS_STAT_SEED_READY, .ro, 0x0, false⟩, ⟨F.CR_NS_STAT_SEED_ERR, .w1c, 0x0, false⟩,
      ⟨F.CR_NS_STAT_PIPE_FAIL, .ro, 0x0, true⟩, ⟨F.CR_NS_STAT_HEALTH_FAILS, .ro, 0x0, false⟩]
  | .CR_NS_DATA =>
     [⟨F.CR_NS_DATA_SEED, .ro, 0x0, false⟩]
  | .CR_SEED =>
     [⟨F.CR_SEED_KEY, .rw, 0x0, true⟩]
  | .CR_RCTX0 =>
     [⟨F.CR_RCTX0_STREAM, .rw, 0x0, false⟩, ⟨F.CR_RCTX0_DRAW, .rw, 0x0, false⟩]
  | .CR_RCTX1 =>
     [⟨F.CR_RCTX1_INDEX_BASE, .rw, 0x0, false⟩, ⟨F.CR_RCTX1_WCODE, .rw, 0x0, false⟩]
  | .CR_SMP_STAT =>
     [⟨F.CR_SMP_STAT_IN_FLIGHT, .ro, 0x0, false⟩, ⟨F.CR_SMP_STAT_BUSY, .ro, 0x0, false⟩,
      ⟨F.CR_SMP_STAT_FAULT_ROWS, .ro, 0x0, false⟩]
  | .CR_SMP_ROWS =>
     [⟨F.CR_SMP_ROWS_COUNT, .ro, 0x0, false⟩, ⟨F.CR_SMP_ROWS_OVF, .w1c, 0x0, false⟩]
  | .GT_TIME =>
     [⟨F.GT_TIME_GTC, .ro, 0x0, true⟩]
  | .GT_CTL =>
     [⟨F.GT_CTL_SYNC_EN, .rw, 0x0, true⟩, ⟨F.GT_CTL_ROOT, .rw, 0x0, true⟩,
      ⟨F.GT_CTL_ACCEPT_ALIGN, .rw, 0x0, true⟩, ⟨F.GT_CTL_SEND_ALIGN, .wo, 0x0, false⟩,
      ⟨F.GT_CTL_ALIGNED, .ro, 0x0, true⟩]
  | .GT_SYNC_DLY =>
     [⟨F.GT_SYNC_DLY_DLY, .rw, 0x0, true⟩]
  | .GT_BAR_MARGIN =>
     [⟨F.GT_BAR_MARGIN_MARGIN, .rw, 0x1000, false⟩]
  | .GT_SYNC_STAT =>
     [⟨F.GT_SYNC_STAT_BAR_WAITING, .ro, 0x0, false⟩, ⟨F.GT_SYNC_STAT_CRC_DROPS, .ro, 0x0, false⟩,
      ⟨F.GT_SYNC_STAT_LAST_ALIGN_DELTA, .ro, 0x0, false⟩, ⟨F.GT_SYNC_STAT_HOLDING, .ro, 0x0, true⟩]
  | .GT_STEP =>
     [⟨F.GT_STEP_STEP, .rw, 0x0, true⟩, ⟨F.GT_STEP_ADVANCE, .wo, 0x0, false⟩]
  | .CE_STATE =>
     [⟨F.CE_STATE_STATE, .ro, 0x4, true⟩, ⟨F.CE_STATE_REBUILDING, .ro, 0x0, false⟩,
      ⟨F.CE_STATE_STALE, .ro, 0x0, true⟩, ⟨F.CE_STATE_REPAIR_PENDING, .ro, 0x0, false⟩,
      ⟨F.CE_STATE_AUTO_RETIRED, .ro, 0x0, false⟩, ⟨F.CE_STATE_BIST_FAIL, .ro, 0x0, false⟩,
      ⟨F.CE_STATE_RESETS, .ro, 0x0, true⟩]
  | .CE_CORR =>
     [⟨F.CE_CORR_COUNT, .ro, 0x0, false⟩, ⟨F.CE_CORR_OVF, .w1c, 0x0, false⟩]
  | .CE_UNCORR =>
     [⟨F.CE_UNCORR_COUNT, .ro, 0x0, false⟩, ⟨F.CE_UNCORR_OVF, .w1c, 0x0, false⟩]
  | .CE_PL_STAT =>
     [⟨F.CE_PL_STAT_BG_MODE, .ro, 0x0, false⟩, ⟨F.CE_PL_STAT_LIMIT, .ro, 0x2, false⟩,
      ⟨F.CE_PL_STAT_WIN_ERR, .w1c, 0x0, false⟩, ⟨F.CE_PL_STAT_WIN_FAIL, .w1c, 0x0, false⟩,
      ⟨F.CE_PL_STAT_QUEUED, .ro, 0x0, false⟩]
  | .CE_PL_PREEMPT =>
     [⟨F.CE_PL_PREEMPT_COUNT, .ro, 0x0, false⟩, ⟨F.CE_PL_PREEMPT_OVF, .w1c, 0x0, false⟩]
  | .SS_IDENT =>
     [⟨F.SS_IDENT_DENSITY, .ro, 0x0, true⟩, ⟨F.SS_IDENT_HEIGHT, .ro, 0x0, true⟩,
      ⟨F.SS_IDENT_SPEED, .ro, 0x0, true⟩, ⟨F.SS_IDENT_EXT_LEVEL, .ro, 0x0, true⟩,
      ⟨F.SS_IDENT_ANSWERED, .ro, 0x0, true⟩, ⟨F.SS_IDENT_USED, .ro, 0x0, true⟩,
      ⟨F.SS_IDENT_REASON, .ro, 0x0, true⟩]

/-- The value of a register after PORST_N (the Reset columns; partition 0 differs, Tables 9-11 and 9-12). -/
def Reg.resetWord (r : Reg) (i : Nat) : Word :=
  match r with
  | .PA_CFG => if i = 0 then 0x0000_0003_000F_FFF1#64 else 0x0000_0002_0000_0000#64
  | .PA_PORTS => if i = 0 then 0x0000_0000_FFFF_FFFF#64 else 0#64
  | .MW_ID => 0x4D570300#64
  | .MW_IRQ_MASK => 0x80#64
  | .PW_CLK_STAT => 0x100#64
  | .PW_OP_CTL => 0x80#64
  | .PW_GOV_CFG => 0x3021006403B0#64
  | .PW_THERM => 0x26458#64
  | .PW_COOL => 0x64#64
  | .PT_CTL => 0x28#64
  | .PT_CRED => 0x40080#64
  | .DR_STAT => 0x80000000000000#64
  | .DR_FW => 0x6E210300#64
  | .RG_GRAN => 0x1#64
  | .SB_CTL => 0x8#64
  | .IN_CTL => 0x1043#64
  | .CR_CTL => 0x1#64
  | .GT_BAR_MARGIN => 0x1000#64
  | .CE_STATE => 0x4#64
  | .CE_PL_STAT => 0x200#64
  | _ => 0#64

/-- What a register reads that nothing has written: its reset value, by CSR offset. -/
def Reg.resetAt (o : Nat) : Word :=
  match Reg.ofOffset o with
  | some (r, i) => r.resetWord i
  | none => 0

end Sys2Proof
end

