-- ==== Sys2Proof/Machine/Tab.lean ====
section
/-!
DEFINITION. Reading and writing a sparse table.  What an unlisted index reads as is a function `d` of the index,
given with each use.
-/

namespace Sys2Proof.Tab

variable {α : Type}

/-- The value at index `i`: the listed one, or what an unlisted index reads as. -/
def get (d : Nat → α) : Tab α → Nat → α
  | [], i => d i
  | (j, v) :: t, i => if i = j then v else get d t i

/-- The table without index `i`. -/
def erase (t : Tab α) (i : Nat) : Tab α := t.filter fun e => e.1 ≠ i

/-- The table with `(i, v)` in its place in the order. -/
def insert : Tab α → Nat → α → Tab α
  | [], i, v => [(i, v)]
  | (j, w) :: t, i, v =>
    if i = j then (i, v) :: t else if i < j then (i, v) :: (j, w) :: t else (j, w) :: insert t i v

/-- Write `v` at index `i`, keeping the canonical form: a value equal to the unlisted one removes the entry. -/
def set [DecidableEq α] (d : Nat → α) (t : Tab α) (i : Nat) (v : α) : Tab α :=
  if v = d i then erase t i else insert t i v

/-- Every listed index is at least `lo`, the indexes rise strictly, and no entry equals what an unlisted index
reads as. -/
def wfFrom [DecidableEq α] (d : Nat → α) : Nat → Tab α → Bool
  | _, [] => true
  | lo, (i, v) :: t => decide (lo ≤ i) && decide (v ≠ d i) && wfFrom d (i + 1) t

/-- The canonical form of a sparse table. -/
def wf [DecidableEq α] (d : Nat → α) (t : Tab α) : Bool := wfFrom d 0 t

/-- The listed indexes. -/
def keys (t : Tab α) : List Nat := t.map Prod.fst

/-- Change the value at index `i` by `f`. -/
def modify [DecidableEq α] (d : Nat → α) (t : Tab α) (i : Nat) (f : α → α) : Tab α :=
  set d t i (f (get d t i))

/-- Drop every entry whose index fails `p`. -/
def restrict (p : Nat → Bool) (t : Tab α) : Tab α := t.filter fun e => p e.1

/-- Write consecutive values from index `i` on. -/
def setMany [DecidableEq α] (d : Nat → α) : Tab α → Nat → List α → Tab α
  | t, _, [] => t
  | t, i, v :: vs => setMany d (set d t i v) (i + 1) vs

end Sys2Proof.Tab
end

