-- ==== Sys2Proof/Machine/State.lean ====
section
/-!
DEFINITION. The state of the block: every register, and behind the registers every buffer, queue, memory and
progress the spec names (INVENTORY.md, `## State`).  All of it is plain data.
-/

namespace Sys2Proof.Machine

/-- Stops of a step.  The spec gives every command an effect, so no command ends in a fault. -/
inductive Fault
  /-- Raised by nobody; a step that could not be computed would stop here.  Safe: the machine stops where the
  hardware would go on. -/
  | none
  deriving DecidableEq, Repr

/-- Commands without a meaning. -/
inductive Refusal
  /-- Raised by `exec` for a command whose meaning is not written.  Safe: the machine stops. -/
  | notModelled (mnemonic : String)
  deriving DecidableEq, Repr

/-! ## Sectors, lines and channels (09, 10) -/

/-- A sector inside the block: its bytes, its Hallmark and its FAULT flag (R14, R233). -/
structure Sec where
  data : SectorBits
  hm : BitVec 16
  fault : Bool
  deriving DecidableEq, Repr

/-- A sector of a Sideboard line or of a write-back store, with its dirty bit (R221). -/
structure Held where
  sec : Sec
  dirty : Bool
  deriving DecidableEq, Repr

/-- A Sideboard line of 512 B (R220): `unit` is four times the burst position plus the quarter of the burst; the
sectors are numbered 0 to 7, absent ones not valid. -/
structure Line where
  unit : Nat
  secs : Tab (Option Held)
  deriving DecidableEq, Repr

/-- A slice: its lines, most recently used first, its write-back store by sector number, and the whole-sector writes
of the block's own units that it holds for want of a clean way, oldest first (R223). -/
structure Slice where
  lines : List Line
  store : Tab (Option Sec)
  late : List (Nat × Sec)
  deriving DecidableEq, Repr

/-- What an accepted port request is, once past the port's checks. -/
inductive ReqKind | rd | wr | wrFinal | acc | atom
  deriving DecidableEq, Repr

/-- An accepted port request that is not answered yet. -/
structure Req where
  port : Nat
  /-- order of acceptance -/
  seq : Nat
  kind : ReqKind
  r : PortReq
  /-- its sector credits wait with it (R223) -/
  credit : Bool
  /-- a word of it was judged uncorrectable, and its reconstruction waits for a peer (R245) -/
  ue : Bool
  deriving DecidableEq, Repr

/-- A descriptor of the retry buffer (R241): the request and the sectors it waits for, numbered 32 × m + s. -/
structure Desc where
  req : Req
  secs : List Nat
  deriving DecidableEq, Repr

/-- Why an accepted request is held. -/
inductive Why
  /-- a WR_FINAL, until the earlier writes of its group have landed (R176) -/
  | final
  /-- behind an earlier request of its port and class that has a sector in common (R176, R190) -/
  | behind
  /-- for room in the retry buffer of its channel (R241) -/
  | buffer
  /-- for a clean way or room in the write-back store (R223) -/
  | cleanWay
  /-- for the record of a command that holds its range (R16) -/
  | range
  /-- for a REGION_SET (R131) -/
  | region
  deriving DecidableEq, Repr

/-- A held request. -/
structure Wait where
  req : Req
  why : Why
  deriving DecidableEq, Repr

/-- One class's log limiter on a channel (R263): when it last logged, and the events not logged since. -/
structure Limiter where
  last : Option Nat
  merged : Nat
  deriving DecidableEq, Repr

/-- A corrected sector to write back (R232): its number, its value, and the partition of its reader (R261, R305). -/
structure WBack where
  k : Nat
  data : SectorBits
  part : Option Nat
  deriving DecidableEq, Repr

/-- A channel engine, beside its registers. -/
structure Chan where
  retry : List Desc
  /-- tick at which its reset was detected; stopped time is not counted (R243, R307) -/
  resetAt : Option Nat
  stoppedTicks : Nat
  /-- the sector whose uncorrectable verdict caused the reset -/
  cause : Option Nat
  /-- the admission was started by a CHANNEL_ADMIT: Drawer and position -/
  admitBy : Option (Nat × Nat)
  selfRefresh : Bool
  /-- limiters of CE, POISON and REBUILT, by class code -/
  limits : Tab Limiter
  /-- corrections of each row since power-up (R254) -/
  rowCorr : Tab Nat
  /-- rows queued for repair (R254) -/
  repairs : List Nat
  /-- corrected sectors to write back (R232) -/
  wback : List WBack
  /-- order in which bank groups entered Planisher mode (R150) -/
  plOrder : List Nat
  /-- bank groups that left it under R149 or R150 with work to go on, oldest first -/
  plBack : List Nat
  /-- TC1 services left to each partition in the round that runs (R179) -/
  turns : Tab Nat
  deriving DecidableEq, Repr

/-- A stripe row in a Mend unit's row buffer (R244): its position and the data sectors that have arrived, numbered
32 × member + sector. -/
structure MendRow where
  /-- the partition of the command that sent it (Table 12-5) -/
  part : Nat
  m : Nat
  secs : Tab (Option Sec)
  deriving DecidableEq, Repr

/-- A Mend unit (R244 to R248). -/
structure Mend where
  rows : List MendRow
  /-- stale maps: the site that holds one, and its set bits -/
  maps : List (Nat × Tab Bool)
  /-- sites whose member is wholly stale -/
  wholly : List Nat
  /-- lost rows: position and the sites whose member is missing -/
  lost : Tab (List Nat)
  deriving DecidableEq, Repr

/-- Sectors `[lo, hi)` of the block of which an unlisted byte does not read 0: poisoned ones (R231, R251), or, after a
writing TINKER pattern (R258), open ones, with the number of their free value. -/
structure Ground where
  lo : Nat
  hi : Nat
  open_ : Option Nat
  deriving DecidableEq, Repr

/-- A gap flip that is still to come, on channel engine `n`. -/
structure Upset where
  n : Nat
  f : GapFlip
  deriving DecidableEq, Repr

/-- Memory and what stands before it. -/
structure Mem where
  /-- DRAM data bytes at ((n × 2^21 + m) × 32 + sector) × 64 + byte -/
  dram : List Host.Cell
  /-- check bytes at ((n × 2^21 + m) × 32 + sector) × 8 + word -/
  chk : List Host.Cell
  ground : List Ground
  slices : Tab Slice
  chans : Tab Chan
  mends : Tab Mend
  /-- granules that hold data, for LOST (R250) -/
  touched : Tab Bool
  upsets : List Upset
  deriving DecidableEq, Repr

/-! ## Ports (07) -/

/-- A block write waiting to be sent (R177). -/
structure OutWrite where
  drawer : Nat
  pos : Nat
  part : Nat
  og : Nat
  addr : Nat
  final : Bool
  secs : List Sec
  deriving DecidableEq, Repr

/-- A block tag in use. -/
structure BlockTag where
  drawer : Nat
  pos : Nat
  final : Bool
  /-- core cycle in which it was sent -/
  sent : Nat
  abandoned : Bool
  deriving DecidableEq, Repr

/-- A credit account or pool: header and sector credits. -/
structure Credits where
  hdr : Nat
  sect : Nat
  deriving DecidableEq, Repr

/-- An account (R170): the credits the partner holds, and the credits given to the account, in use or not. -/
structure Account where
  held : Credits
  alloc : Credits
  deriving DecidableEq, Repr

/-- A credit return that is held back (R171). -/
structure HeldReturn where
  part : Nat
  tc : Nat
  c : Credits
  deriving DecidableEq, Repr

/-- A port beside its registers. -/
structure Port where
  /-- partner tags in use -/
  tags : Tab Bool
  /-- by account 2 × partition + class -/
  accounts : Tab Account
  /-- the sizes of the two pools, taken at release and at PORT_RESET, and the credits kept in them -/
  sizes : Tab Credits
  pools : Tab Credits
  btags : Tab (Option BlockTag)
  outq : List OutWrite
  starve0 : Bool
  starve1 : Bool
  returns : List HeldReturn
  deriving DecidableEq, Repr

/-- All ports, the held requests in order of acceptance, and the partitions' traffic. -/
structure Ports where
  port : Tab Port
  waits : List Wait
  nextSeq : Nat
  /-- regulator tokens in 1/16 B (R224) -/
  tokens : Tab Int
  bytesIn : Tab Nat
  bytesOut : Tab Nat
  stalls : Tab Nat
  deriving DecidableEq, Repr

/-! ## Drawers, buckets, Chests (04, 05) -/

/-- How far a started command is. -/
inductive Phase
  /-- started, its own checks not made -/
  | started
  /-- armed behind a LAUNCH_AT: checked and held ready (R129) -/
  | armed
  /-- checked; its first action is due (R129) -/
  | checked
  /-- checked; its work is under way -/
  | running
  /-- its work has ended; its record is not written -/
  | done
  deriving DecidableEq, Repr

/-- A range of port addresses that a command holds (R16). -/
structure Range where
  lo : Nat
  len : Nat
  deriving DecidableEq, Repr

/-- A started command. -/
structure Cmd where
  /-- its submission position, on from 2^17 × `epoch` of its Drawer -/
  pos : Nat
  words : List Word
  phase : Phase
  status : Status
  detail : Nat
  result : Nat
  late : Bool
  /-- order of start over all Drawers -/
  order : Nat
  /-- the seed it took at its start (R271) -/
  seed : BitVec 256
  /-- an armed close (R93), which does not count toward the limit of 8 -/
  armedClose : Bool
  /-- the ring entry read as lost (R123): opcode and label read 0 -/
  lostEntry : Bool
  holds : List Range
  /-- the first bad status a port answered one of its block writes with (R177) -/
  portStatus : Option Status
  /-- the worst status of its reads of lists, descriptors, scalar sets, bags and images (R126) -/
  soft : Status
  /-- PA_CFG of its partition when it started (Table 5-5, PARTITION_SET) -/
  grants : Word
  /-- the channel that a TINKER names was retired when it started (R134, R258) -/
  gone : Bool
  /-- its ring was lost before it completed: its record is lost too (R134) -/
  lostRing : Bool
  /-- the channels in whose Planisher queues it waits (R121, Table 6-8) -/
  queuedOn : List Nat
  deriving DecidableEq, Repr

/-- A closed LAUNCH_AT gate, or an open one with an armed command that has not acted yet (R129). -/
structure Launch where
  pos : Nat
  t : Nat
  arm : Bool
  /-- T had passed at the start, or when a jump of GTC opened the gate (R129, R284) -/
  late : Bool
  /-- GTC and CKCORE cycle in which the gate opened -/
  opened : Option Nat
  openCycle : Nat
  /-- tick in which it opened -/
  openTick : Nat
  armed : Option Nat
  deriving DecidableEq, Repr

/-- A waiting BARRIER (R130). -/
structure Barrier where
  pos : Nat
  id : Nat
  nblk : Nat
  /-- tick at which it times out -/
  timeout : Option Nat
  release : Option Nat
  deriving DecidableEq, Repr

/-- A Drawer beside its registers. -/
structure Drawer where
  cmds : List Cmd
  launch : Option Launch
  barrier : Option Barrier
  /-- records written since ENABLE -/
  records : Nat
  /-- QUERY kind 0x01 word 2 -/
  completed : Nat
  /-- counts the ENABLEs that found commands of an earlier one still running (R124): what tells their names apart -/
  epoch : Nat
  deriving DecidableEq, Repr

/-- Bucket states but FREE (Table 4-2). -/
inductive BState | opened | complete | closed | inUse
  deriving DecidableEq, Repr

/-- A bucket that is not FREE. -/
structure Bucket where
  base : Nat
  nelem : Nat
  expect : Nat
  bx : Nat
  cfmt : Nat
  csb : Nat
  asc : Nat
  hist : Bool
  hb : Int
  result : Nat
  tag : Nat
  owner : Nat
  seq : Nat
  st : BState
  arrived : Nat
  clamps : Nat
  excess : Nat
  /-- largest contribution magnitude, a DF32 code -/
  maxc : BitVec 32
  lost : Bool
  corrected : Bool
  short : Bool
  /-- Drawer and position of the armed close -/
  closer : Option (Nat × Nat)
  /-- the close sweep is under way -/
  sweeping : Bool
  /-- spilled lines, numbered from BASE in 512 B -/
  spilled : List Nat
  /-- accumulators of the reserved lines, by element -/
  acc : Tab (BitVec 64)
  /-- commands that read it -/
  readers : List (Nat × Nat)
  release : Bool
  deriving DecidableEq, Repr

/-- A live Chest extent (R109), in bytes. -/
structure Extent where
  addr : Nat
  size : Nat
  stage : Nat
  mbatch : Nat
  deriving DecidableEq, Repr

/-- A partition's Chest pool. -/
structure Chest where
  base : Nat
  size : Nat
  live : List Extent
  deriving DecidableEq, Repr

/-- How far a SCRUB or a REBUILD is (R249, R255), and what its summary will say (Table 10-8). -/
structure Job where
  drawer : Nat
  pos : Nat
  /-- the next sector, counted from the first -/
  next : Nat
  done : Nat
  corrected : Nat
  bad : Nat
  /-- Mended words rebuilt (SCRUB), sectors mismatched (REBUILD) -/
  odd : Nat
  skipped : Nat
  first : Option Nat
  rows : Nat
  /-- a channel that its own read has put into reset, and that it waits for (R255) -/
  waitFor : Option Nat
  /-- the stripe row that a rebuild has taken and not ended: channel number and position (R247) -/
  lock : Option (Nat × Nat)
  deriving DecidableEq, Repr

/-- Drawers and what their commands keep. -/
structure Draws where
  drawer : Tab Drawer
  buckets : List Bucket
  chests : Tab Chest
  /-- a FENCE with ALL_DRAWERS or a REGION_SET that holds every Drawer: Drawer and position -/
  hold : Option (Nat × Nat)
  nextOrder : Nat
  /-- the Drawer whose command started last, for the round robin of R121 -/
  lastStart : Nat
  /-- start opportunities for which each Drawer has been startable and passed over (R121) -/
  waited : Tab Nat
  jobs : List Job
  deriving DecidableEq, Repr

/-! ## Anvils (03, 04) -/

/-- A tile descriptor (Table 3-3). -/
structure Tile where
  base : Nat
  fmt : Nat
  order : Bool
  phLog2 : Nat
  scaleMode : Nat
  sbLog2 : Nat
  sdir : Bool
  round : Bool
  rn : Nat
  ovf : Bool
  rows : Nat
  cols : Nat
  pitch : Nat
  held : Nat
  bx : Nat
  scaleBase : Nat
  /-- a reserved bit is set -/
  stray : Bool
  deriving DecidableEq, Repr

/-- A kernel image (Table 3-2), once loaded: bundles from bit 0 up as they are stored, and STAGE_MAP. -/
structure Kernel where
  preLen : Nat
  bodyLen : Nat
  stages : Nat
  inMask : Nat
  outMask : Nat
  stageMap : List Byte
  bundles : List (BitVec 128)
  deriving DecidableEq, Repr

/-- A result on its way to a register (R51): the cycle in which it becomes visible, whether it goes to a predicate, the
register, and the bits it writes. -/
structure Landing where
  at_ : Nat
  toQ : Bool
  r : Nat
  mask : BitVec 2048
  val : BitVec 2048
  deriving DecidableEq, Repr

/-- One iteration of a work list (R55): its entry in the tensor list and its number within the entry. -/
structure Iter where
  entry : Nat
  i : Nat
  deriving DecidableEq, Repr

/-- Where an Anvil is in its kernel; `drain` lasts from the end of the epilogue until its entries have ended (R80). -/
inductive Part | pre | body | epi | drain
  deriving DecidableEq, Repr

/-- The command an Anvil works for, and how far it is. -/
structure Work where
  drawer : Nat
  pos : Nat
  part : Part
  pass : Nat
  bundle : Nat
  /-- cycles without issue still to come at the end of the pass (R76) -/
  stretch : Nat
  /-- iterations handed to this Anvil, in order -/
  iters : List Iter
  deriving DecidableEq, Repr

/-- An element group that an input stream unit has fetched ahead: its stream, the entry and first position it belongs to, its
values without scales, and the status of the read (R57, R62). -/
structure Fetched where
  stream : Nat
  k : Nat
  lo : Nat
  vals : List Num.Val
  st : Status
  deriving DecidableEq, Repr

/-- An element group that an output stream unit has not passed on yet (R62). -/
structure Behind where
  stream : Nat
  k : Nat
  lo : Nat
  vals : List Num.Val
  deriving DecidableEq, Repr

/-- An Anvil (Table 3-1): registers, results under way, its own cycle count, and its stream units. -/
structure Anvil where
  v : Tab (BitVec 2048)
  q : Tab (BitVec 256)
  landing : List Landing
  cyc : Nat
  work : Option Work
  /-- prefetch of IN0 to IN5, with the transpose buffer of column-ordered streams (R59) -/
  fetched : List Fetched
  /-- the next iteration that each IN unit fetches -/
  nextIn : Tab Nat
  /-- write-behind of OUT0 to OUT3, oldest first -/
  behind : List Behind
  deriving DecidableEq, Repr

/-- How far a tensor-list entry is (R107). -/
inductive EState | waiting | running | skipped | ended
  deriving DecidableEq, Repr

/-- A capture set (R43). -/
structure Capture where
  maxAbs : BitVec 32
  nFault : Nat
  nOvf : Nat
  deriving DecidableEq, Repr

/-- An entry of a tensor list (Tables 4-7 and 4-8): its header, its descriptors, and what it has gathered. -/
structure Entry where
  head : List Word
  ins : List (Nat × Tile)
  outs : List (Nat × Tile)
  emit : Option Tile
  /-- a bit outside Table 4-7 is set -/
  stray : Bool
  st : EState
  /-- S0 to S15, read when it starts (R53, R107) -/
  scalars : List (BitVec 32)
  /-- iterations that have not left the body -/
  left : Nat
  status : Status
  /-- sums of squares by kind, and their saturation bits -/
  ssq : Tab Nat
  sat : Nat
  faultLanes : Nat
  /-- histogram bins, 64 × set + bin -/
  hist : Tab Nat
  caps : Tab Capture
  /-- values stored, by stream (4 is the emit unit) and logical index, before conversion (R60, R70) -/
  stored : List (Nat × Tab Num.Val)
  deriving DecidableEq, Repr

/-- A running UPDATE or EMIT. -/
structure Run where
  drawer : Nat
  pos : Nat
  slot : Nat
  emitCmd : Bool
  fuse : Bool
  defer : Bool
  /-- cut by a power-fail warning: no further iteration starts (R322) -/
  cut : Bool
  stab : Nat
  drawBase : BitVec 32
  seed : BitVec 256
  entries : List Entry
  /-- the next entry to start -/
  next : Nat
  deriving DecidableEq, Repr

/-- The Anvils, the kernel store and the running commands. -/
structure Anvs where
  anvil : Tab Anvil
  kernels : Tab (Option Kernel)
  runs : List Run
  deriving DecidableEq, Repr

/-! ## Planisher units (06) -/

/-- A Planisher unit (Table 6-1).  Buffers are kept in sectors; contents of the segment buffer, the accumulator file and the result
area that nothing has written since they became open are the free value `openAt` names, 0 for a cleared unit. -/
structure PUnit where
  pctl : Word
  param0 : Word
  param1 : Word
  param2 : Word
  seg : Tab SectorBits
  payload : Tab SectorBits
  acc : Tab SectorBits
  res : Tab SectorBits
  openAt : Nat
  /-- the error flag of R140 -/
  err : Bool
  /-- window transfers that failed in a row -/
  fails : Nat
  /-- operand segments read since PCTL was written, the columns read of the one under way, and the segment results formed -/
  step : Nat
  seen : List Nat
  results : Nat
  /-- a second failure has ended the work of a running command on it (R140, R147) -/
  lost : Bool
  deriving DecidableEq, Repr

/-! ## Clocks, power, temperature (12) -/

/-- A domain being staged, and its segments that are on (R298). -/
structure Staging where
  dom : Nat
  seg : Nat
  deriving DecidableEq, Repr

/-- Power and clocks beside their registers. -/
structure Power where
  /-- fuse image words (R292) -/
  fuse : List (BitVec 32)
  coef : Tab (BitVec 32)
  /-- half ticks since the last CKCORE edge, core cycles since lock -/
  halfTicks : Nat
  cycles : Nat
  /-- the tick in which a change of operating point began to wait (R295) -/
  opWait : Option Nat
  /-- divisor of the droop stretch: 1, 2 or 4 (R296) -/
  stretch : Nat
  /-- tick of the last reading below a threshold, and of the last one within 10 mV above it -/
  lastLow : Option Nat
  lastNear : Option Nat
  /-- the lowest reading of the stretch -/
  worstMv : Nat
  /-- the governor's own levels (R302) -/
  govAct : Nat
  govPl : Nat
  govAv : Nat
  govPhy : Nat
  /-- thermal ACT level and the previous temperature (R303) -/
  thermAct : Nat
  thermPl : Nat
  prevTemp : Option Nat
  crit : Bool
  /-- energy charged, by partition, in 2^-16 pJ (R305) -/
  energy : Tab Nat
  /-- block energy at the last interval boundary, and the energies of past intervals, newest first -/
  lastEnergy : Nat
  intervals : List Nat
  /-- ticks without work in past intervals, newest first, and in the one that runs (R306) -/
  idle : List Nat
  idleTicks : Nat
  staging : Option Staging
  deriving DecidableEq, Repr

/-! ## Life cycle and the Bureau (13) -/

/-- The drains of R321 and R325. -/
inductive DrainKind | wrst | pf | pfEarly
  deriving DecidableEq, Repr

/-- A drain under way. -/
structure Drain where
  kind : DrainKind
  start : Nat
  drained : Bool
  /-- the shutdown header that is being programmed -/
  header : Option (List Byte)
  /-- STATE at the fall, for the resumption of Table 13-9 -/
  from_ : Nat
  deriving DecidableEq, Repr

/-- The Bureau image and its write (R316 to R320). -/
structure Bureau where
  retired : BitVec 256
  repairs : List Word
  dropped : Nat
  errsum : Tab Word
  cal : List Byte
  /-- an event waits for a write -/
  pending : Bool
  /-- the body of the write that runs, and the body that the banks hold (R320) -/
  writing : Option (List Byte)
  /-- that write has made its bank current: step 4 has ended -/
  banked : Bool
  body : List Byte
  /-- GTC of the last ERRSUM refresh -/
  lastRefresh : Nat
  deriving DecidableEq, Repr

/-- Pins and life-cycle progress. -/
structure Life where
  porstN : Bool
  wrstN : Bool
  pwrFailN : Bool
  coolantOk : Bool
  dnPresent : Bool
  bureauDone : Bool
  /-- the stored calibration that a channel engine's training starts from; one that is not listed starts from the defaults
  (R311) -/
  calib : Tab (List Byte)
  /-- ticks for which the inputs have been high, and whether they fell since PORST_N rose (R313) -/
  coolTicks : Nat
  pfTicks : Nat
  coolFell : Bool
  pfFell : Bool
  startTick : Nat
  drain : Option Drain
  /-- partners' headers are dropped and credits held (R321, R325) -/
  closing : Bool
  /-- the steps before port release have ended -/
  ready : Bool
  /-- engines are paused for coolant (R307) -/
  paused : Bool
  firstTemp : Bool
  bureau : Bureau
  deriving DecidableEq, Repr

/-! ## Crucible and SYNC (11) -/

/-- A noise oscillator's health tests (Table 11-4). -/
structure Osc where
  /-- samples of the start-up test still to come; none when it has passed -/
  startup : Nat
  last : Option Bool
  run : Nat
  winPos : Nat
  winFirst : Bool
  winCount : Nat
  deriving DecidableEq, Repr

/-- A frame the root sends again (R286). -/
structure Repeat where
  bar : Nat
  frame : SyncFrame
  due : Nat
  deriving DecidableEq, Repr

/-- Crucible, GTC and SYNC beside their registers. -/
structure Time where
  /-- staged seed words, 3 × partition + word -/
  staged : Tab Word
  osc : Tab Osc
  /-- raw bits of a seed being collected -/
  seedBits : Option (List Bool)
  /-- the tick at which a held GTC resumes (R283) -/
  holdUntil : Option Nat
  /-- by how much V lay below GTC then -/
  holdBy : Nat
  /-- arrivals the root counted, by BAR_ID -/
  arrivals : Tab Nat
  repeats : List Repeat
  /-- RELEASE frames that the block has sent and that have not come back (R282) -/
  released : List SyncFrame
  deriving DecidableEq, Repr

/-! ## Outputs -/

/-- What the block puts on its outputs. -/
inductive Sent
  /-- a response, with its sectors for RSP_DATA; `rspHeader` is its header (Table 7-4) -/
  | rsp (port : Nat) (tag : BitVec 10) (part : BitVec 6) (tc : BitVec 2) (status : Status) (hm : Bool)
      (secs : List Sec)
  /-- a credit return (Table 7-6) -/
  | credit (port : Nat) (tc part hdr sect : Nat)
  /-- a block write with its request header (R160, R177) -/
  | blockWrite (port btag : Nat) (header : BitVec 128) (w : OutWrite)
  /-- MGT packets toward the host and downstream (Table 7-11) -/
  | mgtUp (kind : BitVec 4) (m : MgtPkt)
  | mgtDown (kind : BitVec 4) (m : MgtPkt)
  /-- a SYNC frame (Table 11-5) -/
  | sync (type : BitVec 4) (f : SyncFrame)
  /-- a per-bank refresh command to a stack (R207) -/
  | refresh (n pc bg : Nat)
  /-- a Bureau bank programmed: header SEQ, flags, and whether the body went with it (R320, R321) -/
  | flash (bank : Nat) (header : List Byte) (body : List Byte)
  deriving DecidableEq, Repr

/-! ## The whole state -/

/-- The state of the block. -/
structure State where
  /-- commands that wait, first in first out -/
  pending : List Instr
  /-- what was put on the outputs, newest first: the model's own record -/
  sent : List Sent
  /-- free values drawn so far: the model's own counter (log 4) -/
  freeCtr : Nat
  /-- ticks of 625 ps since PORST_N rose, or since the PLL lost its lock (R289, R328) -/
  tick : Nat
  /-- registers by CSR offset (Table 14-12) -/
  regs : Tab Word
  mem : Mem
  ports : Ports
  draws : Draws
  power : Power
  life : Life
  time : Time
  anv : Anvs
  /-- Planisher units, 8 × channel engine + 4 × pseudo-channel + bank group -/
  pl : Tab PUnit
  deriving DecidableEq, Repr

/-! ## Reset -/

def Slice.empty : Slice := ⟨[], [], []⟩
def Chan.empty : Chan := ⟨[], none, 0, none, none, false, [], [], [], [], [], [], []⟩
def Mend.empty : Mend := ⟨[], [], [], []⟩
def Credits.zero : Credits := ⟨0, 0⟩
def Account.zero : Account := ⟨.zero, .zero⟩
def Port.empty : Port := ⟨[], [], [], [], [], [], false, false, []⟩
def Drawer.empty : Drawer := ⟨[], none, none, 0, 0, 0⟩
def Chest.empty : Chest := ⟨0, 0, []⟩
def Limiter.empty : Limiter := ⟨none, 0⟩
/-- An oscillator whose start-up test has all its 1,024 samples to come. -/
def Osc.fresh : Osc := ⟨1024, none, 0, 0, false, 0⟩
/-- An Anvil after reset.  The spec gives V0 to V31 and Q1 to Q7 no value then: they read 0 (DESIGN CHOICE, log 6). -/
def Anvil.empty : Anvil := ⟨[], [], [], 0, none, [], [], []⟩
def Capture.zero : Capture := ⟨0, 0, 0⟩
def PUnit.empty : PUnit := ⟨0, 0, 0, 0, [], [], [], [], 0, false, 0, 0, [], 0, false⟩
def Bureau.empty : Bureau := ⟨0, [], 0, [], [], false, none, false, [], 0⟩

/-- Memory with nothing written (log 7). -/
def Mem.reset : Mem := ⟨[], [], [], [], [], [], [], []⟩
def Ports.reset : Ports := ⟨[], [], 0, [], [], [], []⟩
def Draws.reset : Draws := ⟨[], [], [], none, 0, 0, [], []⟩
def Power.reset : Power :=
  ⟨[], [], 0, 0, none, 1, none, none, 0, 0, 0, 0, 0, 0, 0, none, false, [], 0, [], [], 0, none⟩
/-- PORST_N is low; the other inputs are at their inactive levels (log 5). -/
def Life.reset : Life :=
  ⟨false, true, true, true, false, false, [], 0, 0, false, false, 0, none, false, false, false, false, .empty⟩
def Time.reset : Time := ⟨[], [], none, none, 0, [], [], []⟩
def Anvs.reset : Anvs := ⟨[], [], []⟩

/-- The block while PORST_N is low: every register at its Reset column, nothing held or waiting. -/
def State.reset : State :=
  ⟨[], [], 0, 0, [], .reset, .reset, .reset, .reset, .reset, .reset, .reset, []⟩

end Sys2Proof.Machine
end

