-- ==== Sys2Proof/Machine/Ops.lean ====
section
/-!
DEFINITION. The named operations over registers, counters, interrupts, the error log, energy and regulator tokens.
-/

namespace Sys2Proof.Machine

/-! ## Registers -/

/-- A register's word (R9). -/
def State.reg (s : State) (r : Reg) (i : Nat) : Word := Tab.get (fun _ => r.resetWord i) s.regs (r.offset i)

/-- The state with a register's word replaced. -/
def State.setReg (s : State) (r : Reg) (i : Nat) (v : Word) : State :=
  { s with regs := Tab.set (fun _ => r.resetWord i) s.regs (r.offset i) v }

/-- The value of field `f` in word `w`. -/
def Fld.of (f : Fld) (w : Word) : Nat := w.toNat / 2 ^ f.lo % 2 ^ f.w

/-- Word `w` with field `f` replaced by the low bits of `v`. -/
def Fld.into (f : Fld) (w : Word) (v : Nat) : Word :=
  (w &&& ~~~(BitVec.ofNat 64 ((2 ^ f.w - 1) * 2 ^ f.lo))) ||| BitVec.ofNat 64 (v % 2 ^ f.w * 2 ^ f.lo)

/-- A field of register index `i`. -/
def State.fld (s : State) (f : Fld) (i : Nat) : Nat := Fld.of f (s.reg f.reg i)

/-- A one-bit field. -/
def State.flag (s : State) (f : Fld) (i : Nat) : Bool := s.fld f i != 0

/-- The state with a field replaced. -/
def State.put (s : State) (f : Fld) (i v : Nat) : State := s.setReg f.reg i (Fld.into f (s.reg f.reg i) v)

/-- One bit of a field. -/
def State.bit (s : State) (f : Fld) (i k : Nat) : Bool := (s.fld f i).testBit k

/-- The state with one bit of a field set or cleared. -/
def State.putBit (s : State) (f : Fld) (i k : Nat) (b : Bool) : State :=
  s.put f i (if b then s.fld f i ||| 2 ^ k else (s.fld f i ^^^ (2 ^ k &&& s.fld f i)))

/-! ## Small helpers -/

/-- Apply `f` along a list. -/
def each {α : Type} (l : List α) (f : State → α → State) (s : State) : State := l.foldl f s

/-- The state as it is, or changed. -/
def State.when (s : State) (b : Bool) (f : State → State) : State := if b then f s else s

/-- Output `o`. -/
def State.emit (s : State) (o : Sent) : State := { s with sent := o :: s.sent }

/-- A value that the spec leaves open (log 4), and the state that has drawn it. -/
def State.draw (s : State) : Word × State := (Config.freeWord s.freeCtr, { s with freeCtr := s.freeCtr + 1 })

/-- Is work held up for want of coolant (R307)?  A drain goes on all the same (R326). -/
def State.stalled (s : State) : Bool := s.life.paused && s.life.drain.isNone

/-- GTC (R279). -/
def State.gtc (s : State) : Nat := s.fld F.GT_TIME_GTC 0

/-- Bits `[lo + w - 1 : lo]` of a word. -/
def bits (w : Word) (lo n : Nat) : Nat := w.toNat / 2 ^ lo % 2 ^ n

/-- Bit `k` of a word. -/
def bitOf (w : Word) (k : Nat) : Bool := w.getLsbD k

/-! ## Interrupts (R335, R336) -/

/-- The event causes of Table 14-6, by bit of MW_IRQ_CAUSE. -/
inductive Cause | integrity | port | power | lifeCycle | cntOvf | assaySat | crucible | drawerErr
  deriving DecidableEq, Repr

/-- Its bit in EVENT, which begins at bit 4 of the register. -/
def Cause.bit : Cause → Nat
  | .integrity => 0 | .port => 1 | .power => 2 | .lifeCycle => 3 | .cntOvf => 4 | .assaySat => 5
  | .crucible => 6 | .drawerErr => 7

/-- R336: an event sets its cause bit, whatever its mask. -/
def State.raise (s : State) (c : Cause) : State := s.putBit F.MW_IRQ_CAUSE_EVENT 0 c.bit true

/-! ## Counters -/

/-- A wrapping counter with its OVF bit, which raises the counter-overflow interrupt (R327). -/
def State.count (s : State) (cnt ovf : Fld) (i n : Nat) : State :=
  let v := s.fld cnt i + n
  let s := s.put cnt i v
  if v < 2 ^ cnt.w then s else (s.put ovf i 1).raise .cntOvf

/-- A saturating counter. -/
def State.countSat (s : State) (cnt : Fld) (i n : Nat) : State :=
  s.put cnt i (Nat.min (s.fld cnt i + n) (2 ^ cnt.w - 1))

/-! ## Access to the nested tables -/

def State.slice (s : State) (n : Nat) : Slice := Tab.get (fun _ => .empty) s.mem.slices n
def State.setSlice (s : State) (n : Nat) (v : Slice) : State :=
  { s with mem := { s.mem with slices := Tab.set (fun _ => .empty) s.mem.slices n v } }
def State.chan (s : State) (n : Nat) : Chan := Tab.get (fun _ => .empty) s.mem.chans n
def State.setChan (s : State) (n : Nat) (v : Chan) : State :=
  { s with mem := { s.mem with chans := Tab.set (fun _ => .empty) s.mem.chans n v } }
def State.mend (s : State) (c : Nat) : Mend := Tab.get (fun _ => .empty) s.mem.mends c
def State.setMend (s : State) (c : Nat) (v : Mend) : State :=
  { s with mem := { s.mem with mends := Tab.set (fun _ => .empty) s.mem.mends c v } }
def State.port (s : State) (p : Nat) : Port := Tab.get (fun _ => .empty) s.ports.port p
def State.setPort (s : State) (p : Nat) (v : Port) : State :=
  { s with ports := { s.ports with port := Tab.set (fun _ => .empty) s.ports.port p v } }
def State.drawer (s : State) (d : Nat) : Drawer := Tab.get (fun _ => .empty) s.draws.drawer d
def State.setDrawer (s : State) (d : Nat) (v : Drawer) : State :=
  { s with draws := { s.draws with drawer := Tab.set (fun _ => .empty) s.draws.drawer d v } }
def State.anvil (s : State) (a : Nat) : Anvil := Tab.get (fun _ => .empty) s.anv.anvil a
def State.setAnvil (s : State) (a : Nat) (v : Anvil) : State :=
  { s with anv := { s.anv with anvil := Tab.set (fun _ => .empty) s.anv.anvil a v } }
def State.kernel (s : State) (k : Nat) : Option Kernel := Tab.get (fun _ => none) s.anv.kernels k
def State.setKernel (s : State) (k : Nat) (v : Option Kernel) : State :=
  { s with anv := { s.anv with kernels := Tab.set (fun _ => none) s.anv.kernels k v } }
def State.unit (s : State) (u : Nat) : PUnit := Tab.get (fun _ => .empty) s.pl u
def State.setUnit (s : State) (u : Nat) (v : PUnit) : State := { s with pl := Tab.set (fun _ => .empty) s.pl u v }
def State.setWaits (s : State) (w : List Wait) : State := { s with ports := { s.ports with waits := w } }

/-- A channel's STATE (Table 10-5). -/
def State.chanState (s : State) (n : Nat) : Nat := s.fld F.CE_STATE_STATE n

/-! ## Energy and regulators (R224, R305) -/

/-- Charge `k` events of class `cls` to a partition. -/
def State.charge (s : State) (part cls k : Nat) : State :=
  let e := k * (Tab.get (fun _ => 0#32) s.power.coef cls).toNat
  if e = 0 then s
  else
    { s with power := { s.power with energy := Tab.modify (fun _ => 0) s.power.energy part (· + e) } }

/-- R292 classes 3 and 5: a DRAM read burst, with its activations (log 15). -/
def State.chargeBurst (s : State) (part cls : Nat) : State :=
  ({ s.charge part cls 1 with freeCtr := s.freeCtr + 1 }).charge part 5 (Config.activations s.freeCtr)

/-- The same for many bursts of one piece of work; their activations are one open number. -/
def State.chargeBursts (s : State) (part cls k : Nat) : State :=
  if k = 0 then s
  else ({ s.charge part cls k with freeCtr := s.freeCtr + 1 }).charge part 5 (Config.activations s.freeCtr)

/-- R292 class 3: a DRAM read burst of 2 KiB. -/
def State.chargeRead (s : State) (part : Nat) : State := s.chargeBurst part 3

/-- R292 class 4: a DRAM write burst of 2 KiB. -/
def State.chargeWrite (s : State) (part : Nat) : State := s.chargeBurst part 4

/-- A partition's counter in nJ (R305). -/
def State.energyNJ (s : State) (part : Nat) : Nat :=
  Tab.get (fun _ => 0) s.power.energy part / (65536 * 1000) % 2 ^ 64

/-- R224: is the regulator of a partition on and without tokens? -/
def State.dry (s : State) (part : Nat) : Bool :=
  s.fld F.PA_REG_RATE part != 0 && decide (Tab.get (fun _ => 0) s.ports.tokens part < 0)

/-- R224: charge the regulator with `bytes`. -/
def State.spend (s : State) (part bytes : Nat) : State :=
  if s.fld F.PA_REG_RATE part = 0 then s
  else { s with ports := { s.ports with tokens := Tab.modify (fun _ => 0) s.ports.tokens part (· - 16 * bytes) } }

/-! ## The error log (R260 to R263) -/

/-- What a log entry says beside its class: the fields of Table 10-11 that apply. -/
structure Info where
  syndrome : Nat := 0
  chan : Option Nat := none
  pc : Nat := 0
  bg : Nat := 0
  bank : Nat := 0
  sid : Nat := 0
  row : Nat := 0
  col : Nat := 0
  word : Nat := 0
  addr : Option Nat := none
  part : Option Nat := none
  deriving DecidableEq, Repr

/-- The classes of Table 10-12. -/
inductive LogClass
  | ce | ue | poison | rebuilt | hmInt | parW | parR | caPar | phy | admitOk | admitFail | retire | retireAuto
  | lostGran | repair | repairExhausted | bistFail | mismatch
  deriving DecidableEq, Repr

def LogClass.code : LogClass → Nat
  | .ce => 0x01 | .ue => 0x02 | .poison => 0x03 | .rebuilt => 0x04 | .hmInt => 0x05 | .parW => 0x06 | .parR => 0x07
  | .caPar => 0x08 | .phy => 0x09 | .admitOk => 0x0A | .admitFail => 0x0B | .retire => 0x0C | .retireAuto => 0x0D
  | .lostGran => 0x0E | .repair => 0x0F | .repairExhausted => 0x10 | .bistFail => 0x11 | .mismatch => 0x12

/-- The IN_STAT bit of a class (Table 10-12). -/
def LogClass.stat : LogClass → Option Fld
  | .ce => none | .ue => some F.IN_STAT_UE | .poison => some F.IN_STAT_POISON | .rebuilt => some F.IN_STAT_REBUILT
  | .hmInt => some F.IN_STAT_HM_INT | .parW => some F.IN_STAT_PAR_GAP | .parR => some F.IN_STAT_PAR_GAP
  | .caPar => some F.IN_STAT_UE | .phy => some F.IN_STAT_UE | .admitOk => none
  | .admitFail => some F.IN_STAT_ADMIT_FAIL | .retire => some F.IN_STAT_RETIRE
  | .retireAuto => some F.IN_STAT_RETIRE | .lostGran => some F.IN_STAT_LOST | .repair => some F.IN_STAT_REPAIR
  | .repairExhausted => some F.IN_STAT_REPAIR_EXHAUSTED | .bistFail => some F.IN_STAT_BIST_FAIL
  | .mismatch => some F.IN_STAT_MISMATCH

/-- R262: set an IN_STAT bit and raise the integrity interrupt. -/
def State.inStat (s : State) (f : Option Fld) : State :=
  match f with
  | some f => (s.put f 0 1).raise .integrity
  | none => s

/-- Words 0 to 2 of a log entry, and word 3 with `seq` and `merged` (Table 10-11). -/
def logWords (gtc : Nat) (c : LogClass) (i : Info) (seq merged : Nat) : List Word :=
  let ch := i.chan.getD 0
  [BitVec.ofNat 64 gtc,
   BitVec.ofNat 64 (c.code + i.syndrome * 2 ^ 8 + ch / 32 % 8 * 2 ^ 16 + ch % 32 * 2 ^ 19 + i.pc * 2 ^ 24
      + i.bg * 2 ^ 25 + i.bank * 2 ^ 27 + i.sid * 2 ^ 29 + i.row * 2 ^ 31 + i.col * 2 ^ 46 + i.word * 2 ^ 50),
   BitVec.ofNat 64 (i.addr.getD 0 % 2 ^ 44 + i.part.getD 0 % 64 * 2 ^ 44 + (if i.addr.isSome then 2 ^ 50 else 0)
      + (if i.part.isSome then 2 ^ 51 else 0)),
   BitVec.ofNat 64 (seq % 2 ^ 32 + Nat.min merged (2 ^ 32 - 1) * 2 ^ 32)]

/-- R260: write an entry at HEAD; an overwritten entry at or after TAIL counts as lost. -/
def State.logAppend (s : State) (c : LogClass) (i : Info) (merged : Nat) : State :=
  let seq := s.fld F.IN_LOG_PTR_HEAD 0
  let slot := seq % 1024
  let old := s.reg .IN_LOG (4 * slot + 1)
  let oldSeq := (s.reg .IN_LOG (4 * slot + 3)).toNat % 2 ^ 32
  let lost := old != 0#64 && decide ((oldSeq + 2 ^ 32 - s.fld F.IN_LOG_PTR_TAIL 0) % 2 ^ 32 < 2 ^ 31)
  let s := each ((logWords s.gtc c i seq merged).zipIdx) (fun s e => s.setReg .IN_LOG (4 * slot + e.2) e.1) s
  let s := s.put F.IN_LOG_PTR_HEAD 0 (seq + 1)
  s.when lost fun s =>
    (s.count F.IN_LOG_LOST_COUNT F.IN_LOG_LOST_OVF 0 1).inStat (some F.IN_STAT_LOG_LOST)

/-- CKCORE cycles of the limiter of R263. -/
def limiterCycles : Nat := 1600000

/-- R262, R263: report an event; CE, POISON and REBUILT entries are limited on each channel. -/
def State.log (s : State) (c : LogClass) (i : Info) : State :=
  let s := s.inStat c.stat
  match c, i.chan with
  | .ce, some n | .poison, some n | .rebuilt, some n =>
    if c = .ce ∧ s.fld F.IN_CTL_LOG_CE 0 = 0 then s
    else
      let ch := s.chan n
      let l := Tab.get (fun _ => .empty) ch.limits c.code
      let free := match l.last with
        | none => true
        | some t => decide (t + limiterCycles ≤ s.power.cycles)
      if free then
        (s.logAppend c i l.merged).setChan n
          { ch with limits := Tab.set (fun _ => .empty) ch.limits c.code ⟨some s.power.cycles, 0⟩ }
      else s.setChan n { ch with limits := Tab.set (fun _ => .empty) ch.limits c.code ⟨l.last, l.merged + 1⟩ }
  | _, _ => s.logAppend c i 0

end Sys2Proof.Machine
end

