-- ==== Sys2Proof/Machine/AddrMap.lean ====
section
/-!
DEFINITION. From a port address to a sector of a channel (R210 to R215), and back.
-/

namespace Sys2Proof.Machine

/-- 1 GiB: a granule. -/
def gib : Nat := 2 ^ 30

/-- SITE_CAP code of a used site, in units of 8 GiB; 0 when it is not used (R208). -/
def State.siteCap (s : State) (t : Nat) : Nat :=
  if s.bit F.MW_CONFIG_SITES_POPULATED 0 t then s.fld F.MW_CONFIG_SITE_CAP 0 / 2 ^ (4 * t) % 16 else 0

/-- The used sites in increasing order. -/
def State.usedSites (s : State) : List Nat := (List.range 8).filter fun t => s.bit F.MW_CONFIG_SITES_POPULATED 0 t

/-- A tier (R210): its base and size in bytes, its first burst position, and its sites. -/
structure Tier where
  base : Nat
  size : Nat
  low : Nat
  sites : List Nat
  deriving DecidableEq, Repr

/-- R210: the tiers, lowest first. -/
def State.tiers (s : State) : List Tier :=
  let caps := (List.range 16).filter fun c => c != 0 && (List.range 8).any fun t => s.siteCap t == c
  (caps.foldl (fun (acc : List Tier × Nat × Nat) c =>
    let sites := (List.range 8).filter fun t => decide (c ≤ s.siteCap t)
    let size := sites.length * (c - acc.2.2) * (8 * gib)
    (acc.1 ++ [⟨acc.2.1, size, acc.2.2 * (8 * gib) / 65536, sites⟩], acc.2.1 + size, c)) ([], 0, 0)).1

/-- The end of the memory window. -/
def State.windowEnd (s : State) : Nat := (s.tiers.map Tier.size).foldl (· + ·) 0

/-- The class of a granule (Table 9-6). -/
def State.granClass (s : State) (g : Nat) : Nat := s.fld F.RG_GRAN_CLASS g
def State.granOwner (s : State) (g : Nat) : Nat := s.fld F.RG_GRAN_OWNER g

/-- N, the sites of tier 0, and Q of R214. -/
def State.mendN (s : State) : Nat := match s.tiers with
  | t :: _ => t.sites.length
  | [] => 0
def State.mendSites (s : State) : List Nat := match s.tiers with
  | t :: _ => t.sites
  | [] => []
/-- The end of tier 0, the only tier that Mended granules lie in (R214). -/
def State.mendEnd (s : State) : Nat := match s.tiers with
  | t :: _ => t.size
  | [] => 0
def State.mendQ (s : State) : Nat := if s.mendN = 0 then 1 else s.mendN / Nat.gcd s.mendN 16384

/-- A sector of a channel: the slice and channel engine `n`, and the sector number `k = 32 × m + sector`. -/
structure Loc where
  n : Nat
  k : Nat
  deriving DecidableEq, Repr

def Loc.m (l : Loc) : Nat := l.k / 32
def Loc.sector (l : Loc) : Nat := l.k % 32

/-- R211, for an address outside Mended granules. -/
def State.locPlain (s : State) (a : Nat) : Option Loc :=
  (s.tiers.find? fun t => decide (t.base ≤ a ∧ a < t.base + t.size)).map fun t =>
    let nn := t.sites.length
    let n := (a - t.base) / 2048
    let k := n % (32 * nn)
    ⟨32 * t.sites.getD (k % nn) 0 + k / nn, (t.low + n / (32 * nn)) * 32 + a % 2048 / 64⟩

/-- Where a Mended address lies (R215): the stripe row's channel number and position, its parity site index, and the
data member. -/
structure Stripe where
  ch : Nat
  m : Nat
  p : Nat
  d : Nat
  sector : Nat
  deriving DecidableEq, Repr

/-- R215: none in the hole, nor past tier 0. -/
def State.stripe (s : State) (a : Nat) : Option Stripe :=
  let n := s.mendN
  let q := s.mendQ
  let u := a / gib / q
  let d0 := a - u * q * gib
  if n < 2 ∨ q * (n - 1) * gib / n ≤ d0 ∨ s.mendEnd ≤ a then none
  else
    let row := d0 / ((n - 1) * 2048)
    let ch := row % 32
    let m := u * q * 16384 / n + row / 32
    some ⟨ch, m, (m + ch) % n, d0 % ((n - 1) * 2048) / 2048, d0 % 2048 / 64⟩

/-- The site of data member `d` of a stripe row. -/
def State.memberSite (s : State) (p d : Nat) : Nat := s.mendSites.getD ((p + 1 + d) % s.mendN) 0

/-- The channel engine of a stripe's data member. -/
def State.stripeLoc (s : State) (r : Stripe) : Loc := ⟨32 * s.memberSite r.p r.d + r.ch, r.m * 32 + r.sector⟩

/-- Is an address in a Mended granule? -/
def State.isMended (s : State) (a : Nat) : Bool := s.granClass (a / gib) == 2
def State.isPlain (s : State) (a : Nat) : Bool := s.granClass (a / gib) == 0

/-- R211, R215: where an address lies; none outside the memory window and in a Mended hole. -/
def State.locate (s : State) (a : Nat) : Option Loc :=
  if s.windowEnd ≤ a then none
  else if s.isMended a then (s.stripe a).map s.stripeLoc
  else s.locPlain a

/-- Burst positions of a channel. -/
def State.positions (s : State) (n : Nat) : Nat := s.siteCap (n / 32) * (8 * gib) / 65536

/-- The address that R211 gives to a sector of a channel; none where no tier covers it. -/
def State.addrPlain (s : State) (l : Loc) : Option Nat :=
  s.tiers.findSome? fun t =>
    let nn := t.sites.length
    let per := t.size / (nn * 65536)
    match t.sites.findIdx? (· == l.n / 32) with
    | some i =>
      if t.low ≤ l.m ∧ l.m < t.low + per then
        some (t.base + ((l.m - t.low) * (32 * nn) + (l.n % 32 * nn + i)) * 2048 + l.sector * 64)
      else none
    | none => none

/-- Does a sector of a channel belong to a Mended granule?  A unit occupies the positions its granules occupy under
R211 (R214). -/
def State.locMended (s : State) (l : Loc) : Bool := match s.addrPlain l with
  | some a => s.isMended a
  | none => false
def State.locPlainClass (s : State) (l : Loc) : Bool := match s.addrPlain l with
  | some a => s.isPlain a
  | none => false

/-- The parity member's site index of a position of channel number `ch`. -/
def State.parityIdx (s : State) (ch m : Nat) : Nat := if s.mendN = 0 then 0 else (m + ch) % s.mendN

/-- The port address of a sector of a channel: none for a parity member (R216). -/
def State.addrOf (s : State) (l : Loc) : Option Nat :=
  if s.locMended l then
    let n := s.mendN
    let q := s.mendQ
    let u := l.m / (q * 16384 / n)
    let ch := l.n % 32
    let p := s.parityIdx ch l.m
    match s.mendSites.findIdx? (· == l.n / 32) with
    | none => none
    | some i =>
      let d := (i + n - (p + 1) % n) % n
      if d = n - 1 then none
      else some (u * q * gib + (((l.m - u * q * 16384 / n) * 32 + ch) * (n - 1) + d) * 2048 + l.sector * 64)
  else s.addrPlain l

/-- SIDs of a site (Table 9-2). -/
def State.sids (s : State) (site : Nat) : Nat :=
  match s.fld F.SS_IDENT_HEIGHT site with
  | 8 => 2
  | 12 => 3
  | _ => 4

/-- Table 9-3: pseudo-channel, bank group, bank, SID, row and column of a sector. -/
structure Cell where
  pc : Nat
  bg : Nat
  bank : Nat
  sid : Nat
  row : Nat
  col : Nat
  deriving DecidableEq, Repr

/-- R212. -/
def cellOf (grouped : Bool) (sids m s : Nat) : Cell :=
  if grouped then ⟨m % 2, m / 2 % 4, 2 * (m / 8 % 2) + s / 16, m / 16 % sids, m / (16 * sids), s % 16⟩
  else ⟨s % 2, s / 2 % 4, m / 4 % 4, m / 16 % sids, m / (16 * sids), 4 * (m % 4) + s / 8⟩

/-- The cell of a sector under the layout of its class. -/
def State.cell (s : State) (l : Loc) : Cell := cellOf (s.locPlainClass l) (s.sids (l.n / 32)) l.m l.sector

/-- The row of a bank as one number, for the counts of R254. -/
def Cell.rowKey (c : Cell) : Nat := (((c.row * 4 + c.sid) * 4 + c.bg) * 4 + c.bank) * 2 + c.pc

/-- What a log entry says of a sector (Table 10-11). -/
def State.info (s : State) (l : Loc) (part : Option Nat) : Info :=
  let c := s.cell l
  { chan := some l.n, pc := c.pc, bg := c.bg, bank := c.bank, sid := c.sid, row := c.row, col := c.col,
    addr := s.addrOf l, part := part }

/-! ## Ranges -/

/-- The 2 KiB bursts a range touches. -/
def burstsOf (a len : Nat) : List Nat :=
  if len = 0 then [] else (List.range ((a + len - 1) / 2048 + 1 - a / 2048)).map fun i => a / 2048 + i

/-- The granules a range touches. -/
def granulesOf (a len : Nat) : List Nat :=
  if len = 0 then [] else (List.range ((a + len - 1) / gib + 1 - a / gib)).map fun i => a / gib + i

/-- Does a range leave the memory window or touch a Mended hole (R125 step 2)? -/
def State.badWindow (s : State) (a len : Nat) : Bool :=
  len != 0 && (decide (s.windowEnd < a + len)
    || (granulesOf a len).any fun g =>
      s.granClass g == 2 &&
        (let lo := Nat.max a (g * gib)
         let hi := Nat.min (a + len) ((g + 1) * gib)
         (s.stripe (hi - 1)).isNone || (s.stripe lo).isNone))

/-- R125 step 3: does a range leave the granules of a partition?  Partition 0 has no granule limit. -/
def State.foreign (s : State) (part a len : Nat) : Bool :=
  part != 0 && (granulesOf a len).any fun g => s.granOwner g != part

/-- Is some granule of a range of class `c`? -/
def State.touchesClass (s : State) (c a len : Nat) : Bool := (granulesOf a len).any fun g => s.granClass g == c

/-- Does a range include a word of a retired channel outside Mended granules? -/
def State.touchesRetired (s : State) (a len : Nat) : Bool :=
  (List.range 256).any (fun n => s.chanState n == 3) &&
    (burstsOf a len).any fun b =>
      !s.isMended (b * 2048) && match s.locPlain (b * 2048) with
        | some l => s.chanState l.n == 3
        | none => false

/-- Do two ranges overlap? -/
def overlap (a la b lb : Nat) : Bool := la != 0 && lb != 0 && decide (a < b + lb) && decide (b < a + la)

/-- R101: does a range run from the first byte of a stripe row to the last byte of one? -/
def State.wholeRows (s : State) (a len : Nat) : Bool :=
  let n := s.mendN
  let off := (a - a / gib / s.mendQ * s.mendQ * gib)
  n != 0 && off % ((n - 1) * 2048) == 0 && len % ((n - 1) * 2048) == 0

end Sys2Proof.Machine
end

