-- ==== Sys2Proof/Machine/Memory.lean ====
section
/-!
DEFINITION. DRAM with its check bits, the Sideboard, the judging of reads, reconstruction by Mend, and the channel
reset (09, 10).
-/

namespace Sys2Proof.Machine

/-! ## Sectors -/

/-- A sector with its Hallmark generated (R14). -/
def mkSec (d : SectorBits) : Sec := ⟨d, hallmark d, false⟩

/-- The Fault sector of R233. -/
def faultSec : Sec := ⟨allOnes, hallmark allOnes, true⟩

/-- R234: does a sector pass its Hallmark check? -/
def Sec.good (x : Sec) : Bool := hallmark x.data == x.hm

/-! ## DRAM -/

/-- Number of a sector of the block. -/
def Loc.index (l : Loc) : Nat := l.n * 2 ^ 26 + l.k

/-- What byte `j` of sector `i` reads as when it is not listed: data bytes 0 to 63, check bytes 64 to 71 (log 7). -/
def Mem.blank (m : Mem) (i j : Nat) : Byte :=
  match m.ground.find? fun g => decide (g.lo ≤ i ∧ i < g.hi) with
  | none => 0#8
  | some g => match g.open_ with
    | none => 0xFF#8
    | some k => Config.openByte (k * 2 ^ 42 + i * 72 + j)

/-- What unlisted data and check bytes read as, by their place in `dram` and `chk`. -/
def Mem.dataBlank (m : Mem) (a : Nat) : Byte := m.blank (a / 64) (a % 64)
def Mem.chkBlank (m : Mem) (a : Nat) : Byte := m.blank (a / 8) (64 + a % 8)

/-- The canonical form of memory: addresses strictly rising, and no entry equal to what an unlisted one reads as. -/
def Mem.wf (m : Mem) : Bool := Tab.wf m.dataBlank m.dram && Tab.wf m.chkBlank m.chk

/-- `n` consecutive bytes of a byte memory. -/
def readBytes (d : Nat → Byte) (t : List Host.Cell) (a n : Nat) : List Byte :=
  (List.range n).map fun i => Tab.get d t (a + i)

/-- Write consecutive bytes. -/
def writeBytes (d : Nat → Byte) (t : List Host.Cell) (a : Nat) (bs : List Byte) : List Host.Cell :=
  Tab.setMany d t a bs

/-- Memory in canonical form: no entry equals what an unlisted address reads as. -/
def Mem.trim (m : Mem) : Mem :=
  { m with dram := m.dram.filter fun e => e.2 != m.dataBlank e.1, chk := m.chk.filter fun e => e.2 != m.chkBlank e.1 }

/-- Memory with every listed byte of the sectors that fulfil `p` gone, and new ground. -/
def Mem.reground (m : Mem) (p : Nat → Bool) (g : List Ground) : Mem :=
  Mem.trim { m with
    dram := Tab.restrict (fun a => !p (a / 64)) m.dram
    chk := Tab.restrict (fun a => !p (a / 8)) m.chk
    ground := g }

/-- The stored data of a sector. -/
def State.rawSector (s : State) (l : Loc) : SectorBits := BitVec.ofNat 512 (ofBytes (readBytes s.mem.dataBlank s.mem.dram (l.index * 64) 64))

/-- The stored check bytes of a sector. -/
def State.rawChecks (s : State) (l : Loc) : List Byte := readBytes s.mem.chkBlank s.mem.chk (l.index * 8) 8

/-- Store data and check bytes of a sector. -/
def State.writeRaw (s : State) (l : Loc) (d : SectorBits) (cs : List Byte) : State :=
  { s with mem := { s.mem with
      dram := writeBytes s.mem.dataBlank s.mem.dram (l.index * 64) (bytesOf 64 d)
      chk := writeBytes s.mem.chkBlank s.mem.chk (l.index * 8) cs } }

/-- R199, R232: a queued write-back of a sector is void once a write to the sector is performed. -/
def State.voidBack (s : State) (l : Loc) : State :=
  if (s.chan l.n).wback.any fun e => e.k == l.k then
    s.setChan l.n { s.chan l.n with wback := (s.chan l.n).wback.filter fun e => e.k != l.k }
  else s

/-- Store data and check bytes of a sector as a new value of it: what was queued to be written back is void. -/
def State.writeNew (s : State) (l : Loc) (d : SectorBits) (cs : List Byte) : State := (s.voidBack l).writeRaw l d cs

/-- R231: the poisoned sector, written in the same way in every class. -/
def State.writePoison (s : State) (l : Loc) : State := s.writeNew l allOnes (List.replicate 8 0xFF#8)

/-- R229: a sector's data with encoded check bytes. -/
def State.writeEncoded (s : State) (l : Loc) (d : SectorBits) : State := s.writeNew l d (sectorChecks d)

/-- Flip the bits of an error pattern in the array (log 21). -/
def State.flipRaw (s : State) (l : Loc) (e : BitErr) : State :=
  let d := s.rawSector l ^^^ (e.data.setWidth 512 <<< (64 * e.word.val))
  let cs := (s.rawChecks l).zipIdx.map fun c => if c.2 = e.word.val then c.1 ^^^ e.check else c.1
  s.writeRaw l d cs

/-- The granule of an address holds data (R250). -/
def State.touch (s : State) (a : Nat) : State :=
  { s with mem := { s.mem with touched := Tab.set (fun _ => false) s.mem.touched (a / gib) true } }

/-! ## Mend bookkeeping (R246) -/

/-- R246: positions one stale bit covers. -/
def State.staleSpan (s : State) (n : Nat) : Nat := (s.positions n + 8191) / 8192

/-- The granule of a sector's address loses data (R248, R250). -/
def State.markLost (s : State) (l : Loc) : State := match s.addrOf l with
  | some a => s.put F.RG_GRAN_LOST (a / gib) 1
  | none => s

/-- R248: the Mended rows of channel number `c` at the listed positions have lost the members on `sites`: their granules get
LOST, and IN_STAT tells of it. -/
def State.rowsLost (s : State) (c : Nat) (sites rows : List Nat) : State :=
  let ls := (rows.flatMap fun m => sites.map fun t => (⟨32 * t + c, m * 32⟩ : Loc)).filter s.locMended
  if ls.isEmpty then s else (ls.foldl State.markLost s).inStat (some F.IN_STAT_LOST)

/-- The positions that the set bits of a stale map cover (R246). -/
def State.stalePositions (s : State) (n : Nat) (map : Tab Bool) : List Nat :=
  (map.filter (·.2)).flatMap fun e => (List.range (s.staleSpan n)).map (e.1 * s.staleSpan n + ·)

/-- A member leaves service: it takes a free stale map, or is wholly stale.  Rows that are stale for another member too are
lost then (R248). -/
def State.mendLeave (s : State) (n : Nat) : State :=
  let u := s.mend (n % 32)
  let site := n / 32
  if !s.mendSites.contains site || u.wholly.contains site || u.maps.any (·.1 == site) then s
  else if u.maps.length < 2 then s.setMend (n % 32) { u with maps := u.maps ++ [(site, [])] }
  else
    let s := s.setMend (n % 32) { u with wholly := site :: u.wholly }
    u.maps.foldl (fun s e => s.rowsLost (n % 32) [site, e.1] (s.stalePositions n e.2)) s

/-- A member returns to service or is retired: its map is freed. -/
def State.mendFree (s : State) (n : Nat) : State :=
  let u := s.mend (n % 32)
  s.setMend (n % 32)
    { u with maps := u.maps.filter fun e => e.1 != n / 32, wholly := u.wholly.filter fun t => t != n / 32 }

/-- Is position `m` stale for the member on channel engine `n`? -/
def State.isStale (s : State) (n m : Nat) : Bool :=
  let u := s.mend (n % 32)
  u.wholly.contains (n / 32)
    || u.maps.any fun e => e.1 == n / 32 && Tab.get (fun _ => false) e.2 (m / Nat.max 1 (s.staleSpan n))

/-- R248: is the member's row lost: dropped for two members at once, or stale for another one too? -/
def State.isLost (s : State) (n m : Nat) : Bool :=
  (Tab.get (fun _ => []) (s.mend (n % 32)).lost m).contains (n / 32) ||
    s.isStale n m && s.mendSites.any fun t => t != n / 32 && s.isStale (32 * t + n % 32) m

/-- Is a channel on its way back to service? -/
def State.recovering (s : State) (n : Nat) : Bool := s.chanState n == 1 || s.chanState n == 2

/-- Is a peer that a Mended sector is rebuilt from on its way back (R245)? -/
def State.peerRecovers (s : State) (n : Nat) : Bool :=
  s.mendSites.any fun t => t != n / 32 && s.recovering (32 * t + n % 32)

/-! ## Planisher mode of a bank group (R138, R149, R150) -/

/-- R150: how many bank groups of a channel may compute (levels of Table 12-4). -/
def State.plLimit (s : State) : Nat := if s.flag F.PW_GOV_STAT_LVL_PL 0 then 1 else 2

/-- Is bank group `k` (4 × pc + bg) of a channel engine in Planisher mode? -/
def State.inMode (s : State) (n k : Nat) : Bool := s.bit F.CE_PL_STAT_BG_MODE n k

/-- Bank groups of a pseudo-channel that compute. -/
def State.computing (s : State) (n pc : Nat) : Nat := ((List.range 4).filter fun b => s.inMode n (4 * pc + b)).length

/-- A bank group leaves, its work ended; its unit keeps its state (R137). -/
def State.leaveMode (s : State) (n k : Nat) : State :=
  (s.putBit F.CE_PL_STAT_BG_MODE n k false).setChan n { s.chan n with
    plOrder := (s.chan n).plOrder.filter (· != k), plBack := (s.chan n).plBack.filter (· != k) }

/-- A bank group leaves with work to go on. -/
def State.stepOut (s : State) (n k : Nat) : State :=
  let s := s.leaveMode n k
  s.setChan n { s.chan n with plBack := (s.chan n).plBack ++ [k] }

/-- R149: a mode exit made for a waiting request or a refresh (Table 6-9). -/
def State.preempt (s : State) (n k : Nat) : State :=
  if s.inMode n k then (s.stepOut n k).count F.CE_PL_PREEMPT_COUNT F.CE_PL_PREEMPT_OVF n 1 else s

/-- A bank group enters, where the limit of R150 has room. -/
def State.enterMode (s : State) (n k : Nat) (clear : Bool) : State :=
  if s.inMode n k || decide (s.plLimit ≤ s.computing n (k / 4)) then s
  else
    let s := s.putBit F.CE_PL_STAT_BG_MODE n k true
    let s := s.setChan n { s.chan n with
      plOrder := (s.chan n).plOrder ++ [k], plBack := (s.chan n).plBack.filter (· != k) }
    s.when clear (·.setUnit (8 * n + k) .empty)

/-- The bank group of a sector, as its channel numbers them. -/
def State.bankOf (s : State) (l : Loc) : Nat := 4 * (s.cell l).pc + (s.cell l).bg

/-- R149, R150: the bank groups that left with work to go on enter again, without CLEAR, where no request waits for them. -/
def State.reenter (s : State) (n : Nat) : State :=
  if s.chanState n != 0 || (s.chan n).selfRefresh then s
  else (s.chan n).plBack.foldl (fun s k =>
    if (s.chan n).retry.any fun d => d.secs.any fun x => s.bankOf ⟨n, x⟩ == k then s else s.enterMode n k false) s

/-! ## The channel reset (R239, R240) -/

/-- R240: a channel in service enters reset; its array is kept in self-refresh, its bank groups leave Planisher
mode. -/
def State.channelReset (s : State) (n : Nat) (cause : Option Nat) : State :=
  if s.chanState n != 0 then s
  else
    let s := (s.put F.CE_STATE_STATE n 1).countSat F.CE_STATE_RESETS n 1
    let s := s.put F.CE_PL_STAT_BG_MODE n 0
    let s := (List.range 8).foldl (fun s k => s.setUnit (8 * n + k) .empty) s
    let s := s.setChan n { s.chan n with
      resetAt := some s.tick, stoppedTicks := 0, cause := cause, selfRefresh := true, plOrder := [], plBack := [] }
    s.mendLeave n

/-- R254: queue a row for repair: 64 rows a site, further ones are counted. -/
def State.queueRow (s : State) (n : Nat) (row : Nat) : State :=
  let ch := s.chan n
  if ch.repairs.contains row then s
  else
    let used := ((List.range 32).map fun c => (s.chan (n / 32 * 32 + c)).repairs.length).foldl (· + ·) 0
    if 64 ≤ used then s.countSat F.IN_INTCNT_REPAIR_DROPPED 0 1
    else s.setChan n { ch with repairs := ch.repairs ++ [row] }

/-! ## Judging a read (R230 to R232) -/

/-- What a read delivers. -/
structure Got where
  sec : Sec
  st : Status
  /-- an uncorrectable verdict -/
  ue : Bool
  deriving DecidableEq, Repr

/-- R232: count the corrected words of a sector, queue the write-back, and the row once it reaches CE_ROW_LIM. -/
def State.corrected (s : State) (l : Loc) (d : SectorBits) (k : Nat) (i : Info) : State :=
  let s := (s.count F.CE_CORR_COUNT F.CE_CORR_OVF l.n k).log .ce i
  let row := (s.cell l).rowKey
  let ch := s.chan l.n
  let old := Tab.get (fun _ => 0) ch.rowCorr row
  let lim := s.fld F.IN_CTL_CE_ROW_LIM 0
  let s := s.setChan l.n { ch with
    rowCorr := Tab.set (fun _ => 0) ch.rowCorr row (old + k), wback := ch.wback ++ [⟨l.k, d, i.part⟩] }
  s.when (lim != 0 && decide (lim ≤ old + k)) (·.queueRow l.n row)

/-! ## The two gaps (R236, R237) -/

/-- The even parity of each byte: bit `k` is byte `k`'s. -/
def byteParity (d : SectorBits) : BitVec 64 :=
  BitVec.ofNat 64 ((bytesOf 64 d).zipIdx.foldl (fun v e =>
    v + (if (List.range 8).foldl (fun b j => b ^^ e.1.getLsbD j) false then 2 ^ e.2 else 0)) 0)

/-- A gap register with a sector in it: 512 bits under even parity by byte. -/
structure GapReg where
  data : SectorBits
  parity : BitVec 64
  deriving DecidableEq, Repr

/-- A sector enters with its parity generated. -/
def GapReg.enter (d : SectorBits) : GapReg := ⟨d, byteParity d⟩

/-- Bits flip while the register holds it. -/
def GapReg.flip (g : GapReg) (f : SectorBits) : GapReg := { g with data := g.data ^^^ f }

/-- The sector leaves, its parity checked; none where the check fails. -/
def GapReg.leave (g : GapReg) : Option SectorBits := if byteParity g.data = g.parity then some g.data else none

/-- R236: a sector passes a gap of its channel engine and pseudo-channel.  It is there for two cycles, inside one step; what
happens to the register meanwhile waits in `upsets`. -/
def State.passGap (s : State) (l : Loc) (g : Gap) (d : SectorBits) : Option SectorBits × State :=
  match s.mem.upsets.find? fun u => u.n == l.n && u.f.pc == (s.cell l).pc && u.f.gap == g with
  | some u => (((GapReg.enter d).flip u.f.flips).leave, { s with mem := { s.mem with upsets := s.mem.upsets.erase u } })
  | none => (some d, s)

/-- R237: a sector out of the corrector passes the read gap: delivered with its Hallmark, or as Fault. -/
def State.deliver (s : State) (l : Loc) (d : SectorBits) (st : Status) (i : Info) : Got × State :=
  match s.passGap l .err d with
  | (some d, s) => (⟨mkSec d, st, false⟩, s)
  | (none, s) => (⟨faultSec, .dataFault, false⟩, (s.countSat F.IN_INTCNT_PAR_GAP 0 1).log .parR i)

/-- R230, R231: judge a stored sector.  `reset` is clear where an uncorrectable verdict does not reset the channel
(R259). -/
def State.judge (s : State) (l : Loc) (part : Option Nat) (reset : Bool) : Got × State :=
  let d := s.rawSector l
  let cs := s.rawChecks l
  let i := s.info l part
  if isPoisoned d cs then (⟨faultSec, .dataFault, false⟩, s.log .poison { i with syndrome := 0xFF })
  else if s.locPlainClass l then s.deliver l d .ok i
  else
    let vs := (List.range 8).map fun k => verdict (syndrome (sectorWord d k) (cs.getD k 0))
    let syn := fun k => (syndrome (sectorWord d k) (cs.getD k 0)).toNat
    match vs.findIdx? (· == .uncorrectable) with
    | some k =>
      let bad := (vs.filter (· == .uncorrectable)).length
      let s := (s.count F.CE_UNCORR_COUNT F.CE_UNCORR_OVF l.n bad).log .ue { i with syndrome := syn k, word := k }
      let s := s.when reset fun s =>
        (s.when (s.flag F.IN_CTL_AUTO_REPAIR 0) (·.queueRow l.n (s.cell l).rowKey)).channelReset l.n (some l.k)
      (⟨faultSec, .dataFault, true⟩, s)
    | none =>
      let fixed := ofWords ((List.range 8).map fun k => Sys2Proof.corrected (sectorWord d k) (vs.getD k .clean))
      match vs.findIdx? (· != .clean) with
      | none => s.deliver l d .ok i
      | some k =>
        (s.corrected l fixed (vs.filter (· != .clean)).length { i with syndrome := syn k, word := k }).deliver l fixed
          .okCorrected i

/-- Is a stored sector of a Guarded or Mended granule uncorrectable (R230)? -/
def State.ueAt (s : State) (l : Loc) : Bool :=
  let d := s.rawSector l
  let cs := s.rawChecks l
  !s.locPlainClass l && !isPoisoned d cs &&
    (List.range 8).any fun k => verdict (syndrome (sectorWord d k) (cs.getD k 0)) == .uncorrectable

/-! ## Mended reads (R245) -/

/-- Count one access of `bytes` at a slice as a hit or a miss (R221); its energy, and that of its way over the crossbar, goes
by 128 B (R292 classes 1 and 2). -/
def State.countAccess (s : State) (hit : Bool) (part bytes : Nat) : State :=
  ((if hit then s.count F.SB_HITS_COUNT F.SB_HITS_OVF 0 1 else s.count F.SB_MISSES_COUNT F.SB_MISSES_OVF 0 1).charge part 1
    ((bytes + 127) / 128)).charge part 2 ((bytes + 127) / 128)

/-- R245: exclusive-or of the same sectors of the other members; none when a peer cannot be used.  A data member's read counts
at its slice (R221). -/
def State.rebuild (s : State) (l : Loc) (part : Option Nat) : Option SectorBits × Status × State :=
  let peers := s.mendSites.filter fun t => t != l.n / 32
  peers.foldl (fun (acc : Option SectorBits × Status × State) t =>
    let lp : Loc := ⟨32 * t + l.n % 32, l.k⟩
    let s := acc.2.2
    if s.chanState lp.n == 3 || (s.chan lp.n).admitBy.isSome || s.isStale lp.n lp.m || s.isLost lp.n lp.m then
      (none, acc.2.1, s)
    else
      let s := s.when (s.addrOf lp).isSome (·.countAccess (((s.slice lp.n).lines.any fun y =>
        y.unit == lp.k / 8 && (Tab.get (fun _ => none) y.secs (lp.k % 8)).isSome)) (part.getD 0) 64)
      let g := (s.chargeRead (part.getD 0)).judge lp part true
      let x := match acc.1 with
        | some x => if g.1.st = .dataFault then none else some (x ^^^ g.1.sec.data)
        | none => none
      (x, Status.worst acc.2.1 g.1.st, g.2)) (some 0, .ok, s)

/-- R245, R248: a read of a Mended member. -/
def State.mendRead (s : State) (l : Loc) (part : Option Nat) : Got × State :=
  let serve (s : State) (st : Status) : Got × State :=
    let r := s.rebuild l part
    match r.1 with
    | some x => (⟨mkSec x, Status.worst st r.2.1, false⟩, r.2.2)
    | none => (⟨faultSec, .dataFault, false⟩, r.2.2)
  if s.isLost l.n l.m then (⟨faultSec, .dataFault, false⟩, s)
  else if s.chanState l.n != 0 || s.isStale l.n l.m then serve s .degraded
  else
    let g := s.judge l part true
    if g.1.ue then
      let r := serve g.2 .rebuilt
      (r.1, r.2.when (!r.1.sec.fault) (·.log .rebuilt (s.info l part)))
    else g

/-- A sector from DRAM, by its class; the channel's data are lost when it is retired (R203). -/
def State.fetch (s : State) (l : Loc) (part : Option Nat) : Got × State :=
  if s.locMended l then s.mendRead l part
  else if s.chanState l.n == 3 then (⟨faultSec, .dataFault, false⟩, s)
  else s.judge l part true

/-! ## The channel engine's write path (R234, R235, R237) -/

/-- R235: an internal Hallmark failure. -/
def State.hmInt (s : State) (i : Info) : State := (s.countSat F.IN_INTCNT_HM_INT 0 1).log .hmInt i

/-- One sector to DRAM, on behalf of a partition where one is known (R261): its Hallmark checked and its check bytes
encoded in the write gap, and poisoned where its value cannot be delivered. -/
def State.writeDram (s : State) (l : Loc) (x : Sec) (part : Option Nat) : State :=
  let i := s.info l part
  let s := s.when (!x.good) (·.hmInt i)
  match s.passGap l .ewr x.data with
  | (some d, s) => if x.fault || !x.good then s.writePoison l else s.writeEncoded l d
  | (none, s) => ((s.countSat F.IN_INTCNT_PAR_GAP 0 1).log .parW i).writePoison l

/-! ## Slices (R220 to R223) -/

/-- Is the bank group of a sector in Planisher mode?  Ordinary accesses to it wait (R138, R149). -/
def State.bankInMode (s : State) (l : Loc) : Bool :=
  s.fld F.CE_PL_STAT_BG_MODE l.n != 0 && s.inMode l.n (s.bankOf l)

/-- Ways of a set that are not reserved. -/
def State.ways (s : State) : Nat := 16 - s.fld F.SB_CTL_RES_WAYS 0

/-- The set of a line (R211, R215). -/
def Line.set (x : Line) : Nat := x.unit % 64

/-- A sector of a slice's lines. -/
def Slice.find (x : Slice) (k : Nat) : Option Held :=
  match x.lines.find? (fun y => y.unit == k / 8) with
  | some y => Tab.get (fun _ => none) y.secs (k % 8)
  | none => none

/-- The line holding `k` becomes the most recently used. -/
def Slice.touch (x : Slice) (k : Nat) : Slice :=
  match x.lines.find? (fun y => y.unit == k / 8) with
  | some y => { x with lines := y :: x.lines.filter fun z => z.unit != k / 8 }
  | none => x

/-- Set or drop a sector in a line that is present. -/
def Slice.putSec (x : Slice) (k : Nat) (h : Option Held) : Slice :=
  { x with lines := x.lines.map fun y =>
      if y.unit = k / 8 then { y with secs := Tab.set (fun _ => none) y.secs (k % 8) h } else y }

/-- Sectors of a line: sector number in the channel, and what is held. -/
def Line.heldSecs (x : Line) : List (Nat × Held) := x.secs.filterMap fun e => e.2.map fun h => (8 * x.unit + e.1, h)
def Line.dirtySecs (x : Line) : List (Nat × Held) := x.heldSecs.filter fun e => e.2.dirty
def Line.clean (x : Line) : Line :=
  { x with secs := x.secs.map fun e => (e.1, e.2.map fun h => { h with dirty := false }) }

/-- May dirty lines go to DRAM now?  Not in self-refresh (R307), and not into a bank group in Planisher mode (R149). -/
def State.lineGoes (s : State) (n : Nat) (y : Line) : Bool :=
  !(s.chan n).selfRefresh && y.dirtySecs.all fun e => !s.bankInMode ⟨n, e.1⟩

/-- The partition of the bucket that spilled the 512 B line at an address (R91). -/
def State.spilledBy (s : State) (a : Nat) : Option Nat :=
  (s.draws.buckets.find? fun b => decide (b.base ≤ a) && b.spilled.contains ((a - b.base) / 512)).map (·.owner)

/-- R92, R224: a spilled line moves to or from DRAM. -/
def State.spillOp (s : State) (owner : Nat) : State :=
  (s.count F.AV_SPILL_OPS_COUNT F.AV_SPILL_OPS_OVF 0 1).spend owner 512

/-- Count the spilled lines among lines that move (R92). -/
def State.spillOps (s : State) (n : Nat) (units : List Nat) : State :=
  units.foldl (fun s u => match s.addrPlain ⟨n, 8 * u⟩ with
    | some a => match s.spilledBy a with
      | some o => s.spillOp o
      | none => s
    | none => s) s

/-- Table 12-5: the partition that a write-back of lines is charged to: the bucket's for spilled lines, else that of the
access that makes it. -/
def State.writeBackPart (s : State) (n : Nat) (units : List Nat) (part : Nat) : Nat :=
  (units.findSome? fun u => (s.addrPlain ⟨n, 8 * u⟩).bind s.spilledBy).getD part

/-- R92, R224: count each spilled line of which an access to `[a, a + len)` misses a sector: it is filled. -/
def State.countFills (s : State) (a len : Nat) : State :=
  if s.draws.buckets.all fun b => b.spilled.isEmpty then s
  else
    (List.range ((a % 512 + len + 511) / 512)).foldl (fun s i =>
      let line := a / 512 * 512 + 512 * i
      let missed := (List.range 8).any fun j =>
        let x := line + 64 * j
        decide (a < x + 64 ∧ x < a + len) && match s.locate x with
          | some l => s.chanState l.n != 3 && ((s.slice l.n).find l.k).isNone && (Tab.get (fun _ => none) (s.slice l.n).store l.k).isNone
          | none => false
      match missed, s.spilledBy line with
      | true, some o => s.spillOp o
      | _, _ => s) s

/-- The same for the sectors of a gather. -/
def State.countFillSecs (s : State) (secs : List Nat) : State :=
  if s.draws.buckets.all fun b => b.spilled.isEmpty then s
  else (secs.map (· / 512)).dedup.foldl (fun s b =>
    let missed := secs.any fun x => x / 512 == b && match s.locate x with
      | some l => s.chanState l.n != 3 && ((s.slice l.n).find l.k).isNone && (Tab.get (fun _ => none) (s.slice l.n).store l.k).isNone
      | none => false
    match missed, s.spilledBy (b * 512) with
    | true, some o => s.spillOp o
    | _, _ => s) s

/-- R221: write the dirty sectors of a burst to DRAM in one write; its lines are clean then.  A retired channel
drops them (R204). -/
def State.writeBackBurst (s : State) (n m : Nat) (part : Nat) : State :=
  let x := s.slice n
  let ls := x.lines.filter fun y => y.unit / 4 == m && !y.dirtySecs.isEmpty
  if ls.isEmpty then s
  else
    let s := if s.chanState n == 3 then s
      else (((ls.flatMap Line.dirtySecs).foldl (fun s e => s.writeDram ⟨n, e.1⟩ e.2.sec none) s).chargeWrite
        (s.writeBackPart n (ls.map Line.unit) part)).spillOps n (ls.map Line.unit)
    s.setSlice n { s.slice n with lines := (s.slice n).lines.map fun y => if y.unit / 4 = m then y.clean else y }

/-- Room of a write-back store in sectors (R223). -/
def storeSectors : Nat := 2048

/-- R220, R223: make room for a line in its set; none when no line can go.  A channel in self-refresh takes no write
(R307). -/
def State.makeRoom (s : State) (n unit part : Nat) : Option State :=
  let x := s.slice n
  let set := x.lines.filter fun y => y.set == unit % 64
  if set.length < s.ways then some s
  else
    let drop (s : State) (u : Nat) : State :=
      s.setSlice n { s.slice n with lines := (s.slice n).lines.filter fun y => y.unit != u }
    match set.getLast? with
    | none => none
    | some v =>
      if v.dirtySecs.isEmpty then some (drop s v.unit)
      else if s.chanState n == 1 || s.chanState n == 2 then
        if x.store.length + v.dirtySecs.length ≤ storeSectors then
          let st := v.dirtySecs.foldl (fun t e => Tab.set (fun _ => none) t e.1 (some e.2.sec)) x.store
          some (drop (s.setSlice n { x with store := st }) v.unit)
        else match (set.filter fun y => y.dirtySecs.isEmpty).getLast? with
          | some c => some (drop s c.unit)
          | none => none
      else if !(x.lines.filter fun y => y.unit / 4 == v.unit / 4).all (s.lineGoes n) then
        ((set.filter fun y => y.dirtySecs.isEmpty).getLast?).map fun c => drop s c.unit
      else some (drop (s.writeBackBurst n (v.unit / 4) part) v.unit)

/-- Does a slice have a line for sector `k`? -/
def Slice.hasLine (x : Slice) (k : Nat) : Bool := x.lines.any fun y => y.unit == k / 8

/-- Put a sector into its slice, making a line for it; none when no line can be had.  A dirty sector that the write-back
store holds needs no new line: the store takes the new value (R223). -/
def State.slicePut (s : State) (l : Loc) (h : Held) (part : Nat) : Option State :=
  let s' := if (s.slice l.n).hasLine l.k then some s else (s.makeRoom l.n (l.k / 8) part).map fun s =>
    s.setSlice l.n { s.slice l.n with lines := ⟨l.k / 8, []⟩ :: (s.slice l.n).lines }
  match s' with
  | some s =>
    let x := ((s.slice l.n).putSec l.k (some h)).touch l.k
    some (s.setSlice l.n { x with store := Tab.set (fun _ => none) x.store l.k none })
  | none =>
    let x := s.slice l.n
    if h.dirty && (Tab.get (fun _ => none) x.store l.k).isSome then
      some (s.setSlice l.n { x with store := Tab.set (fun _ => none) x.store l.k (some h.sec) })
    else none

/-- Drop a sector from its slice. -/
def State.sliceDrop (s : State) (l : Loc) : State := s.setSlice l.n ((s.slice l.n).putSec l.k none)

/-- What the slice or its store holds of a sector. -/
def State.sliceHas (s : State) (l : Loc) : Option Held :=
  match (s.slice l.n).find l.k with
  | some h => some h
  | none => (Tab.get (fun _ => none) (s.slice l.n).store l.k).map fun x => ⟨x, true⟩

/-- The status of delivering a held sector. -/
def Sec.status (x : Sec) : Status := if x.fault then .dataFault else .ok

/-- R221, R234, R235: read a sector at its home slice, from DRAM where the slice does not hold it. -/
def State.sliceRead (s : State) (l : Loc) (part : Nat) : Got × State :=
  let miss (s : State) : Got × State :=
    let near := (s.slice l.n).lines.any fun y => y.unit / 4 == l.m
    let g := (if near then s else s.chargeRead part).fetch l (some part)
    let keep := !g.1.sec.fault && (g.1.st == .ok || g.1.st == .okCorrected)
    (g.1, if keep then (g.2.slicePut l ⟨g.1.sec, false⟩ part).getD g.2 else g.2)
  match s.sliceHas l with
  | none => miss s
  | some h =>
    if h.sec.good then (⟨h.sec, h.sec.status, false⟩, s.setSlice l.n ((s.slice l.n).touch l.k))
    else
      let s := (s.hmInt (s.info l (some part))).sliceDrop l
      if h.dirty then (⟨faultSec, .dataFault, false⟩,
          (s.setSlice l.n { s.slice l.n with store := Tab.set (fun _ => none) (s.slice l.n).store l.k none }).writePoison l)
      else miss s

/-- R234, R235: a sector out of the crossbar is checked as it enters a slice; one in flight that fails is Fault. -/
def State.arrive (s : State) (l : Loc) (x : Sec) (part : Nat) : Sec × State :=
  if x.good then (x, s) else (faultSec, s.hmInt (s.info l (some part)))

/-- R188, R204: perform a whole-sector write at its home slice; a write to a retired channel is dropped.  None when
no line can be had. -/
def State.sliceWrite (s : State) (l : Loc) (x : Sec) (part : Nat) : Option State :=
  if s.chanState l.n == 3 then some s
  else
    let r := s.arrive l x part
    (r.2.slicePut l ⟨r.1, true⟩ part).map fun s => s.voidBack l

/-! ## Accesses by port address -/

/-- Read a sector by address, as part of an access that is counted elsewhere.  Outside the window nothing is there:
the Fault sector. -/
def State.readQuiet (s : State) (a part : Nat) : Got × State :=
  match s.locate a with
  | some l => s.sliceRead l part
  | none => (⟨faultSec, .badArg, false⟩, s)

/-- Read a sector by address: one access (R221, log 31). -/
def State.readSec (s : State) (a part : Nat) : Got × State :=
  match s.locate a with
  | some l => (s.countAccess (s.sliceHas l).isSome part 64).sliceRead l part
  | none => (⟨faultSec, .badArg, false⟩, s)

/-- R223: a write that finds no clean way is held at its slice, behind those that are held already. -/
def State.holdWrite (s : State) (l : Loc) (x : Sec) : State :=
  s.setSlice l.n { s.slice l.n with late := (s.slice l.n).late ++ [(l.k, x)] }

/-- Write a whole sector by address, outside Mended granules, as part of an access counted elsewhere: the write is
dropped in a retired channel, and the status says so (R204); for want of a clean way it is held (R223). -/
def State.writeQuiet (s : State) (a : Nat) (x : Sec) (part : Nat) : Status × State :=
  match s.locate a with
  | some l =>
    if s.chanState l.n == 3 then (.degraded, s)
    else match s.sliceWrite l x part with
      | some s => (.ok, s.touch a)
      | none => (.ok, (s.holdWrite l x).touch a)
  | none => (.badArg, s)

/-- R223: the held writes of a slice are performed in order, as far as lines can be had. -/
def State.lateWrites (n : Nat) : List (Nat × Sec) → State → State
  | [], s => s.setSlice n { s.slice n with late := [] }
  | e :: es, s => match s.sliceWrite ⟨n, e.1⟩ e.2 0 with
    | some s => State.lateWrites n es s
    | none => s.setSlice n { s.slice n with late := e :: es }

/-- Perform what a slice holds for want of a clean way. -/
def State.settleLate (s : State) (n : Nat) : State :=
  if (s.slice n).late.isEmpty then s else State.lateWrites n (s.slice n).late s

/-- Is a write of the block's own held at some slice? -/
def State.writesLate (s : State) : Bool := s.mem.slices.any fun e => !e.2.late.isEmpty

/-- Write a whole sector by address: one access. -/
def State.writeSec (s : State) (a : Nat) (x : Sec) (part : Nat) : Status × State :=
  (s.countAccess true part 64).writeQuiet a x part

/-- Write a whole sector of a segment stream: the segment's first sector counts one access for it all (R221). -/
def State.writeSeg (s : State) (a : Nat) (x : Sec) (part : Nat) (first : Bool) : Status × State :=
  (s.when first (·.countAccess true part 256)).writeQuiet a x part

/-- Read `n` sectors from `a` on, with the worst status. -/
def State.readSecs (s : State) (a n part : Nat) : List Sec × Status × State :=
  (List.range n).foldl (fun (acc : List Sec × Status × State) i =>
    let g := acc.2.2.readSec (a + 64 * i) part
    (acc.1 ++ [g.1.sec], Status.worst acc.2.1 g.1.st, g.2)) ([], .ok, s)

/-- The bytes of sectors. -/
def secBytes (xs : List Sec) : List Byte := xs.flatMap fun x => bytesOf 64 x.data

/-- Read `n` bytes from `a` on through the home slices. -/
def State.readMem (s : State) (a n part : Nat) : List Byte × Status × State :=
  let r := s.readSecs (a / 64 * 64) ((a % 64 + n + 63) / 64) part
  (((secBytes r.1).drop (a % 64)).take n, r.2.1, r.2.2)

/-- Little-endian words of bytes. -/
def wordsOf (bs : List Byte) (n : Nat) : List Word :=
  (List.range n).map fun i => BitVec.ofNat 64 (ofBytes ((bs.drop (8 * i)).take 8))

/-- Write whole sectors from `a` on, with Hallmarks generated. -/
def State.writeSecs (s : State) (a : Nat) (ds : List SectorBits) (part : Nat) : Status × State :=
  ds.zipIdx.foldl (fun (acc : Status × State) e =>
    let r := acc.2.writeSec (a + 64 * e.2) (mkSec e.1) part
    (Status.worst acc.1 r.1, r.2)) (.ok, s)

/-- Sectors of words, eight a sector, padded with zero. -/
def sectorsOf (ws : List Word) : List SectorBits :=
  (List.range ((ws.length + 7) / 8)).map fun i => ofWords ((ws.drop (8 * i)).take 8)

/-! ## Waiting for channels -/

/-- Must an access to a sector wait: for its bank group to leave Planisher mode (R149, R151), for its channel in reset or
admission (Table 10-5), or for a peer that rebuilds it (R245)?  A sector the slice holds is served. -/
def State.mustWait (s : State) (l : Loc) : Bool :=
  (s.sliceHas l).isNone &&
    (s.bankInMode l ||
      if s.locMended l then (s.chanState l.n != 0 || s.isStale l.n l.m || s.ueAt l) && s.peerRecovers l.n
      else s.recovering l.n)

/-- May a whole range be read and written now? -/
def State.rangeReady (s : State) (a len : Nat) : Bool :=
  ((List.range 256).all fun n => !s.recovering n && s.fld F.CE_PL_STAT_BG_MODE n == 0) ||
    (List.range ((a % 64 + len + 63) / 64)).all fun i => match s.locate (a / 64 * 64 + 64 * i) with
      | some l => !s.mustWait l
      | none => true

end Sys2Proof.Machine
end

