-- ==== Sys2Proof/Machine/Buckets.lean ====
section
/-!
DEFINITION. Gradient buckets (04): finding, adding, sweeping and freeing them.
-/

namespace Sys2Proof.Machine

open Sys2Proof.Num

/-! ## Extents and lookup -/

/-- Lines of 512 B of the extent (R83). -/
def Bucket.lines (b : Bucket) : Nat := (b.nelem * 8 + 511) / 512

/-- Bytes of the extent (R83). -/
def Bucket.extent (b : Bucket) : Nat := b.lines * 512

/-- The bucket that is not FREE and whose extent covers an address. -/
def State.bucketAt (s : State) (a : Nat) : Option Bucket :=
  s.draws.buckets.find? fun b => decide (b.base ≤ a ∧ a < b.base + b.extent)

/-- The bucket with a BASE. -/
def State.bucketBase (s : State) (base : Nat) : Option Bucket := s.draws.buckets.find? fun b => b.base == base

/-- The buckets whose extents overlap a range. -/
def State.bucketsIn (s : State) (a len : Nat) : List Bucket :=
  s.draws.buckets.filter fun b => overlap a len b.base b.extent

/-- Replace the bucket with the same BASE. -/
def State.setBucket (s : State) (b : Bucket) : State :=
  { s with draws := { s.draws with buckets := s.draws.buckets.map fun x => if x.base = b.base then b else x } }

/-- The bucket goes to FREE: its reserve lines are returned (R84, R91). -/
def State.freeBucket (s : State) (base : Nat) : State :=
  { s with draws := { s.draws with buckets := s.draws.buckets.filter fun b => b.base != base } }

/-- Contributions that complete the bucket. -/
def Bucket.full (b : Bucket) : Nat := b.nelem * b.expect

/-! ## The reserve (R91, R222) -/

/-- The slice of a bucket's line. -/
def State.lineSlice (s : State) (base i : Nat) : Nat := match s.locate (base + 512 * i) with
  | some l => l.n
  | none => 0

/-- May every spilled line of a range of lines be read now (R108)?  Reserved ones wait for no channel. -/
def State.spilledReady (s : State) (b : Bucket) (lo hi : Nat) : Bool :=
  b.spilled.all fun i => decide (i < lo ∨ hi ≤ i) || s.rangeReady (b.base + 512 * i) 512

/-- Reserve lines a bucket holds. -/
def Bucket.reserved (b : Bucket) : List Nat := (List.range b.lines).filter fun i => !b.spilled.contains i

/-- Pool lines held in each slice. -/
def State.reserveUse (s : State) : Tab Nat :=
  s.draws.buckets.foldl (fun t b => b.reserved.foldl (fun t i =>
    Tab.modify (fun _ => 0) t (s.lineSlice b.base i) (· + 1)) t) []

/-- Pool lines of each slice (R222). -/
def State.poolLines (s : State) : Nat := 64 * s.fld F.SB_CTL_RES_WAYS 0

/-- R83, R91: the lines of a new bucket that its home slices' pools cannot hold, taken in address order (log 30). -/
def State.linesToSpill (s : State) (base lines : Nat) : List Nat :=
  ((List.range lines).foldl (fun (acc : Tab Nat × List Nat) i =>
    let n := s.lineSlice base i
    let u := Tab.get (fun _ => 0) acc.1 n
    if u < s.poolLines then (Tab.set (fun _ => 0) acc.1 n (u + 1), acc.2) else (acc.1, acc.2 ++ [i]))
    (s.reserveUse, [])).2

/-- R91: zero a spilled line at its own addresses in DRAM. -/
def State.zeroLine (s : State) (a owner : Nat) : State :=
  let s := (List.range 8).foldl (fun s i => match s.locate (a + 64 * i) with
    | some l => (s.sliceDrop l).writeDram l (mkSec 0) (some owner)
    | none => s) s
  ((s.touch a).spillOp owner).chargeWrite owner

/-! ## Elements -/

/-- Read element `i`: its word, the status of the read, and the state. -/
def State.bucketElem (s : State) (b : Bucket) (i : Nat) : BitVec 64 × Status × State :=
  if b.nelem ≤ i then (0, .ok, s)
  else if !b.spilled.contains (i / 64) then (Tab.get (fun _ => 0#64) b.acc i, .ok, s)
  else
    let a := b.base + 8 * i
    let g := s.readQuiet (a / 64 * 64) b.owner
    if g.1.sec.fault then (dxFault, .dataFault, g.2) else (sectorWord g.1.sec.data (a % 64 / 8), g.1.st, g.2)

/-- A sector with word `k` replaced. -/
def putWord (x : SectorBits) (k : Nat) (w : Word) : SectorBits :=
  ofWords ((List.range 8).map fun j => if j = k then w else sectorWord x j)

/-- Add `x` to element `i` (R86); a lost word stays Fault (R108). -/
def State.bucketAdd (s : State) (b : Bucket) (i : Nat) (x : BitVec 64) : Bucket × Status × State :=
  if !b.spilled.contains (i / 64) then
    ({ b with acc := Tab.modify (fun _ => 0#64) b.acc i (dxAdd · x) }, .ok, s)
  else
    let r := s.bucketElem b i
    let s := r.2.2
    if r.2.1 = .dataFault then ({ b with lost := true }, .dataFault, s)
    else
      let a := b.base + 8 * i
      let sec := (s.readQuiet (a / 64 * 64) b.owner)
      let w := s.writeQuiet (a / 64 * 64) (mkSec (putWord sec.1.sec.data (a % 64 / 8) (dxAdd r.1 x))) b.owner
      ({ b with corrected := b.corrected || r.2.1 == .okCorrected }, r.2.1, w.2)

/-! ## Contributions (R85 to R87) -/

/-- Elements of a payload of `len` sectors. -/
def payloadElems (f : Fmt) (len : Nat) : Nat := len * 8 * perWord f

/-- R85, R165: alignment, extent and scale rules of an ACC to bucket `b`. -/
def accRulesHold (b : Bucket) (h : ReqHdr) (secs : List InSector) : Bool :=
  match Fmt.ofCode b.cfmt with
  | none => false
  | some f =>
    let n := payloadElems f (h.lenM1.toNat + 1)
    let i0 := (h.addr.toNat - b.base) / 8
    let blocks := (n + b.csb - 1) / b.csb
    let scl := if f.scalable then (blocks + 63) / 64 else 0
    let scaleBytes := (secs.take scl).flatMap fun x => bytesOf 64 x.data
    i0 % perWord f == 0 && (!f.scalable || i0 % b.csb == 0) && decide (i0 + n ≤ b.nelem) && h.scl.toNat == scl
      && (scaleBytes.drop blocks).all (· == 0)

/-- The contributions of an ACC in order: their values (R41 step 1) or, for DX64, the words. -/
inductive Contribution
  | value (v : Val)
  | word (w : BitVec 64)
  deriving DecidableEq, Repr

/-- R85, R165, R167: decode a payload. -/
def contributions (b : Bucket) (h : ReqHdr) (secs : List InSector) : List Contribution :=
  match Fmt.ofCode b.cfmt with
  | none => []
  | some f =>
    let scl := h.scl.toNat
    let scales := secs.take scl
    let codes := (scales.flatMap fun x => bytesOf 64 x.data).map BitVec.toNat
    let datas := secs.drop scl
    (List.range (payloadElems f (h.lenM1.toNat + 1))).map fun j =>
      let w := j / perWord f
      let x := datas.getD (w / 8) ⟨0, 0, true⟩
      let blk := j / b.csb
      if x.fault || (f.scalable && (scales.getD (blk / 64) ⟨0, 0, true⟩).fault) then
        (if f = .dx64 then .word dxFault else .value .fault)
      else
        let word := sectorWord x.data (w % 8)
        if f = .dx64 then .word word
        else
          let v := decode f (ofWord f word (j % perWord f))
          .value (if f.scalable then applyScale (codes.getD blk 255) v else v)

/-- R86: the window integer of a contribution, and whether it clamps. -/
def Contribution.window (bx : Nat) : Contribution → BitVec 64 × Bool
  | .value v => toWindow bx v
  | .word w => (w, false)

/-- R86: MAXC over a contribution. -/
def Contribution.raise (m : BitVec 32) : Contribution → BitVec 32
  | .value v => raiseMax m v
  | .word _ => m

/-- Saturating 32-bit count of a bucket; saturation sets CAP_SAT (Table 4-16). -/
def State.satCount (s : State) (v n : Nat) : Nat × State :=
  if 2 ^ 32 ≤ v + n then (2 ^ 32 - 1, (s.put F.AV_ASSAY_STAT_CAP_SAT 0 1).raise .assaySat) else (v + n, s)

/-- R86, R92: add an accepted payload from element `i0` on; the spilled lines it misses are filled once each. -/
def State.addContributions (s : State) (b : Bucket) (i0 : Nat) (cs : List Contribution) : Status × State :=
  let s := s.countFills (b.base + 8 * i0) (8 * cs.length)
  let r := cs.zipIdx.foldl (fun (acc : Bucket × Status × State × Nat) e =>
    let x := e.1.window b.bx
    let t := acc.2.2.1.bucketAdd { acc.1 with maxc := e.1.raise acc.1.maxc } (i0 + e.2) x.1
    (t.1, Status.worst acc.2.1 t.2.1, t.2.2, acc.2.2.2 + (if x.2 then 1 else 0))) (b, .ok, s, 0)
  let clamped := r.2.2.2
  let c := r.2.2.1.satCount r.1.clamps clamped
  let b : Bucket := { r.1 with clamps := c.1, arrived := r.1.arrived + cs.length }
  let b : Bucket := if b.arrived = b.full then { b with st := .complete, sweeping := b.closer.isSome } else b
  (Status.worst r.2.1 (if clamped = 0 then .ok else .okClamped), c.2.setBucket b)

/-- R87: EXCESS of a refused ACC. -/
def State.excess (s : State) (b : Bucket) (n : Nat) : State :=
  let c := s.satCount b.excess n
  c.2.setBucket { b with excess := c.1 }

/-! ## The close sweep (R94, R95) -/

/-- What a sweep gathers. -/
structure Sweep where
  ssq : Nat
  sat : Bool
  maxs : BitVec 32
  faults : Nat
  hist : Tab Nat
  lost : Bool
  corrected : Bool
  deriving DecidableEq, Repr

/-- R94: one element of the sweep. -/
def sweepElem (b : Bucket) (w : Sweep) (x : BitVec 64) (st : Status) : Sweep :=
  let v := windowVal b.bx x
  let a := addSsq w.ssq (squareUnits b.asc v)
  let d := decode .df32 (encode .df32 false .nearest v).code
  { ssq := a.1, sat := w.sat || a.2, maxs := raiseMax w.maxs d, faults := w.faults + (if v = .fault then 1 else 0),
    hist := if b.hist then Tab.modify (fun _ => 0) w.hist (histBin b.hb v) (· + 1) else w.hist,
    lost := w.lost || st == .dataFault, corrected := w.corrected || st == .okCorrected }

/-- R94: the whole sweep. -/
def State.sweep (s : State) (b : Bucket) : Sweep × State :=
  (List.range b.nelem).foldl (fun (acc : Sweep × State) i =>
    let r := acc.2.bucketElem b i
    (sweepElem b acc.1 r.1 r.2.1, r.2.2)) (⟨0, false, 0, 0, [], false, false⟩, s.countFills b.base b.extent)

/-- R95: the status of a bucket's record. -/
def Bucket.status (b : Bucket) : Status :=
  if b.lost then .dataFault else if b.clamps ≠ 0 then .okClamped else if b.corrected then .okCorrected else .ok

/-- Table 4-5: the record's words. -/
def Bucket.record (b : Bucket) (w : Sweep) : List Word :=
  [BitVec.ofNat 64 (b.tag + b.status.code * 2 ^ 16 + (if b.short then 2 ^ 24 else 0) + (if w.sat then 2 ^ 25 else 0)
      + (if b.hist then 2 ^ 26 else 0) + b.seq % 2 ^ 32 * 2 ^ 32),
   BitVec.ofNat 64 (b.arrived % 2 ^ 37),
   BitVec.ofNat 64 (b.clamps + w.faults * 2 ^ 32),
   BitVec.ofNat 64 (b.excess + b.maxc.toNat * 2 ^ 32),
   BitVec.ofNat 64 w.ssq, BitVec.ofNat 64 (w.ssq / 2 ^ 64),
   BitVec.ofNat 64 (w.maxs.toNat + b.spilled.length * 2 ^ 32), 0]

/-- Two 32-bit bins a word. -/
def binWords (h : Tab Nat) (at_ bins : Nat) : List Word :=
  (List.range (bins / 2)).map fun i =>
    BitVec.ofNat 64 (Tab.get (fun _ => 0) h (at_ + 2 * i) % 2 ^ 32
      + Tab.get (fun _ => 0) h (at_ + 2 * i + 1) % 2 ^ 32 * 2 ^ 32)

/-- R94, R95: the end of a close sweep: the record is written and the bucket is CLOSED. -/
def State.closeSweep (s : State) (b : Bucket) : Bucket × State :=
  let r := s.sweep b
  let w := r.1
  let b := { b with lost := b.lost || w.lost, corrected := b.corrected || w.corrected, st := .closed, sweeping := false,
                    closer := none }
  let s := r.2.when w.sat fun s => (s.put F.AV_ASSAY_STAT_SSQ_SAT 0 1).raise .assaySat
  let ws := b.record w ++ (if b.hist then binWords w.hist 0 64 else [])
  let s := if b.result = 0 then s else (s.writeSecs b.result (sectorsOf ws) b.owner).2
  (b, s.setBucket b)

end Sys2Proof.Machine
end

