-- ==== Sys2Proof/Machine/Operands.lean ====
section
/-!
DEFINITION. The operands of Drawer commands: opcodes, the header, and where each argument sits (Tables 5-3, 5-4).
-/

namespace Sys2Proof.Machine

/-- The opcodes of the command set (Table 5-4). -/
inductive Op
  | nop | fence | bucketOpen | bucketClose | bucketDiscard | update | emit | loadKernel | copy | fill
  | offloadAct | recallAct | planish | sample | scrub | rebuild | channelRetire | channelAdmit | launchAt | barrier
  | regionSet | partitionSet | powerCap | tinker | query
  deriving DecidableEq, Repr

def Op.code : Op → Nat
  | .nop => 0x01 | .fence => 0x02 | .bucketOpen => 0x10 | .bucketClose => 0x11 | .bucketDiscard => 0x12
  | .update => 0x20 | .emit => 0x21 | .loadKernel => 0x22 | .copy => 0x30 | .fill => 0x31 | .offloadAct => 0x32
  | .recallAct => 0x33 | .planish => 0x40 | .sample => 0x41 | .scrub => 0x50 | .rebuild => 0x51
  | .channelRetire => 0x52 | .channelAdmit => 0x53 | .launchAt => 0x60 | .barrier => 0x61 | .regionSet => 0x70
  | .partitionSet => 0x71 | .powerCap => 0x72 | .tinker => 0x7E | .query => 0x7F

def Op.all : List Op :=
  [.nop, .fence, .bucketOpen, .bucketClose, .bucketDiscard, .update, .emit, .loadKernel, .copy, .fill, .offloadAct,
   .recallAct, .planish, .sample, .scrub, .rebuild, .channelRetire, .channelAdmit, .launchAt, .barrier, .regionSet,
   .partitionSet, .powerCap, .tinker, .query]

def Op.ofCode (c : Nat) : Option Op := Op.all.find? fun o => o.code == c

/-- R19, Table 1-5: commands that only D0 may issue. -/
def Op.onlyD0 : Op → Bool
  | .loadKernel | .rebuild | .channelRetire | .channelAdmit | .regionSet | .partitionSet | .powerCap | .tinker => true
  | _ => false

/-- R129: commands that ARM_NEXT applies to. -/
def Op.armable : Op → Bool
  | .update | .emit | .copy | .fill | .planish | .sample | .recallAct | .tinker => true
  | _ => false

/-- Table 5-4: the named bits of argument words 1 to 7 run from bit 0; how many there are in each word. -/
def Op.argBits : Op → List Nat
  | .nop => []
  | .fence => [1]
  | .bucketOpen => [62, 52, 60]
  | .bucketClose => [45]
  | .bucketDiscard => [44]
  | .update => [63, 57, 32]
  | .emit => [63, 57, 32]
  | .loadKernel => [48]
  | .copy => [45]
  | .fill => [44, 44, 64]
  | .offloadAct => [36, 24]
  | .recallAct => [59, 44, 64]
  | .planish => [52, 44, 44, 44, 44, 64]
  | .sample => [48, 64, 64, 43, 64, 58, 44]
  | .scrub => [44, 44, 44]
  | .rebuild => [9, 44, 44, 44]
  | .channelRetire => [10]
  | .channelAdmit => [8]
  | .launchAt => [64, 1]
  | .barrier => [10, 32]
  | .regionSet => [29]
  | .partitionSet => [47, 32, 48, 44, 32]
  | .powerCap => [32, 17]
  | .tinker => [12, 32, 48, 44]
  | .query => [22, 44, 44]

/-- R122 step 3: is every bit that neither the header nor the layout names clear? -/
def Op.formOk (o : Op) (ws : List Word) : Bool :=
  bits (ws.getD 0 0) 10 22 == 0 &&
    (List.range 7).all fun i => decide ((ws.getD (i + 1) 0).toNat < 2 ^ (o.argBits.getD i 0))

/-- Argument word `i` of a command. -/
def Cmd.w (c : Cmd) (i : Nat) : Word := c.words.getD i 0

/-- Bits `[lo + n - 1 : lo]` of argument word `i`. -/
def Cmd.arg (c : Cmd) (i lo n : Nat) : Nat := bits (c.w i) lo n

/-- One bit of argument word `i`. -/
def Cmd.argBit (c : Cmd) (i k : Nat) : Bool := bitOf (c.w i) k

/-- A field of PA_CFG as it stood when the command started. -/
def Cmd.granted (c : Cmd) (f : Fld) : Nat := Fld.of f c.grants

/-- Header fields (Table 5-3). -/
def Cmd.opcode (c : Cmd) : Nat := if c.lostEntry then 0 else c.arg 0 0 8
def Cmd.waitFlag (c : Cmd) : Bool := c.argBit 0 8
def Cmd.irqFlag (c : Cmd) : Bool := !c.lostEntry && c.argBit 0 9
def Cmd.cmdId (c : Cmd) : Nat := if c.lostEntry then 0 else c.arg 0 32 32

end Sys2Proof.Machine
end

