-- ==== Sys2Proof/Machine/DrawerBase.lean ====
section
/-!
DEFINITION. Ring positions, doorbells, ENABLE, and the started commands of a Drawer (R113 to R119, R124).
-/

namespace Sys2Proof.Machine

/-! ## Positions (R114) -/

/-- Positions count modulo 2^17. -/
def ringMod : Nat := 131072

def State.sqHead (s : State) (d : Nat) : Nat := s.fld F.DR_STAT_SQ_HEAD_PHASE d * 65536 + s.fld F.DR_STAT_SQ_HEAD d
def State.cqTail (s : State) (d : Nat) : Nat := s.fld F.DR_STAT_CQ_TAIL_PHASE d * 65536 + s.fld F.DR_STAT_CQ_TAIL d
def State.sqTail (s : State) (d : Nat) : Nat := s.fld F.DR_DB_SQ_TAIL_PHASE d * 65536 + s.fld F.DR_DB_SQ_TAIL d
def State.cqHead (s : State) (d : Nat) : Nat := s.fld F.DR_DB_CQ_HEAD_PHASE d * 65536 + s.fld F.DR_DB_CQ_HEAD d

def State.setSqHead (s : State) (d p : Nat) : State :=
  (s.put F.DR_STAT_SQ_HEAD d p).put F.DR_STAT_SQ_HEAD_PHASE d (p / 65536)
def State.setCqTail (s : State) (d p : Nat) : State :=
  (s.put F.DR_STAT_CQ_TAIL d p).put F.DR_STAT_CQ_TAIL_PHASE d (p / 65536)
def State.setSqTail (s : State) (d p : Nat) : State :=
  (s.put F.DR_DB_SQ_TAIL d p).put F.DR_DB_SQ_TAIL_PHASE d (p / 65536)
def State.setCqHead (s : State) (d p : Nat) : State :=
  (s.put F.DR_DB_CQ_HEAD d p).put F.DR_DB_CQ_HEAD_PHASE d (p / 65536)

/-- Occupancy of a ring (R114). -/
def occupancy (tail head : Nat) : Nat := (tail + ringMod - head % ringMod) % ringMod

def State.sqSize (s : State) (d : Nat) : Nat := 2 ^ s.fld F.DR_SQ_BASE_SQ_LOG2 d
def State.cqSize (s : State) (d : Nat) : Nat := 2 ^ s.fld F.DR_CQ_BASE_CQ_LOG2 d
def State.sqBase (s : State) (d : Nat) : Nat := s.fld F.DR_SQ_BASE_SQ_BASE d * 4096
def State.cqBase (s : State) (d : Nat) : Nat := s.fld F.DR_CQ_BASE_CQ_BASE d * 4096

/-- Addresses of ring entries (R114). -/
def State.sqEntry (s : State) (d p : Nat) : Nat := s.sqBase d + 64 * (p % s.sqSize d)
def State.cqEntry (s : State) (d p : Nat) : Nat := s.cqBase d + 32 * (p % s.cqSize d)

/-! ## Doorbells (R115) -/

/-- A refused doorbell counts (R115). -/
def State.doorErr (s : State) (d : Nat) : State := s.countSat F.DR_ERR_DOOR_ERR d 1

/-- The submission doorbell. -/
def State.doorSq (s : State) (d p : Nat) : Status × State :=
  if !s.flag F.DR_CTL_ENABLE d then (.notPermitted, s.doorErr d)
  else if s.sqSize d < occupancy p (s.sqHead d) then (.badArg, s.doorErr d)
  else (.ok, s.setSqTail d p)

/-- The completion doorbell. -/
def State.doorCq (s : State) (d p : Nat) : Status × State :=
  if !s.flag F.DR_CTL_ENABLE d then (.notPermitted, s.doorErr d)
  else if s.cqSize d < occupancy (s.cqTail d) p then (.badArg, s.doorErr d)
  else (.ok, s.setCqHead d p)

/-- A CSR write of DR_DBn: both doorbells, each for itself. -/
def State.doorBoth (s : State) (d : Nat) (v : Word) : Status × State :=
  let a := s.doorSq d (bits v 0 17)
  let b := a.2.doorCq d (bits v 32 17)
  (Status.worst a.1 b.1, b.2)

/-! ## ENABLE (R113, R124) -/

/-- R113: does a ring lie wholly in Guarded granules of the Drawer's partition? -/
def State.ringOk (s : State) (d base len log : Nat) : Bool :=
  decide (4 ≤ log) && decide (log ≤ 16) && !s.badWindow base len &&
    (granulesOf base len).all fun g => s.granClass g == 1 && s.granOwner g == d

/-- R134: does a ring of the Drawer lie in a retired channel? -/
def State.ringRetired (s : State) (d : Nat) : Bool :=
  s.touchesRetired (s.sqBase d) (64 * s.sqSize d) || s.touchesRetired (s.cqBase d) (32 * s.cqSize d)

/-- R134: RING_LOST; the records of the started commands are lost with it. -/
def State.ringLost (s : State) (d : Nat) : State :=
  let s := (s.put F.DR_STAT_RING_LOST d 1).raise .integrity
  if (s.drawer d).cmds.isEmpty then s
  else s.setDrawer d { s.drawer d with cmds := (s.drawer d).cmds.map fun c => { c with lostRing := true } }

/-- R113, R124: a change of ENABLE from 0 to 1 checks the rings and puts every position at 0; commands of an earlier ENABLE
that still run keep their names. -/
def State.drawerEnable (s : State) (d : Nat) : State :=
  if s.flag F.DR_CTL_ENABLE d then s
  else if s.ringOk d (s.sqBase d) (64 * s.sqSize d) (s.fld F.DR_SQ_BASE_SQ_LOG2 d) &&
      s.ringOk d (s.cqBase d) (32 * s.cqSize d) (s.fld F.DR_CQ_BASE_CQ_LOG2 d) then
    let s := (((((s.put F.DR_CTL_ENABLE d 1).put F.DR_STAT_RING_LOST d 0).setSqHead d 0).setCqTail d 0).setSqTail d 0).setCqHead d 0
    let x := s.drawer d
    let s := s.setDrawer d { x with records := 0, completed := 0, epoch := if x.cmds.isEmpty then 0 else x.epoch + 1 }
    s.when (s.ringRetired d) (·.ringLost d)
  else (s.put F.DR_CTL_CFG_ERR d 1).raise .drawerErr

/-- R124: clearing ENABLE stops the fetching; RING_LOST falls with it (Table 5-15). -/
def State.drawerDisable (s : State) (d : Nat) : State :=
  (s.put F.DR_CTL_ENABLE d 0).put F.DR_STAT_RING_LOST d 0

/-! ## Started commands -/

/-- The started command of a Drawer with a name. -/
def State.cmd (s : State) (d pos : Nat) : Option Cmd := (s.drawer d).cmds.find? fun c => c.pos == pos

/-- Change a started command. -/
def State.setCmd (s : State) (d : Nat) (c : Cmd) : State :=
  s.setDrawer d { s.drawer d with cmds := (s.drawer d).cmds.map fun x => if x.pos = c.pos then c else x }

/-- Its work has ended, with what its record will say; what it read to learn its work counts in the status (R126). -/
def State.finish (s : State) (d : Nat) (c : Cmd) (st : Status) (detail result : Nat) : State :=
  s.setCmd d { c with
    phase := .done, status := Status.worst st c.soft, detail := detail, result := result, armedClose := false }

/-- R126: a command has read part of a structure of its own: a descriptor, a list, a scalar set, a bag or an image. -/
def State.hasRead (s : State) (d pos : Nat) (st : Status) : State :=
  match s.cmd d pos with
  | some c => if st = .ok then s else s.setCmd d { c with soft := Status.worst c.soft st }
  | none => s

/-- The command a row names, when it is started, of that opcode and has not run. -/
def State.ready (s : State) (d pos : Nat) (o : Op) : Option Cmd :=
  match s.cmd d pos with
  | some c => if c.phase = .started ∧ c.opcode = o.code ∧ d < 64 ∧ !s.stalled then some c else none
  | none => none

/-- Commands that count toward the limit of 8 (R120). -/
def Drawer.started (x : Drawer) : Nat := (x.cmds.filter fun c => !c.armedClose).length

/-- Is a FENCE of the Drawer still waiting? -/
def Drawer.fenced (x : Drawer) : Bool := x.cmds.any fun c => c.opcode == Op.fence.code && c.phase != .done

/-- Is the Drawer's gate closed (R129, R130)? -/
def Drawer.gated (x : Drawer) : Bool :=
  x.barrier.isSome || (match x.launch with
    | some l => l.opened.isNone
    | none => false)

/-- Update every started command of every Drawer. -/
def State.mapCmds (s : State) (f : Nat → Cmd → Cmd) : State :=
  (List.range 64).foldl (fun s d =>
    if (s.drawer d).cmds.isEmpty then s
    else s.setDrawer d { s.drawer d with cmds := (s.drawer d).cmds.map (f d) }) s

/-- Does some started command of some Drawer fulfil `p`? -/
def State.anyCmd (s : State) (p : Nat → Cmd → Bool) : Bool := (List.range 64).any fun d => (s.drawer d).cmds.any (p d)

/-- The started commands of every Drawer, with their Drawers. -/
def State.busyCmds (s : State) : List (Nat × Cmd) :=
  (List.range 64).flatMap fun d => (s.drawer d).cmds.map fun c => (d, c)

/-! ## Queries over commands -/

/-- The command that holds a range over an address (R16), until its record is written. -/
def State.rangeHeld (s : State) (a len : Nat) : Bool :=
  s.anyCmd fun _ c => c.holds.any fun r => overlap a len r.lo r.len

/-- Is an address in a granule that a REGION_SET holds (R131)? -/
def State.regionHeld (s : State) (a : Nat) : Bool := s.flag F.RG_GRAN_BUSY (a / gib)

end Sys2Proof.Machine
end

