-- ==== Sys2Proof/Machine/PortBase.lean ====
section
/-!
DEFINITION. Credits, tags and responses of the ports (R168 to R171, R224), and the recovery of a port (R182).
-/

namespace Sys2Proof

/-! ## Headers and check values (R160, R162, R166) -/

/-- HCRC over header bits [111:0]. -/
def hcrcOf (h : BitVec 112) : BitVec 16 := crc16 0xFFFF#16 (bytesOf 14 h)

/-- Bits [111:0] of a request header (Table 7-2). -/
def ReqHdr.low (h : ReqHdr) (type : BitVec 4) : BitVec 112 :=
  h.rsv ++ h.scl ++ h.masked ++ h.asz ++ h.aop ++ h.og ++ h.lenM1 ++ h.addr ++ h.tc ++ h.part ++ h.tag ++ type

def ReqHdr.len (h : ReqHdr) : Nat := h.lenM1.toNat + 1
def ReqHdr.a (h : ReqHdr) : Nat := h.addr.toNat
def ReqHdr.p (h : ReqHdr) : Nat := h.part.toNat
def ReqHdr.isMasked (h : ReqHdr) : Bool := h.masked == 1#1

/-- Does the header pass its HCRC? -/
def ReqHdr.good (h : ReqHdr) (type : BitVec 4) : Bool := hcrcOf (h.low type) == h.hcrc

/-- Bits [111:0] of a response header (Table 7-4). -/
def RspHdr.low (h : RspHdr) : BitVec 112 := h.rest ++ h.status ++ h.tc ++ h.part ++ h.tag ++ 8#4

def RspHdr.good (h : RspHdr) : Bool := hcrcOf h.low == h.hcrc

end Sys2Proof

namespace Sys2Proof.Machine

/-- The header the block sends for a response (R162). -/
def rspHeader (tag : BitVec 10) (part : BitVec 6) (tc : BitVec 2) (st : Status) (hm : Bool) (sectors : Nat) : BitVec 128 :=
  let low : BitVec 112 := BitVec.ofNat 112 ((if sectors = 0 then 8 else 9) + tag.toNat * 2 ^ 4 + part.toNat * 2 ^ 14
    + tc.toNat * 2 ^ 20 + st.code * 2 ^ 22 + (if hm then 2 ^ 30 else 0) + (sectors - 1) * 2 ^ 31)
  hcrcOf low ++ low

/-- Request types of Table 7-3. -/
inductive ReqType | rd | wr | wrFinal | acc | atom | rndrd | door
  deriving DecidableEq, Repr

def ReqType.code : ReqType → BitVec 4
  | .rd => 1 | .wr => 2 | .wrFinal => 3 | .acc => 4 | .atom => 5 | .rndrd => 6 | .door => 7

/-- The type of a kind of request. -/
def ReqKind.type : ReqKind → ReqType
  | .rd => .rd | .wr => .wr | .wrFinal => .wrFinal | .acc => .acc | .atom => .atom

/-- R170: the data sectors a request carries. -/
def carried (t : ReqType) (h : ReqHdr) : Nat :=
  match t with
  | .rd | .rndrd => 0
  | .wr => if h.isMasked then 1 else h.len
  | .wrFinal => h.len
  | .acc => h.scl.toNat + h.len
  | .atom | .door => 1

/-- The header of a block write (R160, R177): WR or WR_FINAL in TC1, of `n` sectors. -/
def OutWrite.header (w : OutWrite) (tag n : Nat) : BitVec 128 :=
  let h : ReqHdr := ⟨BitVec.ofNat 10 tag, BitVec.ofNat 6 w.part, 1, BitVec.ofNat 44 w.addr, BitVec.ofNat 5 (n - 1),
    BitVec.ofNat 8 w.og, 0, 0, 0, 0, 0, 0⟩
  let low := h.low (if w.final then ReqType.wrFinal.code else ReqType.wr.code)
  hcrcOf low ++ low

/-! ## Accounts and shares (R170) -/

def Port.account (x : Port) (part tc : Nat) : Account := Tab.get (fun _ => .zero) x.accounts (2 * part + tc)
def Port.setAccount (x : Port) (part tc : Nat) (a : Account) : Port :=
  { x with accounts := Tab.set (fun _ => .zero) x.accounts (2 * part + tc) a }
def Port.pool (x : Port) (tc : Nat) : Credits := Tab.get (fun _ => .zero) x.pools tc
def Port.setPool (x : Port) (tc : Nat) (c : Credits) : Port := { x with pools := Tab.set (fun _ => .zero) x.pools tc c }
def Port.size (x : Port) (tc : Nat) : Credits := Tab.get (fun _ => .zero) x.sizes tc

/-- R170: does partition `part` take a share of class `tc` on port `p`? -/
def State.shares (s : State) (p part tc : Nat) : Bool :=
  s.flag F.PA_CFG_ENABLE part && s.bit F.PA_PORTS_PORT_MASK part p && (tc == 1 || s.flag F.PA_CFG_TC0_EN part)

/-- The partitions that take a share. -/
def State.sharers (s : State) (p tc : Nat) : List Nat := (List.range 64).filter fun n => s.shares p n tc

/-- R170: the share of an account, rounded down. -/
def State.share (s : State) (p part tc : Nat) : Credits :=
  if s.shares p part tc then
    let k := (s.sharers p tc).length
    ⟨((s.port p).size tc).hdr / k, ((s.port p).size tc).sect / k⟩
  else .zero

/-- Credit returns on the lane (Table 7-6): each of at most 1,023 headers and 4,095 sectors. -/
def State.sendCredit (s : State) (p part tc : Nat) (c : Credits) : State :=
  let one (s : State) (h n : Nat) : State := if h = 0 ∧ n = 0 then s else s.emit (.credit p tc part h n)
  one (one s (Nat.min c.hdr 1023) (Nat.min c.sect 4095)) (c.hdr - 1023) (c.sect - 4095)

/-- Grant an account what its share allows from the pool (R170). -/
def State.topUp (s : State) (p part tc : Nat) : State :=
  let x := s.port p
  let a := x.account part tc
  let sh := s.share p part tc
  let pool := x.pool tc
  let g : Credits := ⟨Nat.min (sh.hdr - a.alloc.hdr) pool.hdr, Nat.min (sh.sect - a.alloc.sect) pool.sect⟩
  let x := x.setAccount part tc
    ⟨⟨a.held.hdr + g.hdr, a.held.sect + g.sect⟩, ⟨a.alloc.hdr + g.hdr, a.alloc.sect + g.sect⟩⟩
  ((s.setPort p (x.setPool tc ⟨pool.hdr - g.hdr, pool.sect - g.sect⟩)).sendCredit p part tc g)

/-- R170: the shares are computed again, and raised ones granted from the pool. -/
def State.rebalance (s : State) (p tc : Nat) : State := (s.sharers p tc).foldl (fun s n => s.topUp p n tc) s

/-- Requests of a port that are not answered, which a channel out of service keeps over a warm start (R324). -/
def State.heldReqs (s : State) (p : Nat) : List Req :=
  ((s.ports.waits.map (·.req)) ++ (Tab.keys s.mem.chans).flatMap fun n => (s.chan n).retry.map (·.req)).filter
    fun q => q.port == p

/-- The credits that a request not answered uses stay used, and are no part of what is granted. -/
def State.occupy (s : State) (p : Nat) (q : Req) : State :=
  let h := q.r.hdr
  let n := if q.credit then carried q.kind.type h else 0
  let x := s.port p
  let a := x.account h.p h.tc.toNat
  let pool := x.pool h.tc.toNat
  s.setPort p ((x.setAccount h.p h.tc.toNat ⟨a.held, ⟨a.alloc.hdr + 1, a.alloc.sect + n⟩⟩).setPool h.tc.toNat
    ⟨pool.hdr - 1, pool.sect - n⟩)

/-- R170, R314: grant the shares of a port afresh: all accounts empty but for what held requests use, the pools at the sizes
PT_CREDp gives. -/
def State.grantPort (s : State) (p : Nat) : State :=
  let h := Nat.min (s.fld F.PT_CRED_TC0_HDR p) 1024
  let c := Nat.min (s.fld F.PT_CRED_TC0_SECT p) 4096
  let sizes : Tab Credits := Tab.set (fun _ => .zero) (Tab.set (fun _ => .zero) [] 0 ⟨h, c⟩) 1 ⟨1024 - h, 4096 - c⟩
  let s := s.setPort p { s.port p with accounts := [], sizes := sizes, pools := sizes, returns := [] }
  let s := (s.heldReqs p).foldl (fun s q => s.occupy p q) s
  (s.rebalance p 0).rebalance p 1

/-- Are credit returns held on every port (R307, R321, R325)? -/
def State.creditsHeld (s : State) : Bool := s.life.closing || s.life.paused

/-- Give a return to its account, or to the pool where the account is above its share (R170). -/
def State.giveBack (s : State) (p : Nat) (h : HeldReturn) : State :=
  let x := s.port p
  let a := x.account h.part h.tc
  let sh := s.share p h.part h.tc
  let toPool : Credits := ⟨Nat.min h.c.hdr (a.alloc.hdr - sh.hdr), Nat.min h.c.sect (a.alloc.sect - sh.sect)⟩
  let rest : Credits := ⟨h.c.hdr - toPool.hdr, h.c.sect - toPool.sect⟩
  let x := x.setAccount h.part h.tc ⟨⟨a.held.hdr + rest.hdr, a.held.sect + rest.sect⟩,
    ⟨a.alloc.hdr - toPool.hdr, a.alloc.sect - toPool.sect⟩⟩
  let x := x.setPool h.tc ⟨(x.pool h.tc).hdr + toPool.hdr, (x.pool h.tc).sect + toPool.sect⟩
  let s := (s.setPort p x).sendCredit p h.part h.tc rest
  if toPool.hdr = 0 ∧ toPool.sect = 0 then s else s.rebalance p h.tc

/-- R171: return credits, held back while the partition's regulator has no tokens, and not at all in FAULT (R182) nor before
release (R183). -/
def State.returnCredit (s : State) (p part tc hdr sect : Nat) : State :=
  if s.flag F.PT_STAT_FAULT p || !s.flag F.PT_STAT_RELEASED p || (hdr == 0 && sect == 0) || decide (2 ≤ tc) then s
  else if s.dry part then
    let s := { s with ports := { s.ports with
      stalls := Tab.modify (fun _ => 0) s.ports.stalls part fun v => (v + 1) % 2 ^ 48 } }
    s.setPort p { s.port p with returns := (s.port p).returns ++ [⟨part, tc, ⟨hdr, sect⟩⟩] }
  else if s.creditsHeld then
    s.setPort p { s.port p with returns := (s.port p).returns ++ [⟨part, tc, ⟨hdr, sect⟩⟩] }
  else s.giveBack p ⟨part, tc, ⟨hdr, sect⟩⟩

/-- Release the held returns that nothing holds any longer; a port in FAULT returns none (R182). -/
def State.releaseReturns (s : State) (p : Nat) : State :=
  if s.creditsHeld || s.flag F.PT_STAT_FAULT p then s
  else
    let rs := (s.port p).returns
    let s := s.setPort p { s.port p with returns := rs.filter fun h => s.dry h.part }
    (rs.filter fun h => !s.dry h.part).foldl (fun s h => s.giveBack p h) s

/-! ## Flags, tags, responses -/

/-- Set a flag of PT_FLAGSp; it raises the port interrupt (R187). -/
def State.portFlag (s : State) (f : Fld) (p : Nat) : State := (s.put f p 1).raise .port

/-- R182: count a protocol error. -/
def State.protoErr (s : State) (p : Nat) : State := s.count F.PT_PROTO_COUNT F.PT_PROTO_OVF p 1

/-- Traffic of a partition: bytes in or out, and the regulator's charge (R224, Table 5-8). -/
def State.traffic (s : State) (part sectors : Nat) (inbound : Bool) : State :=
  let add := fun v => (v + 64 * sectors) % 2 ^ 48
  let s := if inbound then
      { s with ports := { s.ports with bytesIn := Tab.modify (fun _ => 0) s.ports.bytesIn part add } }
    else { s with ports := { s.ports with bytesOut := Tab.modify (fun _ => 0) s.ports.bytesOut part add } }
  (s.spend part (64 * sectors)).charge part 0 (Nat.max 1 ((sectors + 1) / 2))

/-- R168: the check of a sector that leaves a port; a failing one goes out unchanged with FAULT set. -/
def egress (x : Sec) : Sec := if x.good then x else { x with fault := true }

/-- Send the response of a request and free its tag; the header credit returns (R162, R168, R169, R171). -/
def State.respond (s : State) (p : Nat) (h : ReqHdr) (st : Status) (hm : Bool) (xs : List Sec) : State :=
  let bad := xs.any fun x => !x.good
  let s := s.when bad (·.portFlag F.PT_FLAGS_HM_OUT p)
  let st := if bad then Status.worst st .dataFault else st
  let s := (s.emit (.rsp p h.tag h.part h.tc st hm (xs.map egress))).traffic h.part.toNat xs.length false
  let s := s.setPort p { s.port p with tags := Tab.set (fun _ => false) (s.port p).tags h.tag.toNat false }
  s.returnCredit p h.part.toNat h.tc.toNat 1 0

/-! ## Recovery (R182) -/

/-- R182: PORT_RESET starts. -/
def State.portReset (s : State) (p : Nat) : State := s.put F.PT_STAT_RESETTING p 1

/-- Partner tags in use. -/
def Port.busyTags (x : Port) : Nat := (x.tags.filter (·.2)).length
/-- Block tags in use, abandoned ones included, since they are not reused before PORT_RESET (R177). -/
def Port.busyBlockTags (x : Port) : Nat := (x.btags.filter (·.2.isSome)).length

end Sys2Proof.Machine
end

