-- ==== Sys2Proof/Machine/Controls.lean ====
section
/-!
DEFINITION. What writing a register field starts: Sideboard control (R221, R222), the noise source (R276, R277), the
partition seeds (R271), the SYNC ring and GT_STEP (R268, R283), operating points (R294), the Bureau (R320).
-/

namespace Sys2Proof.Machine

/-! ## Sideboard (R221, R222) -/

/-- The slices that hold lines or stores. -/
def State.slicesHeld (s : State) : List Nat := Tab.keys s.mem.slices

/-- Positions of the bursts with a dirty line in a slice. -/
def Slice.dirtyBursts (x : Slice) : List Nat :=
  ((x.lines.filter fun y => !y.dirtySecs.isEmpty).map fun y => y.unit / 4).dedup

/-- Bursts of a slice whose dirty lines must wait: the channel is on its way back, or in self-refresh (R307), or their bank
group computes (R149). -/
def State.burstsHeld (s : State) (n : Nat) : List Nat :=
  (s.slice n).dirtyBursts.filter fun m => s.recovering n ||
    (s.slice n).lines.any fun y => y.unit / 4 == m && !s.lineGoes n y

/-- Write back every dirty line of a slice that can go to DRAM now (or, in a retired channel, is dropped). -/
def State.flushSlice (s : State) (n : Nat) : State :=
  let held := s.burstsHeld n
  ((s.slice n).dirtyBursts.filter fun m => !held.contains m).foldl (fun s m => s.writeBackBurst n m 0) s

/-- R221: FLUSH. -/
def State.flush (s : State) : State := s.slicesHeld.foldl State.flushSlice (s.put F.SB_STAT_FLUSHING 0 1)

/-- Does some dirty line still wait to be written back? -/
def State.dirtyHeld (s : State) : Bool := s.slicesHeld.any fun n => !(s.burstsHeld n).isEmpty

/-- Take lines from a set until it fits its ways (R222). -/
def State.trimSet (n set : Nat) : Nat → State → State
  | 0, s => s
  | fuel + 1, s =>
    if ((s.slice n).lines.filter fun y => y.set == set).length ≤ s.ways then s
    else match s.makeRoom n set 0 with
      | some s => State.trimSet n set fuel s
      | none => s

/-- Every set of a slice fits its ways. -/
def State.trimSlice (s : State) (n : Nat) : State :=
  ((s.slice n).lines.map Line.set).dedup.foldl (fun s t => State.trimSet n t 16 s) s

/-- Does every set fit its ways? -/
def State.trimmed (s : State) : Bool :=
  s.slicesHeld.all fun n => ((s.slice n).lines.map Line.set).dedup.all fun t =>
    decide (((s.slice n).lines.filter fun y => y.set == t).length ≤ s.ways)

/-- R222: a write of RES_WAYS.  A value above 12 written while a bucket is not FREE meets two refusals in one field; R341 does
not say which status counts, and the model answers BAD_ARG (DESIGN CHOICE, log 35). -/
def State.resWays (s : State) (v : Nat) : Status × State :=
  if 12 < v then (.badArg, s)
  else if v = s.fld F.SB_CTL_RES_WAYS 0 then (.ok, s)
  else if !s.draws.buckets.isEmpty then (.notPermitted, s)
  else
    let s := (s.put F.SB_CTL_RES_WAYS 0 v).put F.SB_STAT_RES_CHANGING 0 1
    (.ok, s.slicesHeld.foldl State.trimSlice s)

/-! ## Noise source and seeds (R271, R276, R277) -/

def State.osc (s : State) (k : Nat) : Osc := Tab.get (fun _ => .fresh) s.time.osc k
def State.setOsc (s : State) (k : Nat) (o : Osc) : State :=
  { s with time := { s.time with osc := Tab.set (fun _ => .fresh) s.time.osc k o } }

/-- Is oscillator `k` healthy and in use? -/
def State.oscOk (s : State) (k : Nat) : Bool :=
  s.flag F.CR_CTL_NS_EN 0 && (s.osc k).startup == 0 && !s.bit F.CR_NS_STAT_OSC_FAIL 0 k

/-- The healthy oscillators. -/
def State.healthy (s : State) : List Nat := (List.range 8).filter s.oscOk

def State.seedErr (s : State) : State := (s.put F.CR_NS_STAT_SEED_ERR 0 1).raise .crucible

def State.setSeedBits (s : State) (b : Option (List Bool)) : State := { s with time := { s.time with seedBits := b } }

/-- R277: SEED_REQ. -/
def State.seedReq (s : State) : State :=
  if s.time.seedBits.isSome || s.flag F.CR_NS_STAT_SEED_READY 0 then s
  else if s.healthy.length < 4 then s.seedErr
  else s.setSeedBits (some [])

/-- R276: NS_RESTART runs the start-up test on every failed oscillator. -/
def State.nsRestart (s : State) : State :=
  (List.range 8).foldl (fun s k =>
    if s.bit F.CR_NS_STAT_OSC_FAIL 0 k then (s.setOsc k .fresh).putBit F.CR_NS_STAT_OSC_FAIL 0 k false else s) s

/-- R277, R332: a read of CR_NS_DATA3 consumes a waiting seed. -/
def State.seedConsume (s : State) : State :=
  if s.flag F.CR_NS_STAT_SEED_READY 0 then
    (List.range 4).foldl (fun s w => s.setReg .CR_NS_DATA w 0) (s.put F.CR_NS_STAT_SEED_READY 0 0)
  else s

/-- R271: the staged words equal the committed ones until one is written; here only written ones are listed. -/
def State.staged (s : State) (n w : Nat) : Word := Tab.get (fun _ => 0#64) s.time.staged (3 * n + w)

/-- R271: a write of a seed word: words 0 to 2 are staged, word 3 commits all four. -/
def State.seedWrite (s : State) (n w : Nat) (v : Word) : State :=
  if w < 3 then { s with time := { s.time with staged := Tab.set (fun _ => 0#64) s.time.staged (3 * n + w) v } }
  else (List.range 4).foldl (fun s k => s.setReg .CR_SEED (4 * n + k) (if k = 3 then v else s.staged n k)) s

/-- R271: the committed seed of a partition. -/
def State.seed (s : State) (n : Nat) : BitVec 256 :=
  s.reg .CR_SEED (4 * n + 3) ++ s.reg .CR_SEED (4 * n + 2) ++ s.reg .CR_SEED (4 * n + 1) ++ s.reg .CR_SEED (4 * n)

/-! ## SYNC (R282, R283) -/

/-- The frame types of Table 11-5. -/
def syncAlign : BitVec 4 := 1
def syncArrive : BitVec 4 := 2
def syncRelease : BitVec 4 := 3
def syncWithdraw : BitVec 4 := 4

/-- R282: the CRC of a frame: TYPE as byte 0, then PAYLOAD, most significant byte first. -/
def syncCrc (type : BitVec 4) (payload : BitVec 72) : BitVec 16 :=
  crc16 0xFFFF#16 (type.setWidth 8 :: (bytesOf 9 payload).reverse)

/-- A frame of the block's own. -/
def syncFrame (type : BitVec 4) (payload : BitVec 72) : SyncFrame := ⟨payload, syncCrc type payload⟩

/-- R283: the root sends ALIGN carrying its GTC. -/
def State.sendAlign (s : State) : State :=
  if s.flag F.GT_CTL_ROOT 0 && s.flag F.GT_CTL_SYNC_EN 0 then
    s.emit (.sync syncAlign (syncFrame syncAlign (BitVec.ofNat 72 s.gtc)))
  else s

/-- R268: ADVANCE. -/
def State.advance (s : State) : State := s.put F.GT_STEP_STEP 0 (s.fld F.GT_STEP_STEP 0 + 1)

/-! ## Operating points (R294) -/

/-- R294: a write of TARGET_OP, against the supply sensed last. -/
def State.targetOp (s : State) (v : Nat) : Status × State :=
  if s.flag F.PW_OP_CTL_BUSY 0 then (.notPermitted, s)
  else if v = 3 ∨ s.fld F.PW_OP_CTL_OP_MAX 0 < v then (.badArg, s)
  else
    let cur := s.fld F.PW_OP_CTL_CUR_OP 0
    let s := s.put F.PW_OP_CTL_TARGET_OP 0 v
    if v = cur then (.ok, s)
    else if cur < v ∧ s.fld F.PW_DOM_STAT_SENSE_MV 0 < s.fld F.PW_FUSE_OP_VMIN_MV v then
      (.ok, (s.put F.PW_OP_CTL_OP_ERR 0 1).raise .power)
    else (.ok, s.put F.PW_OP_CTL_BUSY 0 1)

/-! ## Planisher mode: the limit (R150) -/

/-- R150: the limit has fallen: in a pseudo-channel with two computing bank groups the later one exits, and its work waits to go
on. -/
def State.trimMode (s : State) (n : Nat) : State :=
  (List.range 2).foldl (fun s pc =>
    if s.computing n pc ≤ s.plLimit then s
    else match ((s.chan n).plOrder.filter fun k => k / 4 == pc).getLast? with
      | some k => s.stepOut n k
      | none => s) s

/-! ## Actuators and THROTTLE_REQ (R301 to R304) -/

/-- The levels in force: for each actuator the larger of the governor's level and the thermal one, with PL_ONE; and
THROTTLE_REQ, which is 15 at TH_CRIT and during a coolant stop (R302 to R304, R307). -/
def State.applyLevels (s : State) : State :=
  let p := s.power
  let s := s.put F.PW_GOV_STAT_LVL_ACT 0 (Nat.max p.govAct p.thermAct)
  let s := s.put F.PW_GOV_STAT_LVL_PL 0 (Nat.max p.govPl (Nat.max p.thermPl (s.fld F.PW_GOV_CFG_PL_ONE 0)))
  let s := s.put F.PW_GOV_STAT_LVL_AV 0 p.govAv
  let s := s.put F.PW_GOV_STAT_LVL_PHY 0 p.govPhy
  let s := s.put F.PW_GOV_STAT_THROTTLE 0
    (if p.crit || s.life.paused then 15
     else Nat.max (s.fld F.PW_GOV_STAT_THR_BUDGET 0) (s.fld F.PW_GOV_STAT_THR_THERM 0))
  ((Tab.keys s.mem.chans).filter fun n => !(s.chan n).plOrder.isEmpty).foldl State.trimMode s

/-! ## The Bureau (R320) -/

/-- R320: an event asks for a Bureau write; events that meet a running write merge into one further write. -/
def State.bureauEvent (s : State) : State :=
  { s with life := { s.life with bureau := { s.life.bureau with pending := true } } }

/-! ## Life cycle -/

/-- STATE of LC_STAT (Table 13-11). -/
def State.lc (s : State) : Nat := s.fld F.LC_STAT_STATE 0

def lcPll : Nat := 0
def lcBoot : Nat := 1
def lcFuse : Nat := 2
def lcBureau : Nat := 3
def lcIdentity : Nat := 4
def lcWait : Nat := 5
def lcTraining : Nat := 6
def lcBist : Nat := 7
def lcFill : Nat := 8
def lcReleased : Nat := 9
def lcHeld : Nat := 10
def lcPfDrain : Nat := 11
def lcPfDone : Nat := 12
def lcWrstDrain : Nat := 13
def lcWarm : Nat := 14

/-- Ticks in a millisecond. -/
def ticksPerMs : Nat := 1600000

/-- R313, R307: has COOLANT_OK been high long enough?  An input that never fell since PORST_N rose has. -/
def State.coolReady (s : State) : Bool :=
  s.life.coolantOk && (!s.life.coolFell || decide (s.fld F.PW_COOL_COOL_HOLD 0 * ticksPerMs ≤ s.life.coolTicks))

/-- R313, R323: has PWR_FAIL_N been high for a millisecond? -/
def State.pfReady (s : State) : Bool := s.life.pwrFailN && (!s.life.pfFell || decide (ticksPerMs ≤ s.life.pfTicks))

/-- May CSR space be reached (R19, R314, R315)?  From release until the next drain has ended. -/
def State.csrOpen (s : State) : Bool := s.life.porstN && (s.lc == lcReleased || s.lc == lcPfDrain)

/-- THROTTLE_REQ (R304, R315): 15 until the first temperature reading. -/
def State.throttle (s : State) : Nat := if s.life.firstTemp then s.fld F.PW_GOV_STAT_THROTTLE 0 else 15

end Sys2Proof.Machine
end

