-- ==== Sys2Proof/Machine/Csr.lean ====
section
/-!
DEFINITION. Reading and writing CSR space (R9, R10, R330 to R332, R341), with the fields that are live views of other
state.
-/

namespace Sys2Proof.Machine

/-! ## Live fields -/

/-- Set field `f` of a word being read. -/
def live (f : Fld) (v : Nat) (w : Word) : Word := Fld.into f w v

def b2n (b : Bool) : Nat := if b then 1 else 0

/-- Is some index of a family's one-bit field set? -/
def State.anySet (s : State) (f : Fld) : Bool := (List.range f.reg.count).any fun i => s.flag f i

/-- R244 to R248: the live fields of IN_MEND_STATc. -/
def State.outSites (s : State) (c : Nat) : Nat :=
  (s.mendSites.filter fun t => let st := s.chanState (32 * t + c); st == 1 || st == 2 || st == 3).foldl (fun v t => v + 2 ^ t) 0
def State.outCount (s : State) (c : Nat) : Nat :=
  (s.mendSites.filter fun t => let st := s.chanState (32 * t + c); st == 1 || st == 2 || st == 3).length
def Mend.staleBits (u : Mend) : Nat := (u.maps.map fun e => (e.2.filter (·.2)).length).foldl (· + ·) 0

/-- Does a channel have stale regions (R246)? -/
def State.hasStale (s : State) (n : Nat) : Bool :=
  let u := s.mend (n % 32)
  u.wholly.contains (n / 32) || u.maps.any fun e => e.1 == n / 32 && !e.2.isEmpty

/-- R338: the families of wrapping counters, in the bit order of Table 14-11. -/
def ovfFamilies : List (List Fld) :=
  [[F.AV_STALL_STALL_OVF], [F.AV_ACC_REFUSED_OVF], [F.AV_SPILL_OPS_OVF], [F.PT_PROTO_OVF], [F.PT_HM_OVF],
   [F.PT_STARVE_OVF], [F.SB_HITS_OVF, F.SB_MISSES_OVF], [F.CE_CORR_OVF, F.CE_UNCORR_OVF], [F.CE_PL_PREEMPT_OVF],
   [F.CR_SMP_ROWS_OVF], [F.IN_LOG_LOST_OVF], [F.PW_STRETCH_OVF], [F.LC_DROPS_OVF]]

/-- R338. -/
def State.ovfSrc (s : State) : Nat :=
  ovfFamilies.zipIdx.foldl (fun v e => v + (if e.1.any s.anySet then 2 ^ e.2 else 0)) 0

/-- Table 14-7: the DRAWER bits. -/
def State.drawerBits (s : State) : Nat :=
  (List.range 4).foldl (fun v k => v + (if s.fld F.MW_IRQ_DRAWER_PENDING 0 / 2 ^ (16 * k) % 65536 = 0 then 0 else 2 ^ k)) 0

/-- R334. -/
def State.mwStat (s : State) (w : Word) : Word :=
  let w := live F.MW_STAT_LC_STATE s.lc w
  let w := live F.MW_STAT_CUR_OP (s.fld F.PW_OP_CTL_CUR_OP 0) w
  let w := live F.MW_STAT_STOPPED (s.fld F.PW_COOL_STOPPED 0) w
  let w := live F.MW_STAT_STRETCHING (s.fld F.PW_MON_STAT_STRETCHING 0) w
  let w := live F.MW_STAT_THROTTLE s.throttle w
  let w := live F.MW_STAT_CH_RECOVERING (b2n ((List.range 256).any fun n => s.chanState n == 1 || s.chanState n == 2)) w
  let w := live F.MW_STAT_ANY_RETIRED (b2n ((List.range 4).any fun k => s.reg .IN_RETIRED k != 0#64)) w
  let w := live F.MW_STAT_MEND_DEGRADED (b2n ((List.range 32).any fun c => s.outCount c != 0)) w
  let w := live F.MW_STAT_MEND_TWO_OUT (b2n ((List.range 32).any fun c => decide (2 ≤ s.outCount c))) w
  let w := live F.MW_STAT_PORT_FAULT (b2n (s.anySet F.PT_STAT_FAULT)) w
  live F.MW_STAT_LOG_PENDING (b2n (s.fld F.IN_LOG_PTR_HEAD 0 != s.fld F.IN_LOG_PTR_TAIL 0)) w

/-- Is a Drawer idle: nothing fetched, waiting or started (Table 5-15)? -/
def State.drawerIdle (s : State) (d : Nat) : Bool :=
  (s.drawer d).cmds.isEmpty && occupancy (s.sqTail d) (s.sqHead d) == 0

/-- Free pool lines of the used slices, and the first slice with the fewest (Table 9-9). -/
def State.reserveMin (s : State) : Nat × Nat :=
  let use := s.reserveUse
  let sl := (List.range 256).filter fun n => s.chanState n != 4
  sl.foldl (fun (acc : Nat × Nat) n =>
    let f := s.poolLines - Tab.get (fun _ => 0) use n
    if f < acc.1 then (f, n) else acc) (match sl with
      | n :: _ => (s.poolLines - Tab.get (fun _ => 0) use n, n)
      | [] => (0, 0))

/-- BAR_ID bits of the BARRIERs that wait in this block (Table 11-10). -/
def State.barWaiting (s : State) : Nat :=
  (List.range 64).foldl (fun v d => match (s.drawer d).barrier with
    | some b => v ||| 2 ^ (b.id % 16)
    | none => v) 0

/-- Commands in a channel's Planisher queue (Table 6-8). -/
def State.planQueue (s : State) (n : Nat) : Nat :=
  ((List.range 64).map fun d => ((s.drawer d).cmds.filter fun c =>
    c.phase != .done && c.queuedOn.contains n).length).foldl (· + ·) 0

/-- Does a SAMPLE run (Table 6-10)?  Its rows are in the Sampler only while its work is done, inside one step: IN_FLIGHT
reads 0. -/
def State.sampling (s : State) : Bool :=
  s.anyCmd fun _ c => c.opcode == Op.sample.code && c.phase != .armed && c.phase != .done

/-- The word a read of a register takes (R331): the stored fields and the live ones. -/
def State.view (s : State) (r : Reg) (i : Nat) : Word :=
  let w := s.reg r i
  match r with
  | .MW_STAT => s.mwStat w
  | .MW_IRQ_CAUSE => live F.MW_IRQ_CAUSE_DRAWER s.drawerBits w
  | .MW_OVF_SRC => BitVec.ofNat 64 s.ovfSrc
  | .PW_GOV_STAT => live F.PW_GOV_STAT_THROTTLE s.throttle w
  | .PW_SLACK =>
    live F.PW_SLACK_HEADROOM (s.fld F.PW_GOV_CFG_CAP 0 + 65536 - s.fld F.PW_GOV_STAT_P_AVG 0) w
  | .PW_COOL => live F.PW_COOL_COOLANT (b2n s.life.coolantOk) w
  | .PW_ENERGY => BitVec.ofNat 64 (s.energyNJ i)
  | .LC_STAT =>
    let waits := s.lc == lcWait || s.lc == lcWarm
    live F.LC_STAT_ELAPSED_MS (Nat.min 65535 ((s.tick - s.life.startTick) / ticksPerMs))
      (live F.LC_STAT_WAIT_COOL (b2n (waits && !s.coolReady)) (live F.LC_STAT_WAIT_PF (b2n (waits && !s.pfReady)) w))
  | .PT_STAT =>
    live F.PT_STAT_TAGS_BUSY (s.port i).busyTags (live F.PT_STAT_OUT_BUSY (s.port i).busyBlockTags w)
  | .PT_MGT_ID => live F.PT_MGT_ID_DN_PRESENT (b2n s.life.dnPresent) w
  | .PA_TOKENS =>
    let t := Tab.get (fun _ => (0 : Int)) s.ports.tokens i
    live F.PA_TOKENS_TOKENS ((t / 16) % 2 ^ 40).toNat
      (live F.PA_TOKENS_HELD (b2n ((List.range 32).any fun p => (s.port p).returns.any fun h => h.part == i)) w)
  | .DR_STAT =>
    live F.DR_STAT_STARTED (s.drawer i).started
      (live F.DR_STAT_GATED (b2n (s.drawer i).gated) (live F.DR_STAT_IDLE (b2n (s.drawerIdle i)) w))
  | .SB_STAT => live F.SB_STAT_RES_FREE_MIN s.reserveMin.1 (live F.SB_STAT_RES_FREE_SLICE s.reserveMin.2 w)
  | .AV_BKT_STAT =>
    live F.AV_BKT_STAT_OPEN s.draws.buckets.length
      (live F.AV_BKT_STAT_SPILLED (s.draws.buckets.filter fun b => !b.spilled.isEmpty).length
        (live F.AV_BKT_STAT_RES_LINES
          ((s.draws.buckets.map fun b => b.lines - b.spilled.length).foldl (· + ·) 0) w))
  | .AV_ENG =>
    live F.AV_ENG_HALF_RATE (b2n (s.flag F.AV_ENG_POWERED i &&
      (s.chanState (32 * (i / 16) + i % 16) != 0 || s.chanState (32 * (i / 16) + i % 16 + 16) != 0))) w
  | .IN_MEND_STAT =>
    live F.IN_MEND_STAT_OUT_SITES (s.outSites i) (live F.IN_MEND_STAT_TWO_OUT (b2n (decide (2 ≤ s.outCount i)))
      (live F.IN_MEND_STAT_ROWS_BUSY (s.mend i).rows.length (live F.IN_MEND_STAT_STALE_BITS (s.mend i).staleBits w)))
  | .CR_NS_STAT => live F.CR_NS_STAT_OSC_OK (s.healthy.foldl (fun v k => v + 2 ^ k) 0) w
  | .GT_SYNC_STAT =>
    live F.GT_SYNC_STAT_BAR_WAITING s.barWaiting (live F.GT_SYNC_STAT_HOLDING (b2n s.time.holdUntil.isSome) w)
  | .CE_STATE => live F.CE_STATE_STALE (b2n (s.hasStale i)) (live F.CE_STATE_REPAIR_PENDING (b2n !(s.chan i).repairs.isEmpty) w)
  | .CE_PL_STAT => if s.chanState i = 4 then w else
    live F.CE_PL_STAT_LIMIT s.plLimit (live F.CE_PL_STAT_QUEUED (Nat.min 65535 (s.planQueue i)) w)
  | .CR_SMP_STAT => live F.CR_SMP_STAT_BUSY (b2n s.sampling) w
  | _ => w

/-- R335, R315: the levels on MW_IRQ[15:0], bit by bit. -/
def State.irqLines (s : State) : Nat :=
  if !s.life.porstN || s.lc == lcPll || s.lc == lcBoot then 0
  else
    let v := (s.view .MW_IRQ_CAUSE 0 &&& s.view .MW_IRQ_MASK 0).toNat % 2 ^ 12
    if v = 0 then 0 else v + 2 ^ 15

/-! ## Reads -/

/-- A read of a CSR offset: an offset that names no register reads 0 (R330); CR_NS_DATA3 consumes its seed (R332). -/
def State.csrRead (s : State) (off : Nat) : Word × State :=
  match Reg.ofOffset off with
  | some (r, i) => (s.view r i, if r = .CR_NS_DATA ∧ i = 3 then s.seedConsume else s)
  | none => (0, s)

/-! ## Writes (R341) -/

/-- The generic action of a field: RW sets, W1C clears, RO and WO leave it (Table 0-3). -/
def State.writeField (s : State) (f : FSpec) (i : Nat) (v : Word) : State :=
  match f.acc with
  | .rw => s.put f.fld i (Fld.of f.fld v)
  | .w1c => s.put f.fld i (s.fld f.fld i ^^^ (s.fld f.fld i &&& Fld.of f.fld v))
  | .ro => s
  | .wo => s

/-- Every field of a register by its generic action. -/
def State.writeFields (s : State) (r : Reg) (i : Nat) (v : Word) : State :=
  r.fields.foldl (fun s f => s.writeField f i v) s

/-- Set an RW field, or refuse a value out of its range. -/
def State.ranged (s : State) (f : Fld) (i : Nat) (v : Word) (ok : Nat → Bool) : Status × State :=
  if ok (Fld.of f v) then (.ok, s.put f i (Fld.of f v)) else (.badArg, s)

/-- Two field writes of one register write: the later one on the state of the earlier, the worse status. -/
def thenField (a : Status × State) (f : State → Status × State) : Status × State :=
  let b := f a.2
  (Status.worst a.1 b.1, b.2)

/-- An action of a WO field, when the bit is written 1. -/
def State.onBit (s : State) (f : Fld) (v : Word) (act : State → State) : State :=
  if Fld.of f v = 0 then s else act s

/-- The ring fields: refused while ENABLE is 1, sizes 4 to 16 (Tables 5-11, 5-12). -/
def State.ringWrite (s : State) (log base : Fld) (d : Nat) (v : Word) : Status × State :=
  if s.flag F.DR_CTL_ENABLE d then (.notPermitted, s)
  else thenField (s.ranged log d v fun x => decide (4 ≤ x ∧ x ≤ 16)) fun s => s.ranged base d v fun _ => true

/-- R254: rows that reached the limit before it was lowered are queued when it is written. -/
def State.rowLimit (s : State) (lim : Nat) : State :=
  let s := s.put F.IN_CTL_CE_ROW_LIM 0 lim
  if lim = 0 then s
  else (Tab.keys s.mem.chans).foldl (fun s n =>
    ((s.chan n).rowCorr.filter fun e => decide (lim ≤ e.2)).foldl (fun s e => s.queueRow n e.1) s) s

/-- R341: a write of a register: every field is judged, and acts, on the state before the write.  A DR_CTL write whose ENABLE
is refused under R113 is answered OK: CFG_ERR tells of it, and the spec names no status (DESIGN CHOICE, log 37). -/
def State.regWrite (s : State) (r : Reg) (i : Nat) (v : Word) : Status × State :=
  match r with
  | .MW_IRQ_SET =>
    (.ok, s.put F.MW_IRQ_CAUSE_EVENT 0 (s.fld F.MW_IRQ_CAUSE_EVENT 0 ||| Fld.of F.MW_IRQ_SET_SET v))
  | .PW_OP_CTL =>
    (s.writeField ⟨F.PW_OP_CTL_OP_ERR, .w1c, 0, false⟩ i v).targetOp (Fld.of F.PW_OP_CTL_TARGET_OP v)
  | .PW_THERM =>
    thenField (thenField (s.ranged F.PW_THERM_TH_CRIT i v fun x => decide (s.fld F.PW_THERM_TH_START 0 < x))
      fun s => s.ranged F.PW_THERM_TH_START i v fun _ => true)
      fun s => s.ranged F.PW_THERM_TH_STEP i v fun x => decide (1 ≤ x)
  | .PW_COOL => s.ranged F.PW_COOL_COOL_HOLD i v fun x => decide (1 ≤ x)
  | .LC_CTL => (.ok, s.onBit F.LC_CTL_BUREAU_SYNC v State.bureauEvent)
  | .PT_CTL => thenField (.ok, s.onBit F.PT_CTL_PORT_RESET v (·.portReset i)) fun s =>
      s.ranged F.PT_CTL_RSP_TMO_LOG2 i v fun x => decide (10 ≤ x ∧ x ≤ 30)
  | .PT_CRED => thenField (s.ranged F.PT_CRED_TC0_HDR i v fun x => decide (x ≤ 256)) fun s =>
      s.ranged F.PT_CRED_TC0_SECT i v fun x => decide (x ≤ 512)
  | .DR_SQ_BASE => s.ringWrite F.DR_SQ_BASE_SQ_LOG2 F.DR_SQ_BASE_SQ_BASE i v
  | .DR_CQ_BASE => s.ringWrite F.DR_CQ_BASE_CQ_LOG2 F.DR_CQ_BASE_CQ_BASE i v
  | .DR_CTL =>
    let s := s.writeField ⟨F.DR_CTL_CFG_ERR, .w1c, 0, false⟩ i v
    let s := if Fld.of F.DR_CTL_ENABLE v = 1 then s.drawerEnable i else s.drawerDisable i
    (.ok, s.put F.DR_CTL_IRQ_EN i (Fld.of F.DR_CTL_IRQ_EN v))
  | .DR_DB => s.doorBoth i v
  | .SB_CTL => thenField (s.resWays (Fld.of F.SB_CTL_RES_WAYS v)) fun s =>
      (.ok, s.onBit F.SB_CTL_FLUSH v State.flush)
  | .IN_CTL =>
    thenField (.ok, ((s.put F.IN_CTL_LOG_CE 0 (Fld.of F.IN_CTL_LOG_CE v)).put F.IN_CTL_AUTO_REPAIR 0
      (Fld.of F.IN_CTL_AUTO_REPAIR v)).rowLimit (Fld.of F.IN_CTL_CE_ROW_LIM v)) fun s =>
      s.ranged F.IN_CTL_BURNISH_SHARE 0 v fun x => decide (1 ≤ x)
  | .CR_CTL =>
    (.ok, ((s.onBit F.CR_CTL_SEED_REQ v State.seedReq).onBit F.CR_CTL_NS_RESTART v State.nsRestart).put F.CR_CTL_NS_EN 0
      (Fld.of F.CR_CTL_NS_EN v))
  | .CR_SEED => (.ok, s.seedWrite (i / 4) (i % 4) v)
  | .GT_CTL => (.ok, (s.onBit F.GT_CTL_SEND_ALIGN v State.sendAlign).writeFields r i v)
  | .GT_BAR_MARGIN => s.ranged F.GT_BAR_MARGIN_MARGIN i v fun x => decide (256 ≤ x)
  | .GT_STEP => (.ok, if Fld.of F.GT_STEP_ADVANCE v = 1 then s.advance
      else s.put F.GT_STEP_STEP 0 (Fld.of F.GT_STEP_STEP v))
  | _ => (.ok, s.writeFields r i v)

/-- A write of a CSR offset; one that names no register is BAD_ARG (R330). -/
def State.csrWrite (s : State) (off : Nat) (v : Word) : Status × State :=
  match Reg.ofOffset off with
  | some (r, i) => s.regWrite r i v
  | none => (.badArg, s)

/-- R331: the eight registers of a 64 B group.  The group at 0x0A_0000 is taken before its seed is consumed, and so is
every other, since CR_NS_DATA3 is in that group. -/
def State.csrGroup (s : State) (off : Nat) : List Word × State :=
  ((List.range 8).map fun k => (s.csrRead (off + 8 * k)).1,
   (List.range 8).foldl (fun s k => (s.csrRead (off + 8 * k)).2) s)

/-- Is every 8-byte register enabled wholly or not at all (R173)? -/
def maskWhole (mask : BitVec 64) : Bool :=
  (List.range 8).all fun k => let b := bits mask (8 * k) 8; b == 0 || b == 255

/-- R331: a masked write of a group: the enabled registers in increasing order, the worst status. -/
def State.csrMasked (s : State) (off : Nat) (d : SectorBits) (mask : BitVec 64) : Status × State :=
  (List.range 8).foldl (fun (acc : Status × State) k =>
    if bits mask (8 * k) 8 = 255 then
      let r := acc.2.csrWrite (off + 8 * k) (sectorWord d k)
      (Status.worst acc.1 r.1, r.2)
    else acc) (.ok, s)

end Sys2Proof.Machine
end

