-- ==== Sys2Proof/Machine/PortReq.lean ====
section
/-!
DEFINITION. Requests of the ports: the checks of R172, the service of a request at its home slice, and the requests
that wait (R164, R173 to R176, R188 to R191, R223, R241).
-/

namespace Sys2Proof.Machine

/-! ## Windows (R329) -/

/-- The windows of Table 14-1. -/
inductive Window | memory | planisher | random | drawer | csr | none
  deriving DecidableEq, Repr

def windowOf (a : Nat) : Window :=
  if a < 0x0C000000000 then .memory
  else if a < 0xC0000000000 then .none
  else if a < 0xD0000000000 then .planisher
  else if a < 0xE0000000000 then .random
  else if a < 0xE0000400000 then .drawer
  else if a < 0xF0000000000 then .none
  else if a < 0xF0000400000 then .csr
  else .none

end Sys2Proof.Machine

namespace Sys2Proof

/-- A sector that arrived, as the block holds it: one with FAULT set is the Fault sector (R167, R233). -/
def InSector.toSec (x : InSector) : Machine.Sec := if x.fault then Machine.faultSec else ⟨x.data, x.hallmark, false⟩

def InSector.good (x : InSector) : Bool := Sys2Proof.hallmark x.data == x.hallmark

end Sys2Proof

namespace Sys2Proof.Machine

/-! ## Steps 1 to 3 of R172 -/

/-- Take a request's credits from its account, as the partner has. -/
def State.takeCredits (s : State) (p : Nat) (h : ReqHdr) (n : Nat) : State :=
  let x := s.port p
  let a := x.account h.p h.tc.toNat
  s.setPort p (x.setAccount h.p h.tc.toNat ⟨⟨a.held.hdr - 1, a.held.sect - n⟩, a.alloc⟩)

/-- R172 steps 1 to 3, R182, R183, R321: drop a header, or let it pass with its credits taken.  Before release no account has
credit; a drain of the block in service counts what it drops in LC_DROPS. -/
def State.entry (s : State) (p : Nat) (type : BitVec 4) (h : ReqHdr) (n : Nat) : Bool × State :=
  if !s.life.porstN then (false, s)
  else if s.life.closing && s.flag F.PT_STAT_RELEASED p then (false, s.count F.LC_DROPS_COUNT F.LC_DROPS_OVF 0 1)
  else if s.flag F.PT_STAT_FAULT p then (false, s.protoErr p)
  else if !h.good type then
    (false, ((s.protoErr p).portFlag F.PT_FLAGS_HCRC_ERR p).put F.PT_STAT_FAULT p 1)
  else
    let a := (s.port p).account h.p h.tc.toNat
    if 2 ≤ h.tc.toNat ∨ a.held.hdr < 1 ∨ a.held.sect < n then
      (false, (s.protoErr p).portFlag F.PT_FLAGS_NO_CREDIT p)
    else
      let s := s.takeCredits p h n
      if Tab.get (fun _ => false) (s.port p).tags h.tag.toNat then
        (false, ((s.protoErr p).portFlag F.PT_FLAGS_TAG_DUP p).returnCredit p h.p h.tc.toNat 1 n)
      else (true, s)

/-- R169: a header that passed is accepted: it holds its tag. -/
def State.ingress (s : State) (p : Nat) (type : BitVec 4) (h : ReqHdr) (n : Nat) : Bool × State :=
  match s.entry p type h n with
  | (true, s) =>
    let s := s.setPort p { s.port p with tags := Tab.set (fun _ => false) (s.port p).tags h.tag.toNat true }
    (true, s.traffic h.p n true)
  | x => x

/-! ## Steps 5 and 6 -/

/-- R172 step 5. -/
def State.partOk (s : State) (p : Nat) (h : ReqHdr) : Bool :=
  s.flag F.PA_CFG_ENABLE h.p && s.bit F.PA_PORTS_PORT_MASK h.p p && (h.tc != 0#2 || s.flag F.PA_CFG_TC0_EN h.p)

/-- Does a request stay inside its 2 KiB boundary (R173)? -/
def inBurst (h : ReqHdr) : Bool := decide (h.a % 2048 + 64 * h.len ≤ 2048)

/-- A range of the memory window, no hole in it. -/
def State.inMemory (s : State) (h : ReqHdr) (bytes : Nat) : Bool :=
  windowOf h.a == .memory && !s.badWindow h.a bytes

/-- R172 step 6, Table 7-5: address, window, length, alignment, AOP, MASKED, SCL and reserved bits. -/
def State.formOk (s : State) (t : ReqType) (h : ReqHdr) : Bool :=
  let w := windowOf h.a
  let al := h.a % 64 == 0
  h.rsv == 0 && (t == .atom || h.aop == 0) && (t == .wr || !h.isMasked) && (t == .acc || h.scl == 0) &&
  match t with
  | .rd => al && match w with
    | .memory => inBurst h && s.inMemory h (64 * h.len)
    | .drawer | .csr => h.len == 1
    | .planisher => inBurst h
    | _ => false
  | .wr => al && (!h.isMasked || h.len == 1) && match w with
    | .memory => inBurst h && s.inMemory h (64 * h.len)
    | .csr => h.isMasked
    | .planisher => inBurst h
    | _ => false
  | .wrFinal => al && inBurst h && (w == .planisher || s.inMemory h (64 * h.len))
  | .acc => h.a % 8 == 0 && decide (h.scl.toNat ≤ 8) && (w == .planisher || s.inMemory h 8)
  | .atom => h.len == 1 && h.aop != 7#3 && h.a % (if h.asz = 1#1 then 8 else 4) == 0 &&
      (w == .planisher || s.inMemory h 4)
  | .rndrd => al && inBurst h && (w == .random || w == .planisher)
  | .door => h.len == 1 && (w == .planisher || w == .drawer && (h.a % 65536 == 0 || h.a % 65536 == 8))

/-- R115: a request refused at a Drawer page counts there. -/
def countsDoorErr (t : ReqType) (h : ReqHdr) : Bool := windowOf h.a == .drawer && t != .rd

/-- The Drawer of a page address. -/
def pageOf (a : Nat) : Nat := a / 65536 % 64

/-! ## Steps 7 to 9 -/

/-- Bytes of the memory window a request names. -/
def reqBytes (t : ReqType) (h : ReqHdr) : Nat :=
  match t with
  | .atom => if h.asz = 1#1 then 8 else 4
  | .acc => 8
  | _ => 64 * h.len

/-- R172 step 7, R19, R84, R139. -/
def State.permitted (s : State) (t : ReqType) (h : ReqHdr) : Bool :=
  match windowOf h.a with
  | .memory =>
    if t = .acc then
      match s.bucketAt h.a with
      | some b => b.owner == h.p
      | none => false
    else
      (h.p == 0 || s.granOwner (h.a / gib) == h.p) &&
        (s.bucketsIn h.a (reqBytes t h)).all fun b => t == .rd && (b.st == .closed || b.st == .inUse)
  | .drawer => h.p == 0 || h.p == pageOf h.a
  | .csr => h.p == 0
  | .random => h.p == 0 || h.p == h.a / 2 ^ 34 % 64
  | _ => false

/-- R172 step 8. -/
def State.classOk (s : State) (t : ReqType) (h : ReqHdr) : Bool :=
  t == .rd || windowOf h.a != .memory || !s.isMended h.a

/-- The sectors of a request that the port checks: scale sectors and the mask half with the rest (R167). -/
def inbound (t : ReqType) (r : PortReq) : List InSector :=
  r.sectors.take (if t == .wr && r.hdr.isMasked then 2 else carried t r.hdr)

/-- Sectors that fail their Hallmark. -/
def failing (xs : List InSector) : Nat := (xs.filter fun x => !x.good).length

/-- R164, R167, R174: what the port refuses in the sectors of a request to memory: FAULT on a mask half or on an operand, and
bits that must be 0. -/
def badOperand (t : ReqType) (r : PortReq) : Option Status :=
  let h := r.hdr
  if t == .wr && h.isMasked then
    let m := r.sectors.getD 1 ⟨0, 0, true⟩
    if m.fault then some .dataFault else if m.data.toNat / 2 ^ 64 != 0 then some .badArg else none
  else if t == .atom then
    let x := r.sectors.getD 0 ⟨0, 0, true⟩
    let used := (if h.asz = 1#1 then 64 else 32) * (if h.aop = 6#3 then 2 else 1)
    if x.fault then some .dataFault else if 2 ^ used ≤ x.data.toNat then some .badArg else none
  else none

/-- Steps 7 to 9 of R172 and the checks of R167: none when the request passes, else its status and HM. -/
def State.lateCheck (s : State) (t : ReqType) (r : PortReq) : Option (Status × Bool) :=
  if !s.permitted t r.hdr then some (.notPermitted, false)
  else if !s.classOk t r.hdr then some (.regionClass, false)
  else if failing (inbound t r) ≠ 0 then some (.dataFault, true)
  else if windowOf r.hdr.a == .memory then (badOperand t r).map fun st => (st, false)
  else none

/-- Refuse an accepted request: its credits return with the answer (R171). -/
def State.refuse (s : State) (p : Nat) (t : ReqType) (h : ReqHdr) (st : Status) (hm : Bool) (n : Nat) : State :=
  (s.respond p h st hm (if (t == .atom) && st == .dataFault && !hm then [faultSec] else [])).returnCredit p h.p h.tc.toNat 0 n

/-- R87: an ACC refused with NOT_PERMITTED or BAD_ARG counts. -/
def State.accRefused (s : State) : State := s.count F.AV_ACC_REFUSED_COUNT F.AV_ACC_REFUSED_OVF 0 1

/-- Refuse a request at a step of `lateCheck`; sectors that fail are counted (R167), and so is an ACC without a bucket (R87). -/
def State.refuseLate (s : State) (p : Nat) (t : ReqType) (r : PortReq) (x : Status × Bool) (n : Nat) : State :=
  let s := s.when x.2 fun s =>
    (s.count F.PT_HM_COUNT F.PT_HM_OVF p (failing (inbound t r))).portFlag F.PT_FLAGS_HM_IN p
  (s.when (t == .acc && x.1 == .notPermitted) State.accRefused).refuse p t r.hdr x.1 x.2 n

/-! ## Service at the home slice -/

/-- How a service ends: with the request answered, queued in the retry buffer, or held. -/
inductive Svc
  | done (s : State)
  | hold (why : Why)

/-- The sectors of a request of whole sectors. -/
def State.reqLocs (s : State) (h : ReqHdr) : List Loc :=
  (List.range h.len).filterMap fun i => s.locate (h.a + 64 * i)

/-- Sector credits of an accepted request return once its data have left for the home slice (R171). -/
def State.passData (s : State) (q : Req) (t : ReqType) : State :=
  if q.credit then s.returnCredit q.port q.r.hdr.p q.r.hdr.tc.toNat 0 (carried t q.r.hdr) else s

/-- The 64 bytes of a bucket's reserved line at an address, when a bucket holds it (R84). -/
def State.reservedSec (s : State) (a : Nat) : Option Sec :=
  match s.bucketAt a with
  | some b =>
    let i := (a - b.base) / 8
    if b.spilled.contains (i / 64) then none
    else some (mkSec (ofWords ((List.range 8).map fun k =>
      if i + k < b.nelem then Tab.get (fun _ => 0#64) b.acc (i + k) else 0)))
  | none => none

/-- Read one sector for a request. -/
def State.readFor (s : State) (a part : Nat) : Got × State :=
  match s.reservedSec a, s.locate a with
  | some x, _ => (⟨x, .ok, false⟩, s)
  | none, some l => s.sliceRead l part
  | none, none => (⟨faultSec, .badArg, false⟩, s)

/-- Answer an RD: every sector through its slice (R189); spilled lines that it misses are filled (R92). -/
def State.finishRd (s : State) (q : Req) : State :=
  let h := q.r.hdr
  let r := (List.range h.len).foldl (fun (acc : List Sec × Status × State) i =>
    let g := acc.2.2.readFor (h.a + 64 * i) h.p
    (acc.1 ++ [g.1.sec], Status.worst acc.2.1 g.1.st, g.2))
    ([], if q.ue then Status.rebuilt else .ok, s.countFills h.a (64 * h.len))
  r.2.2.respond q.port h r.2.1 false r.1

/-- Perform the whole-sector writes of a WR or WR_FINAL and answer it; none where a line cannot be had. -/
def State.finishWr (s : State) (q : Req) : Option State :=
  let h := q.r.hdr
  let r := (List.range h.len).foldl (fun (acc : Option (Status × State)) i =>
    acc.bind fun acc => match acc.2.locate (h.a + 64 * i) with
      | some l =>
        let x := (q.r.sectors.getD i ⟨0, 0, true⟩).toSec
        (acc.2.sliceWrite l x h.p).map fun s' =>
          if acc.2.chanState l.n == 3 then (Status.worst acc.1 .degraded, s') else (acc.1, s'.touch h.a)
      | none => some acc) (some (.ok, s))
  r.map fun r => r.2.respond q.port h r.1 false []

/-- Merge the enabled bytes of a masked write into a sector (R164). -/
def mergeBytes (old new : SectorBits) (mask : BitVec 64) : SectorBits :=
  BitVec.ofNat 512 (ofBytes ((List.range 64).map fun k => if mask.getLsbD k then byteOf new k else byteOf old k))

/-- Carry out a masked write on a sector that is at hand, and answer it.  FAULT on the data poisons the whole sector whatever
the mask; the answer is the one without FAULT (R167). -/
def State.finishMasked (s : State) (q : Req) : Option State :=
  let h := q.r.hdr
  let x := q.r.sectors.getD 0 ⟨0, 0, true⟩
  let mask := BitVec.ofNat 64 (q.r.sectors.getD 1 ⟨0, 0, true⟩).data.toNat
  match s.locate h.a with
  | none => some (s.respond q.port h .badArg false [])
  | some l =>
    let put (s : State) (y : Sec) (st : Status) : Option State :=
      (s.sliceWrite l y h.p).map fun s => (s.touch h.a).respond q.port h st false []
    if mask = 0 then (if x.fault then put s faultSec .ok else some (s.respond q.port h .ok false []))
    else if s.chanState l.n == 3 then some (s.respond q.port h .degraded false [])
    else
      let g := s.readFor h.a h.p
      if x.fault then put g.2 faultSec (if g.1.sec.fault then .dataFault else g.1.st)
      else if g.1.sec.fault then some (g.2.respond q.port h .dataFault false [])
      else put g.2 (mkSec (mergeBytes g.1.sec.data x.data mask)) g.1.st

/-- R174: the stored value of an ATOM. -/
def atomValue (aop : Nat) (w : Nat) (old x y : Nat) : Nat :=
  let lt := fun (a b : Nat) => decide (Num.signed w a < Num.signed w b)
  match aop with
  | 0 => (old + x) % 2 ^ w
  | 1 => Nat.max old x
  | 2 => Nat.min old x
  | 3 => if lt old x then x else old
  | 4 => if lt x old then x else old
  | 5 => x
  | _ => if old = x then y else old

/-- Carry out an ATOM on a sector that is at hand, and answer it (R174). -/
def State.finishAtom (s : State) (q : Req) : Option State :=
  let h := q.r.hdr
  let w := if h.asz = 1#1 then 64 else 32
  let op := (q.r.sectors.getD 0 ⟨0, 0, true⟩).data.toNat
  match s.locate h.a with
  | none => some (s.respond q.port h .badArg false [])
  | some l =>
    let g := s.readFor (h.a / 64 * 64) h.p
    if g.1.sec.fault then some (g.2.respond q.port h .dataFault false [faultSec])
    else
      let at_ := 8 * (h.a % 64)
      let old := g.1.sec.data.toNat / 2 ^ at_ % 2 ^ w
      let new := atomValue h.aop.toNat w old (op % 2 ^ w) (op / 2 ^ w % 2 ^ w)
      let d := BitVec.ofNat 512 (g.1.sec.data.toNat - old * 2 ^ at_ + new * 2 ^ at_)
      (g.2.sliceWrite l (mkSec d) h.p).map fun s =>
        (s.touch h.a).respond q.port h g.1.st false [mkSec (BitVec.ofNat 512 old)]

/-- R93, R120: a close that proceeds is no longer in its armed state. -/
def State.closeProceeds (s : State) (base : Nat) : State :=
  match s.bucketBase base with
  | some b => match b.closer with
    | some (d, pos) => match s.cmd d pos with
      | some c => if b.sweeping then s.setCmd d { c with armedClose := false } else s
      | none => s
    | none => s
  | none => s

/-- R86, R87 step 10: an ACC at its bucket. -/
def State.finishAcc (s : State) (q : Req) : State :=
  let h := q.r.hdr
  let refuse (s : State) (st : Status) : State :=
    s.accRefused.respond q.port h st false []
  match s.bucketAt h.a with
  | none => refuse s .notPermitted
  | some b =>
    if b.owner != h.p then refuse s .notPermitted
    else if !accRulesHold b h q.r.sectors then refuse s .badArg
    else
      let cs := contributions b h q.r.sectors
      if b.st != .opened || decide (b.full < b.arrived + cs.length) then refuse (s.excess b cs.length) .badArg
      else
        let r := s.addContributions b ((h.a - b.base) / 8) cs
        (r.2.closeProceeds b.base).respond q.port h r.1 false []

/-! ## Queues -/

/-- The elements an ACC names at a bucket (R85): the first, and how many. -/
def accElems (b : Bucket) (h : ReqHdr) : Nat × Nat :=
  ((h.a - b.base) / 8, match Num.Fmt.ofCode b.cfmt with
    | some f => payloadElems f h.len
    | none => 0)

/-- The bytes of memory that a request names: for an ACC, those of all its elements (R173). -/
def State.reqRange (s : State) (q : Req) : Nat × Nat :=
  let h := q.r.hdr
  match q.kind with
  | .acc => (h.a, match s.bucketAt h.a with
    | some b => Nat.max 8 (Nat.min (8 * (accElems b h).2) (b.base + b.extent - h.a))
    | none => 8)
  | k => (h.a, reqBytes k.type h)

/-- Do two ranges share a sector? -/
def shareSector (x y : Nat × Nat) : Bool :=
  overlap (x.1 / 64) ((x.1 + x.2 + 63) / 64 - x.1 / 64) (y.1 / 64) ((y.1 + y.2 + 63) / 64 - y.1 / 64)

/-- Do two requests keep their order at a home slice: same port and class, a sector in common (R176, R190; log 34)? -/
def State.sameStream (s : State) (x y : Req) : Bool :=
  x.port == y.port && x.r.hdr.tc == y.r.hdr.tc && shareSector (s.reqRange x) (s.reqRange y)

/-- Descriptors of a retry buffer (R241): requests, and corrected sectors to write back. -/
def retryRoom : Nat := 256
def Chan.descriptors (x : Chan) : Nat := x.retry.length + x.wback.length

/-- Put a descriptor into a channel's retry buffer, or hold the request when it is full.  A bank group in Planisher mode leaves it
for a TC0 request (R149). -/
def State.enqueue (s : State) (q : Req) (n : Nat) (secs : List Nat) : Svc :=
  let ch := s.chan n
  if ch.descriptors < retryRoom then
    let s := s.passData q q.kind.type
    let s := s.setChan n { s.chan n with retry := (s.chan n).retry ++ [⟨{ q with credit := false }, secs⟩] }
    .done (s.when (q.r.hdr.tc == 0#2 && s.fld F.CE_PL_STAT_BG_MODE n != 0) fun s =>
      secs.foldl (fun s k => s.preempt n (s.bankOf ⟨n, k⟩)) s)
  else .hold .buffer

/-- Answered, or held for a line. -/
def Svc.ofOption : Option State → Svc
  | some s => .done s
  | none => .hold .cleanWay

/-- Must DRAM_READ_DONE bring a sector: it is in no slice, and its channel, in service or coming back, holds it? -/
def State.needsRead (s : State) (a : Nat) : Option Nat :=
  match s.reservedSec a, s.locate a with
  | none, some l =>
    let out := s.locMended l && (s.chanState l.n != 0 || s.isStale l.n l.m || s.isLost l.n l.m)
    if (s.sliceHas l).isNone && s.chanState l.n != 3 && !out then some l.k else none
  | _, _ => none

/-- The addresses whose sectors a request must have at hand. -/
def Req.sectorAddrs (q : Req) : List Nat :=
  let h := q.r.hdr
  match q.kind with
  | .rd => (List.range h.len).map fun i => h.a + 64 * i
  | .wr => if h.isMasked then [h.a] else []
  | .wrFinal => []
  | .acc => []
  | .atom => [h.a / 64 * 64]

/-- Does a masked write need its sector's old bytes at all? -/
def Req.skipsFill (q : Req) : Bool :=
  q.kind == .wr && q.r.hdr.isMasked && BitVec.ofNat 64 (q.r.sectors.getD 1 ⟨0, 0, true⟩).data.toNat == 0#64

/-- Carry a request out with its sectors at hand. -/
def State.perform (s : State) (q : Req) : Option State :=
  match q.kind with
  | .rd => some (s.finishRd q)
  | .wr => if q.r.hdr.isMasked then s.finishMasked q else s.finishWr q
  | .wrFinal => s.finishWr q
  | .acc => some (s.finishAcc q)
  | .atom => s.finishAtom q

/-- The spilled lines an ACC needs wait for their channels (R108). -/
def State.accWaits (s : State) (q : Req) : Bool :=
  match s.bucketAt q.r.hdr.a with
  | some b =>
    let e := accElems b q.r.hdr
    !s.spilledReady b (e.1 / 64) ((e.1 + e.2 + 63) / 64)
  | none => false

/-- Is a sector in its slice, or in a reserved line? -/
def State.atHand (s : State) (a : Nat) : Bool :=
  (s.reservedSec a).isSome || match s.locate a with
    | some l => (s.sliceHas l).isSome
    | none => false

/-- R221: the accesses of a request at its slices: one, and for an ACC one for each part of R173; a spilled line of an ACC that
must be filled makes its part a miss. -/
def State.countReq (s : State) (q : Req) : State :=
  let r := s.reqRange q
  match q.kind with
  | .acc => (burstsOf r.1 r.2).foldl (fun s b =>
      let lo := Nat.max r.1 (b * 2048)
      let hi := Nat.min (r.1 + r.2) ((b + 1) * 2048)
      s.countAccess ((List.range ((hi + 63) / 64 - lo / 64)).all fun i => s.atHand ((lo / 64 + i) * 64)) q.r.hdr.p (hi - lo)) s
  | _ => s.countAccess (q.skipsFill || q.sectorAddrs.all s.atHand) q.r.hdr.p r.2

/-- R16, R131: is some byte of a request held for a record or a REGION_SET? -/
def State.rangeStops (s : State) (q : Req) : Option Why :=
  let r := s.reqRange q
  if (granulesOf r.1 r.2).any fun g => s.flag F.RG_GRAN_BUSY g then some .region
  else if s.rangeHeld r.1 r.2 then some .range
  else none

/-- The sets of a request's lines, by slice (R211, R220). -/
def State.setsOf (s : State) (q : Req) : List (Nat × Nat) :=
  ((s.reqLocs q.r.hdr).map fun l => (l.n, l.k / 8 % 64)).dedup

/-- R223: is an earlier request held for a clean way of a set that this one writes to? -/
def State.wayTaken (s : State) (q : Req) : Bool :=
  q.kind != .rd && q.kind != .acc && s.ports.waits.any fun w =>
    w.why == .cleanWay && decide (w.req.seq < q.seq) && (s.setsOf w.req).any (s.setsOf q).contains

/-- Does a request need a line that its slice does not have? -/
def State.needsLine (s : State) (q : Req) : Bool :=
  q.kind != .rd && (s.reqLocs q.r.hdr).any fun l => !(s.slice l.n).hasLine l.k

/-- R176, R188, R221, R223, R241: serve a request at its home slice, queue it, or hold it. -/
def State.serve (s : State) (q : Req) : Svc :=
  let h := q.r.hdr
  let earlier := fun (x : Req) => decide (x.seq < q.seq) && s.sameStream x q
  match s.rangeStops q with
  | some why => .hold why
  | none =>
    if s.ports.waits.any fun w => earlier w.req then .hold .behind
    else if q.kind == .acc then
      if s.accWaits q || (Tab.keys s.mem.chans).any fun n => (s.chan n).retry.any fun d => earlier d.req then .hold .buffer
      else .done (((s.passData q .acc).countReq q).finishAcc q)
    else match s.locate h.a with
      | none => .done (s.respond q.port h .badArg false [])
      | some l =>
        let need := if q.skipsFill then [] else q.sectorAddrs.filterMap s.needsRead
        if !need.isEmpty || (s.chan l.n).retry.any fun d => earlier d.req then
          match s.enqueue q l.n need with
          | .done s' => .done (s'.countReq q)
          | x => x
        else if (q.sectorAddrs.filterMap s.locate).any s.mustWait then .hold .buffer
        else if s.wayTaken q && s.needsLine q then .hold .cleanWay
        else Svc.ofOption (((s.passData q q.kind.type).countReq q).perform q)

/-- Hold a request. -/
def State.holdReq (s : State) (q : Req) (why : Why) : State := s.setWaits (s.ports.waits ++ [⟨q, why⟩])

/-- Try a held request again; one that a REGION_SET held is judged afresh (R131 step 4). -/
def State.retryWait (s : State) (w : Wait) : Svc :=
  let q := w.req
  match w.why with
  | .region =>
    if (s.rangeStops q) = some .region then .hold .region
    else match s.lateCheck q.kind.type q.r with
      | some x => .done (s.refuseLate q.port q.kind.type q.r x (if q.credit then carried q.kind.type q.r.hdr else 0))
      | none => if q.kind = .wrFinal then .hold .final else s.serve q
  | _ => s.serve q

/-- Go once over the held requests in order of acceptance; `pick` says which are tried. -/
def State.settleFrom (pick : Wait → Bool) : List Wait → List Wait → State → State
  | [], kept, s => s.setWaits kept.reverse
  | w :: ws, kept, s =>
    if pick w then
      match (s.setWaits kept.reverse).retryWait w with
      | .done s => State.settleFrom pick ws kept s
      | .hold why => State.settleFrom pick ws ({ w with why := why } :: kept) s
    else State.settleFrom pick ws (w :: kept) s

/-- Everything held for a cause that events end by themselves is tried again, TC0 ahead of TC1 (R179): not a WR_FINAL, which
lands by a step of its own (R176), nor what waits for a clean way (R223). -/
def State.settleWaits (s : State) : State :=
  let free := fun (w : Wait) => w.why != .final && w.why != .cleanWay
  let s := s.settleFrom (fun w => free w && w.req.r.hdr.tc == 0#2) s.ports.waits []
  s.settleFrom (fun w => free w && w.req.r.hdr.tc != 0#2) s.ports.waits []

/-- May a descriptor be carried out without DRAM now: its sectors at hand, nothing of it held or waited for? -/
def State.descReady (s : State) (d : Desc) : Bool :=
  (s.rangeStops d.req).isNone && (d.req.skipsFill ||
    (d.req.sectorAddrs.filterMap s.needsRead).isEmpty && !(d.req.sectorAddrs.filterMap s.locate).any s.mustWait)

/-- Descriptors whose sectors are at hand follow, in their order for each address (R202, R241). -/
def State.cascade (n : Nat) : List Desc → List Desc → State → State
  | [], kept, s => s.setChan n { s.chan n with retry := kept.reverse }
  | d :: ds, kept, s =>
    if (kept.any fun e => shareSector (s.reqRange e.req) (s.reqRange d.req)) || !s.descReady d then
      State.cascade n ds (d :: kept) s
    else match s.perform d.req with
      | some s => State.cascade n ds kept s
      | none => State.cascade n ds (d :: kept) s

/-- What waits at the channels and the slices moves on as far as it can. -/
def State.settle (s : State) : State :=
  ((Tab.keys s.mem.chans).foldl (fun s n =>
    if (s.chan n).retry.isEmpty then s else State.cascade n (s.chan n).retry [] s) s).settleWaits

/-- After a change of a channel: its slice's held writes, its buffer and the held requests move on. -/
def State.moveOn (s : State) (n : Nat) : State := (s.settleLate n).settle

end Sys2Proof.Machine
end

