-- ==== Sys2Proof/Machine/Gates.lean ====
section
/-!
DEFINITION. The gates of LAUNCH_AT and BARRIER (R129, R130), and GTC jumps that pass them (R284).
-/

namespace Sys2Proof.Machine

/-! ## LAUNCH_AT -/

/-- The LAUNCH_AT of a Drawer is over: its record will say so, and its gate is gone. -/
def State.launchDone (s : State) (d : Nat) (l : Launch) (late notArmed : Bool) : State :=
  let s := match s.cmd d l.pos with
    | some c => s.finish d { c with late := late } .ok (if notArmed then 1 else 0) (l.opened.getD 0)
    | none => s
  s.setDrawer d { s.drawer d with launch := none }

/-- The ring entry at a Drawer's head, as it reads, and the state that has read it. -/
def State.headEntry (s : State) (d : Nat) : List Word × Status × State :=
  let r := s.readMem (s.sqEntry d (s.sqHead d)) 64 d
  (wordsOf r.1 8, r.2.1, r.2.2)

/-- Is a command waiting in a Drawer's ring of a kind that ARM_NEXT applies to? -/
def State.headArmable (s : State) (d : Nat) : Bool :=
  occupancy (s.sqTail d) (s.sqHead d) != 0 &&
    (let e := s.headEntry d
     e.2.1 != .dataFault && match Op.ofCode (bits (e.1.getD 0 0) 0 8) with
       | some o => o.armable
       | none => false)

/-- R129: the gate of a LAUNCH_AT opens; while the block is stopped it opens late (R307). -/
def State.launchOpen (s : State) (d : Nat) (late : Bool) : State :=
  match (s.drawer d).launch with
  | some l =>
    if l.opened.isSome then s
    else
      let l : Launch := { l with
        opened := some s.gtc, openCycle := s.power.cycles, openTick := s.tick,
        late := l.late || late || s.flag F.PW_COOL_STOPPED 0 }
      let s := s.setDrawer d { s.drawer d with launch := some l }
      if !l.arm then s.launchDone d l l.late false
      else match l.armed with
        | some p => match s.cmd d p with
          | some c => if c.phase = .done then s.launchDone d l l.late false else s
          | none => s.launchDone d l l.late false
        | none => if s.headArmable d then s else s.launchDone d l l.late true
  | none => s

/-- R129: 32 cycles after the gate has opened an armed command may take its first action; one that has failed its checks
takes none. -/
def State.armedAct (s : State) (d : Nat) : State :=
  match (s.drawer d).launch with
  | some l => match l.armed with
    | some p =>
      if l.opened.isNone || decide (s.power.cycles < l.openCycle + 32) then s
      else match s.cmd d p with
        | some c =>
          if c.phase = .armed then s.setCmd d { c with phase := .checked }
          else if c.phase = .done then s.launchDone d l l.late false
          else s
        | none => s.launchDone d l l.late false
    | none => s
  | none => s

/-- R129: a command takes its first action; where it was armed, its LAUNCH_AT is over then, and late when the action comes
more than 32 ticks of 625 ps after the gate opened. -/
def State.firstAction (s : State) (d pos : Nat) : State :=
  match (s.drawer d).launch with
  | some l =>
    if l.armed = some pos ∧ l.opened.isSome then s.launchDone d l (l.late || decide (l.openTick + 32 < s.tick)) false
    else s
  | none => s

/-- R129: an armed command that is over without a first action ends its LAUNCH_AT all the same. -/
def State.noAction (s : State) (d pos : Nat) : State :=
  match (s.drawer d).launch with
  | some l => if l.armed = some pos ∧ l.opened.isSome then s.launchDone d l l.late false else s
  | none => s

/-- Is a command the one that a LAUNCH_AT of its Drawer holds armed? -/
def State.isArmed (s : State) (d pos : Nat) : Bool := match (s.drawer d).launch with
  | some l => l.armed == some pos
  | none => false

/-! ## BARRIER -/

/-- Send a frame of this block's own on SYNC_OUT, when it takes part in the ring (R282, R288). -/
def State.sendSync (s : State) (type : BitVec 4) (payload : Nat) : State :=
  if s.flag F.GT_CTL_SYNC_EN 0 then s.emit (.sync type (syncFrame type (BitVec.ofNat 72 payload))) else s

/-- The payload of ARRIVE and WITHDRAW (Table 11-5). -/
def State.barPayload (s : State) (b : Barrier) : Nat := b.id + s.fld F.PT_MGT_ID_BLOCK_ID 0 * 16 + b.nblk * 1024

/-- The BARRIER of a Drawer is over, and its gate open. -/
def State.barrierDone (s : State) (d : Nat) (b : Barrier) (st : Status) (detail result : Nat) : State :=
  let s := match s.cmd d b.pos with
    | some c => s.finish d c st detail result
    | none => s
  s.setDrawer d { s.drawer d with barrier := none }

/-- R130: the gate of a BARRIER opens once GTC has reached R. -/
def State.barrierOpen (s : State) (d : Nat) : State :=
  match (s.drawer d).barrier with
  | some b => match b.release with
    | some r => if s.gtc < r then s else s.barrierDone d b .ok 0 r
    | none => s
  | none => s

/-! ## GTC jumps (R284) -/

/-- GTC takes the value `v`, and every gate whose time it passes opens. -/
def State.jump (s : State) (v : Nat) : State :=
  let s := s.put F.GT_TIME_GTC 0 v
  (List.range 64).foldl (fun s d =>
    let s := match (s.drawer d).launch with
      | some l => if l.opened.isNone && decide (l.t ≤ v) then s.launchOpen d (decide (l.t < v)) else s
      | none => s
    s.barrierOpen d) s

end Sys2Proof.Machine
end

