-- ==== Sys2Proof/Machine/Lines.lean ====
section
/-!
DEFINITION. Sideboard lines of a range of addresses: writing them back and invalidating them (R16, R131, R204).
-/

namespace Sys2Proof.Machine

/-- Is an address in `[lo, lo + len)`? -/
def within (lo len a : Nat) : Bool := decide (lo ≤ a ∧ a < lo + len)

/-- Does the address of sector `k` of slice `n` fulfil `p`? -/
def State.secIn (s : State) (p : Nat → Bool) (n k : Nat) : Bool := match s.addrOf ⟨n, k⟩ with
  | some a => p a
  | none => false

/-- Write back every dirty line of which a sector fulfils `p`, on behalf of a partition; lines that cannot go to DRAM now
stay (R202). -/
def State.writeBackWhere (s : State) (p : Nat → Bool) (part : Nat) : State :=
  s.slicesHeld.foldl (fun s n =>
    let held := s.burstsHeld n
    ((((s.slice n).lines.filter fun y => y.dirtySecs.any fun e => s.secIn p n e.1).map fun y => y.unit / 4).dedup.filter
      fun m => !held.contains m).foldl (fun s m => s.writeBackBurst n m part) s) s

/-- Invalidate every sector that fulfils `p`, in the lines and in the write-back stores; a line without a sector is
gone. -/
def State.dropWhere (s : State) (p : Nat → Bool) : State :=
  s.slicesHeld.foldl (fun s n =>
    let x := s.slice n
    let gone := fun k => s.secIn p n k
    s.setSlice n
      { lines := (x.lines.map fun y => { y with secs := Tab.restrict (fun i => !gone (8 * y.unit + i)) y.secs }).filter
          fun y => !y.secs.isEmpty
        store := Tab.restrict (fun k => !gone k) x.store
        late := x.late.filter fun e => !gone e.1 }) s

/-- Must a write-back of the sectors that fulfil `p` wait: for a channel in reset or admission, for a bank group in Planisher
mode, or for a clean way? -/
def State.dirtyWaits (s : State) (p : Nat → Bool) : Bool :=
  s.slicesHeld.any fun n =>
    let held := s.burstsHeld n
    (s.slice n).lines.any (fun y => held.contains (y.unit / 4) && y.dirtySecs.any fun e => s.secIn p n e.1) ||
      (Tab.keys (s.slice n).store).any (s.secIn p n) || (s.slice n).late.any fun e => s.secIn p n e.1

/-- Is some channel that the tiers of a range reach in reset or admission? -/
def State.someOut (s : State) : Bool := (List.range 256).any fun n => s.chanState n == 1 || s.chanState n == 2

end Sys2Proof.Machine
end

