-- ==== Sys2Proof/Machine/Retire.lean ====
section
/-!
DEFINITION. Retiring a channel (R204, R250), and the sparse view of a channel's stored sectors.
-/

namespace Sys2Proof.Machine

/-! ## Stored sectors -/

/-- Numbers of the sectors of the block with a listed byte. -/
def State.listed (s : State) : List Nat :=
  ((Tab.keys s.mem.dram).map (· / 64) ++ (Tab.keys s.mem.chk).map (· / 8)).dedup

/-- Positions of channel number `c` at which some member of the group has a listed byte.  Poisoned and open ground
lies outside Mended rows. -/
def State.listedRows (s : State) (c : Nat) : List Nat :=
  ((s.listed.filter fun i => i / 2 ^ 26 % 32 == c).map fun i => i % 2 ^ 26 / 32).dedup

/-- Sector numbers of a granule's part of a channel (R211). -/
def State.granSectors (s : State) (n g : Nat) : Option (Nat × Nat) :=
  match s.tiers.find? fun t => decide (t.base ≤ g * gib ∧ g * gib < t.base + t.size) with
  | some t => match t.sites.findIdx? (· == n / 32) with
    | some i =>
      let w := 32 * t.sites.length
      let k := n % 32 * t.sites.length + i
      let b := (g * gib - t.base) / 2048
      let pos := fun (x : Nat) => t.low + (x - k + w - 1) / w
      some (pos b * 32, pos (b + gib / 2048) * 32)
    | none => none
  | none => none

/-- Granules that have a part on a channel. -/
def State.granulesOn (s : State) (n : Nat) : List Nat :=
  (List.range 768).filter fun g => match s.granSectors n g with
    | some r => decide (r.1 < r.2)
    | none => false

/-! ## Retirement -/

/-- Guarded and Plain granules that lose data with a channel (R250). -/
def State.losing (s : State) (n : Nat) : List Nat :=
  (Tab.keys s.mem.touched).filter fun g => s.granClass g != 2 && match s.granSectors n g with
    | some r => decide (r.1 < r.2)
    | none => false

/-- The bit of a channel in IN_RETIREDk (Table 10-17). -/
def State.putRetired (s : State) (n : Nat) (b : Bool) : State :=
  let f := if n / 32 % 2 = 0 then F.IN_RETIRED_SITE_LO else F.IN_RETIRED_SITE_HI
  s.putBit f (n / 64) (n % 32) b

/-- The Bureau's record of a channel (R320). -/
def State.bureauRetired (s : State) (n : Nat) (b : Bool) : State :=
  let r := s.life.bureau.retired
  let v := if b then r ||| (1#256 <<< n) else r &&& ~~~(1#256 <<< n)
  { s with life := { s.life with bureau := { s.life.bureau with retired := v } } }

/-- R204, R250: the state of a channel out of the block's use: no lines of Guarded and Plain granules, no queues, no bank group in
Planisher mode; its units keep their state (R137). -/
def State.chanOff (s : State) (n : Nat) : State :=
  let s := s.setSlice n
    { lines := (s.slice n).lines.filter fun y => s.locMended ⟨n, 8 * y.unit⟩
      store := Tab.restrict (fun k => s.locMended ⟨n, k⟩) (s.slice n).store
      late := (s.slice n).late.filter fun e => s.locMended ⟨n, e.1⟩ }
  let s := (s.put F.CE_STATE_STATE n 3).put F.CE_PL_STAT_BG_MODE n 0
  s.setChan n { s.chan n with
    resetAt := none, stoppedTicks := 0, cause := none, selfRefresh := false, wback := [], plOrder := [], plBack := [] }

/-- R134: the Drawers whose rings a retirement took. -/
def State.ringsLost (s : State) : State :=
  (List.range 64).foldl (fun s d =>
    if s.flag F.DR_CTL_ENABLE d && !s.flag F.DR_STAT_RING_LOST d && s.ringRetired d then s.ringLost d else s) s

/-- R250: retire a channel; `auto` when the block does it itself. -/
def State.retire (s : State) (n : Nat) (auto : Bool) : State :=
  if s.chanState n == 3 || s.chanState n == 4 then s
  else
    let gs := s.losing n
    let s := (s.chanOff n).mendFree n
    let s := (s.putRetired n true).when auto (·.put F.CE_STATE_AUTO_RETIRED n 1)
    let s := s.log (if auto then .retireAuto else .retire) { chan := some n }
    let s := gs.foldl (fun s g =>
      (s.put F.RG_GRAN_LOST g 1).log .lostGran { chan := some n, addr := some (g * gib) }) s
    let s := (s.bureauRetired n true).bureauEvent.ringsLost
    s.moveOn n

end Sys2Proof.Machine
end

