-- ==== Sys2Proof/Machine/Drawers.lean ====
section
/-!
DEFINITION. Starting, checking and completing Drawer commands (R113 to R126), and the commands NOP, FENCE, LAUNCH_AT,
BARRIER, QUERY, PARTITION_SET, POWER_CAP, REGION_SET, OFFLOAD_ACT and RECALL_ACT.
-/

namespace Sys2Proof.Machine

/-! ## Running a command -/

/-- The command a row names, when its work may be done or go on: `again` says that it may already be under way. -/
def State.due (s : State) (d pos : Nat) (o : Op) (again : Bool) : Option Cmd :=
  match s.cmd d pos with
  | some c =>
    if (c.phase = .started ∨ c.phase = .checked ∨ (again ∧ c.phase = .running)) ∧ c.opcode = o.code ∧ d < 64
        ∧ !s.stalled then some c
    else none
  | none => none

/-- R122, R125, R129: a started command makes its own checks; a failed one changes nothing but its own record; an
armed one is held ready; the others do their work. -/
def State.runCmd (s : State) (d pos : Nat) (o : Op) (again : Bool) (check : State → Cmd → Option Status × State)
    (work : State → Cmd → State) : State :=
  match s.due d pos o again with
  | none => s
  | some c =>
    if c.phase = .started then
      match check s c with
      | (some st, s) => s.finish d ((s.cmd d pos).getD c) st 0 0
      | (none, s) =>
        let c := (s.cmd d pos).getD c
        if s.isArmed d pos then s.setCmd d { c with phase := .armed } else work s c
    else work s c

/-- The first check that fails, in order. -/
def firstFail : List (Bool × Status) → Option Status
  | [] => none
  | (bad, st) :: rest => if bad then some st else firstFail rest

/-- A check that reads no memory. -/
def pureCheck (f : State → Cmd → List (Bool × Status)) (s : State) (c : Cmd) : Option Status × State :=
  (firstFail (f s c), s)

/-- R125 steps 2 and 3 for a list of ranges. -/
def State.rangeChecks (s : State) (d : Nat) (rs : List (Nat × Nat)) : List (Bool × Status) :=
  [(rs.any fun r => s.badWindow r.1 r.2, .badArg), (rs.any fun r => s.foreign d r.1 r.2, .notPermitted)]

/-- May a command's reads and writes of ranges outside Mended granules go on (Table 5-10, R16)? -/
def State.rangesFree (s : State) (rs : List (Nat × Nat)) : Bool :=
  rs.all fun r => s.rangeReady r.1 r.2 && !s.rangeHeld r.1 r.2

/-- The command's work goes on. -/
def State.running (s : State) (d : Nat) (c : Cmd) : State := s.setCmd d { c with phase := .running }

/-- Do commands that started earlier, in this Drawer or in any, still run? -/
def State.earlierRuns (s : State) (d : Nat) (c : Cmd) (all : Bool) : Bool :=
  s.anyCmd fun e x => (all || e == d) && decide (x.order < c.order)

/-! ## Starting (R116, R120 to R123) -/

/-- Is a gate of the Drawer closed, or about to be closed by a command that has just started? -/
def State.gateShut (s : State) (d : Nat) : Bool :=
  (s.drawer d).cmds.any (fun c => c.phase == .started && (c.opcode == Op.launchAt.code || c.opcode == Op.barrier.code))
    || (s.drawer d).barrier.isSome
    || match (s.drawer d).launch with
      | some l => l.opened.isNone && !(l.arm && l.armed.isNone && s.headArmable d)
      | none => false

/-- Would the next command of the Drawer be armed (R129)? -/
def State.arms (s : State) (d : Nat) : Bool := match (s.drawer d).launch with
  | some l => l.arm && l.armed.isNone
  | none => false

/-- R120: every condition but WAIT. -/
def State.mayStart (s : State) (d : Nat) : Bool :=
  decide (d < 64) && s.lc == lcReleased && !s.stalled && s.life.drain.isNone
    && s.flag F.DR_CTL_ENABLE d && !s.flag F.DR_STAT_RING_LOST d && s.flag F.PA_CFG_ENABLE d
    && occupancy (s.sqTail d) (s.sqHead d) != 0
    && decide ((s.drawer d).started < 8)
    && decide (occupancy (s.cqTail d) (s.cqHead d) + (s.drawer d).cmds.length < s.cqSize d)
    && !(s.drawer d).fenced && s.draws.hold.isNone
    && s.rangeReady (s.sqEntry d (s.sqHead d)) 64 && !s.rangeHeld (s.sqEntry d (s.sqHead d)) 64
    && !s.gateShut d

/-- R120 condition 4: the WAIT flag. -/
def State.waits (s : State) (d : Nat) : Bool :=
  let e := s.headEntry d
  e.2.1 != .dataFault && bitOf (e.1.getD 0 0) 8 &&
    (s.drawer d).cmds.any fun c => !(s.arms d && c.opcode == Op.launchAt.code)

/-- May the Drawer's next command start? -/
def State.startable (s : State) (d : Nat) : Bool := s.mayStart d && !s.waits d

/-- Start opportunities for which a Drawer has been passed over. -/
def State.passed (s : State) (d : Nat) : Nat := Tab.get (fun _ => 0) s.draws.waited d

/-- The place of a Drawer in the round that follows the last start, D0 apart: 1 to 63. -/
def State.place (s : State) (d : Nat) : Nat :=
  let back := fun e => (e + 64 - s.draws.lastStart % 64 - 1) % 64
  ((List.range 64).filter fun e => e != 0 && decide (back e ≤ back d)).length

/-- The startable Drawers but D0. -/
def State.others (s : State) : List Nat := (List.range 64).filter fun e => e != 0 && s.startable e

/-- R121: is it this Drawer's turn?  The others go in round robin, and D0 is ahead of them as long as each of them still
starts within 64 opportunities (log 40). -/
def State.turnOf (s : State) (d : Nat) : Bool :=
  let zero := s.startable 0 && s.others.all fun e => decide (s.passed e + s.place e < 64)
  if d = 0 then zero else !zero && s.others.all fun e => decide (s.place d ≤ s.place e)

/-- R122 steps 1 to 3. -/
def headerCheck (d : Nat) (ws : List Word) : Option Status :=
  match Op.ofCode (bits (ws.getD 0 0) 0 8) with
  | none => some .badOpcode
  | some o => firstFail [(o.onlyD0 && d != 0, .notPermitted), (!o.formOk ws, .badArg)]

/-- Does a command hold every Drawer (R120 condition 6)? -/
def holdsAll (d : Nat) (ws : List Word) : Bool :=
  d == 0 && (bits (ws.getD 0 0) 0 8 == Op.regionSet.code
    || bits (ws.getD 0 0) 0 8 == Op.fence.code && bitOf (ws.getD 1 0) 0)

/-- Is a command an UPDATE or an EMIT? -/
def stepOp (ws : List Word) : Bool :=
  bits (ws.getD 0 0) 0 8 == Op.update.code || bits (ws.getD 0 0) 0 8 == Op.emit.code

/-- The command is fetched and started.  A refused UPDATE or EMIT names no entry: DETAIL 0xFFFF (Table 5-5). -/
def State.start (s : State) (d : Nat) : State :=
  let e := s.headEntry d
  let arm := s.arms d
  let rest := s.others.filter (· != d)
  let pos := s.sqHead d + ringMod * (s.drawer d).epoch
  let s := e.2.2.setSqHead d ((s.sqHead d + 1) % ringMod)
  let lost := e.2.1 == .dataFault
  let fail := if lost then some Status.dataFault else headerCheck d e.1
  let c : Cmd := ⟨pos, e.1, if fail.isSome then .done else .started, fail.getD .ok,
    if fail.isSome && !lost && stepOp e.1 then 0xFFFF else 0, 0, false, s.draws.nextOrder, s.seed d, false, lost, [], none,
    .ok, s.reg .PA_CFG d, s.chanState (32 * bits (e.1.getD 1 0) 0 3 + bits (e.1.getD 1 0) 3 5) == 3, false, []⟩
  let s := s.when lost fun s => (s.put F.DR_ERR_FETCH_FAULT d 1).raise .drawerErr
  let x := s.drawer d
  let launch := match x.launch with
    | some l => some (if arm then { l with armed := some pos } else l)
    | none => none
  let s := s.setDrawer d { x with cmds := x.cmds ++ [c], launch := launch }
  { s with draws := { s.draws with
      nextOrder := s.draws.nextOrder + 1
      lastStart := if d = 0 then s.draws.lastStart else d
      waited := rest.map fun e => (e, s.passed e + 1)
      hold := if fail.isNone && holdsAll d e.1 then some (d, pos) else s.draws.hold } }

/-- COMMAND_START (R120): the next command of a Drawer is fetched and started, when its conditions hold.  A ring found
in a retired channel is lost (R134). -/
def execCommandStart (d : Nat) (s : State) : Host.Outcome State Fault Refusal :=
  .next (if s.mayStart d && s.ringRetired d then s.ringLost d
    else if s.startable d && s.turnOf d then s.start d else s)

/-! ## Completing (R117 to R119) -/

/-- PHASE of the records of a pass. -/
def passPhase (pass : Nat) : Nat := 1 - pass % 2

/-- PHASE of the last record the block wrote in the other half's slot, or 0 (R117). -/
def otherPhase (records size : Nat) : Nat :=
  let slot := records % size
  let other := if slot % 2 = 0 then slot + 1 else slot - 1
  if other < slot then passPhase (records / size)
  else if size ≤ records then passPhase (records / size - 1)
  else 0

/-- Table 5-2. -/
def Cmd.record (c : Cmd) (phase gtc : Nat) : List Word :=
  [BitVec.ofNat 64 ((c.portStatus.getD c.status).code + c.opcode * 2 ^ 8 + phase * 2 ^ 16
      + (if c.late then 2 ^ 17 else 0) + c.cmdId * 2 ^ 32),
   BitVec.ofNat 64 (c.pos % ringMod + c.detail % 2 ^ 32 * 2 ^ 32), BitVec.ofNat 64 c.result, BitVec.ofNat 64 gtc]

/-- A record with STATUS DATA_FAULT, OPCODE 0 and CMD_ID 0 (R117). -/
def markerRecord (phase : Nat) : List Word := [BitVec.ofNat 64 (Status.dataFault.code + phase * 2 ^ 16), 0, 0, 0]

/-- Are block writes of a command still to be sent or answered (R119)? -/
def State.writesOut (s : State) (d pos : Nat) : Bool :=
  (List.range 32).any fun p =>
    (s.port p).outq.any (fun w => w.drawer == d && w.pos == pos) ||
      (s.port p).btags.any fun e => match e.2 with
        | some b => !b.abandoned && b.drawer == d && b.pos == pos
        | none => false

/-- R117: the record is merged into its ring sector; false where the sector's channel has just entered reset, so that
the record waits. -/
def State.writeRecord (s : State) (d : Nat) (c : Cmd) : Bool × State :=
  let r := (s.drawer d).records
  let size := s.cqSize d
  let a := s.cqEntry d (s.cqTail d)
  let own := c.record (passPhase (r / size)) s.gtc
  let g := s.readSec (a / 64 * 64) d
  if g.1.ue then (false, g.2)
  else
    let old := (List.range 8).map (sectorWord g.1.sec.data)
    let lost := g.1.sec.fault
    let other := if lost then markerRecord (otherPhase r size) else if a % 64 = 0 then old.drop 4 else old.take 4
    let ws := if a % 64 = 0 then own ++ other else other ++ own
    let s := g.2.when lost fun s => (s.put F.DR_ERR_CQ_FAULT d 1).raise .drawerErr
    (true, (s.writeQuiet (a / 64 * 64) (mkSec (ofWords ws)) d).2)

/-- The completion tail moves on, and the interrupt is raised where it is asked for. -/
def State.recordDone (s : State) (d : Nat) (c : Cmd) : State :=
  let x := s.drawer d
  let s := (s.setCqTail d ((s.cqTail d + 1) % ringMod)).setDrawer d { x with records := x.records + 1 }
  s.when (c.irqFlag && s.flag F.DR_CTL_IRQ_EN d) (·.putBit F.MW_IRQ_DRAWER_PENDING 0 d true)

/-- The buckets a command read are free of it; with RELEASE, the last reader frees them (R98). -/
def State.unread (s : State) (d pos : Nat) : State :=
  (s.draws.buckets.filter fun b => b.readers.contains (d, pos)).foldl (fun s b =>
    let rest := b.readers.filter (· != (d, pos))
    if rest.isEmpty && b.release then s.freeBucket b.base
    else s.setBucket { b with readers := rest, st := if rest.isEmpty then .closed else b.st }) s

/-- What a command held is free, and its place in the Drawer too. -/
def State.retireCmd (s : State) (d : Nat) (c : Cmd) : State :=
  let s := (s.noAction d c.pos).unread d c.pos
  let s := s.when (c.opcode == Op.loadKernel.code) (·.put F.AV_KSLOT_LOADING (c.arg 1 44 4) 0)
  let x := s.drawer d
  let s := s.setDrawer d { x with
    cmds := x.cmds.filter fun e => e.pos != c.pos, completed := (x.completed + 1) % 2 ^ 48 }
  let s := { s with
    draws := { s.draws with hold := if s.draws.hold = some (d, c.pos) then none else s.draws.hold }
    anv := { s.anv with runs := s.anv.runs.filter fun r => !(r.drawer == d && r.pos == c.pos) } }
  s.settle

/-- Do stripe rows of a command's partition still wait in a Mend unit (R105, R119, R244)? -/
def State.rowsOut (s : State) (d : Nat) (c : Cmd) : Bool :=
  (c.opcode == Op.update.code || c.opcode == Op.emit.code || c.opcode == Op.copy.code || c.opcode == Op.fill.code)
    && s.mem.mends.any fun u => u.2.rows.any fun r => r.part == d

/-- R134: the record of a command whose ring lies in a retired channel is lost; one that was bound for the channel itself
sets CQ_FAULT (Table 5-16), and RING_LOST where ENABLE is still set. -/
def State.loseRecord (s : State) (d : Nat) (c : Cmd) : State :=
  let met := !c.lostRing && s.touchesRetired (s.cqEntry d (s.cqTail d)) 32
    || s.flag F.DR_STAT_RING_LOST d && s.touchesRetired (s.cqEntry d (s.cqTail d)) 32
  let s := s.when met fun s => (s.put F.DR_ERR_CQ_FAULT d 1).raise .drawerErr
  s.when (met && s.flag F.DR_CTL_ENABLE d && !s.flag F.DR_STAT_RING_LOST d) (·.ringLost d)

/-- Is the record of a command lost (R134)? -/
def State.recordLost (s : State) (d : Nat) (c : Cmd) : Bool :=
  c.lostRing || s.flag F.DR_STAT_RING_LOST d || s.ringRetired d && !s.flag F.DR_CTL_ENABLE d
    || s.touchesRetired (s.cqEntry d (s.cqTail d)) 32

/-- COMMAND_COMPLETE (R119): the work has ended, its writes are visible and the responses of its block writes have come: the
record is written, or lost with its ring (R134). -/
def execCommandComplete (d pos : Nat) (s : State) : Host.Outcome State Fault Refusal :=
  match s.cmd d pos with
  | some c =>
    if c.phase ≠ .done ∨ s.writesOut d pos ∨ s.rowsOut d c ∨ s.writesLate ∨ s.stalled ∨ 64 ≤ d then .next s
    else if s.recordLost d c then .next ((s.loseRecord d c).retireCmd d c)
    else if !s.rangeReady (s.cqEntry d (s.cqTail d)) 32 then .next s
    else
      let r := s.writeRecord d c
      .next (if r.1 then (r.2.recordDone d c).retireCmd d c else r.2)
  | none => .next s

/-! ## NOP and FENCE -/

/-- NOP (R126). -/
def execNop (d pos : Nat) (s : State) : Host.Outcome State Fault Refusal :=
  .next (s.runCmd d pos .nop false (pureCheck fun _ _ => []) fun s c => s.finish d c .ok 0 0)

/-- FENCE (R126). -/
def execFence (d pos : Nat) (s : State) : Host.Outcome State Fault Refusal :=
  .next (s.runCmd d pos .fence true (pureCheck fun _ c => [(c.argBit 1 0 && d != 0, .notPermitted)]) fun s c =>
    if s.earlierRuns d c (c.argBit 1 0) then s.running d c else s.finish d c .ok 0 0)

/-! ## LAUNCH_AT (R129) -/

/-- LAUNCH_AT (R129). -/
def execLaunchAt (d pos : Nat) (s : State) : Host.Outcome State Fault Refusal :=
  if (s.drawer d).launch.isSome then .next s
  else .next (s.runCmd d pos .launchAt false
    (pureCheck fun s c => [(decide (s.gtc + 2 ^ 40 < (c.w 1).toNat), .badArg)]) fun s c =>
      let t := (c.w 1).toNat
      let s := (s.running d c).setDrawer d
        { (s.running d c).drawer d with launch := some ⟨pos, t, c.argBit 2 0, decide (t < s.gtc), none, 0, 0, none⟩ }
      if t ≤ s.gtc then s.launchOpen d false else s)

/-- LAUNCH_GATE_OPEN (R129): GTC has reached T. -/
def execLaunchGateOpen (d : Nat) (s : State) : Host.Outcome State Fault Refusal :=
  match (s.drawer d).launch with
  | some l => .next (if l.t ≤ s.gtc then s.launchOpen d false else s)
  | none => .next s

/-- ARMED_FIRST_ACTION (R129): 32 CKCORE cycles after the gate opened. -/
def execArmedFirstAction (d : Nat) (s : State) : Host.Outcome State Fault Refusal :=
  .next (if s.stalled then s else s.armedAct d)

/-! ## BARRIER (R130) -/

/-- Ticks in a microsecond. -/
def ticksPerUs : Nat := 1600

/-- BARRIER (R130). -/
def execBarrier (d pos : Nat) (s : State) : Host.Outcome State Fault Refusal :=
  .next (s.runCmd d pos .barrier false
    (pureCheck fun s c => [((List.range 64).any fun e => match (s.drawer e).barrier with
      | some b => b.id == c.arg 1 0 4
      | none => false, .badArg)]) fun s c =>
      let us := c.arg 2 0 32
      let b : Barrier := ⟨pos, c.arg 1 0 4, c.arg 1 4 6, if us = 0 then none else some (s.tick + us * ticksPerUs), none⟩
      let s := s.running d c
      (s.setDrawer d { s.drawer d with barrier := some b }).sendSync syncArrive (s.barPayload b))

/-- BARRIER_GATE_OPEN (R130): GTC has reached R. -/
def execBarrierGateOpen (d : Nat) (s : State) : Host.Outcome State Fault Refusal := .next (s.barrierOpen d)

/-- BARRIER_TIMEOUT (R130): the arrival is withdrawn.  No release GTC exists then: RESULT is open. -/
def execBarrierTimeout (d : Nat) (s : State) : Host.Outcome State Fault Refusal :=
  match (s.drawer d).barrier with
  | some b => match b.timeout, b.release with
    | some t, none =>
      .next (if s.tick < t then s
        else
          let w := s.draw
          (w.2.sendSync syncWithdraw (w.2.barPayload b)).barrierDone d b .degraded 1 w.1.toNat)
    | _, _ => .next s
  | none => .next s

/-! ## QUERY (R132) -/

/-- Table 5-8: the words of a snapshot before word 7. -/
def State.snapshot (s : State) (kind target site ch key : Nat) : List Nat :=
  match kind with
  | 1 =>
    let x := s.drawer target
    [s.sqHead target + s.cqTail target * 2 ^ 32,
     x.started + (x.cmds.filter (·.armedClose)).length * 2 ^ 4 + (if x.gated then 2 ^ 16 else 0)
       + (if x.fenced then 2 ^ 17 else 0),
     x.completed]
  | 2 => match s.bucketBase key with
    | some b =>
      let st := match b.st with
        | .opened => 1 | .complete => 2 | .closed => 3 | .inUse => 4
      [st + (if b.closer.isSome && !b.sweeping then 8 else 0) + b.seq * 2 ^ 32, b.arrived, b.clamps + b.excess * 2 ^ 32,
       b.spilled.length + b.readers.length * 2 ^ 32]
    | none => []
  | 3 =>
    let c := Tab.get (fun _ => .empty) s.draws.chests target
    [s.energyNJ target, Tab.get (fun _ => 0) s.ports.bytesIn target, Tab.get (fun _ => 0) s.ports.bytesOut target,
     Tab.get (fun _ => 0) s.ports.stalls target, (s.draws.buckets.filter fun b => b.owner == target).length,
     (c.size - (c.live.map Extent.size).foldl (· + ·) 0) / 2048]
  | 4 =>
    let n := 32 * site + ch
    [s.chanState n + (if s.flag F.CE_STATE_REBUILDING n then 8 else 0), s.fld F.CE_CORR_COUNT n,
     s.fld F.CE_UNCORR_COUNT n, s.fld F.CE_STATE_RESETS n]
  | _ => [(s.view .MW_ID 0).toNat, s.fld F.PW_OP_CTL_CUR_OP 0 + s.throttle * 4, s.fld F.GT_STEP_STEP 0]

/-- QUERY (R132).  A write of DEST that a running command holds waits (R16). -/
def execQuery (d pos : Nat) (s : State) : Host.Outcome State Fault Refusal :=
  .next (s.runCmd d pos .query false
    (pureCheck fun s c =>
      let dest := c.arg 3 0 44
      let kind := c.arg 1 0 8
      let target := c.arg 1 8 6
      let b := s.bucketBase (c.arg 2 0 44)
      let other := (kind == 1 || kind == 3) && target != d ||
        kind == 2 && (match b with
          | some b => b.owner != d
          | none => false)
      [(dest % 64 != 0 || kind == 0 || decide (5 < kind), .badArg), (s.badWindow dest 64, .badArg),
       (s.foreign d dest 64, .notPermitted), (kind == 2 && b.isNone, .badArg),
       (d != 0 && other, .notPermitted), (s.touchesClass 2 dest 64, .regionClass),
       (!(s.bucketsIn dest 64).isEmpty, .notPermitted)]) fun s c =>
      let dest := c.arg 3 0 44
      if s.rangeHeld dest 64 then s
      else
        let ws := s.snapshot (c.arg 1 0 8) (c.arg 1 8 6) (c.arg 1 14 3) (c.arg 1 17 5) (c.arg 2 0 44)
        let ws := ((ws ++ List.replicate 7 0).take 7 ++ [s.gtc]).map (BitVec.ofNat 64)
        (s.writeSec dest (mkSec (ofWords ws)) d).2.finish d c .ok 0 0)

/-! ## PARTITION_SET and POWER_CAP -/

def State.chest (s : State) (p : Nat) : Chest := Tab.get (fun _ => .empty) s.draws.chests p
def State.setChest (s : State) (p : Nat) (c : Chest) : State :=
  { s with draws := { s.draws with chests := Tab.set (fun _ => .empty) s.draws.chests p c } }

/-- R170: the shares of every port are computed again. -/
def State.rebalanceAll (s : State) : State :=
  (List.range 32).foldl (fun s p => if s.flag F.PT_STAT_RELEASED p then (s.rebalance p 0).rebalance p 1 else s) s

/-- R109: does a pool leave the granules of its partition?  D0's freedom of R125 is not the pool's. -/
def State.poolForeign (s : State) (part base size : Nat) : Bool := (granulesOf base size).any fun g => s.granOwner g != part

/-- PARTITION_SET (R109, R126, R170, R224).  A pool outside the partition's granules is answered NOT_PERMITTED, as R125 step 3
answers a range outside them (DESIGN CHOICE, log 38). -/
def execPartitionSet (d pos : Nat) (s : State) : Host.Outcome State Fault Refusal :=
  .next (s.runCmd d pos .partitionSet false
    (pureCheck fun s c =>
      let part := c.arg 1 0 6
      let base := c.arg 4 0 44
      let size := c.arg 5 0 32 * 2048
      let ch := s.chest part
      [(c.arg 1 39 8 == 0 || decide (4096 < c.arg 1 26 13) || base % 2048 != 0 || part == 0 && !c.argBit 1 6, .badArg)]
        ++ s.rangeChecks d [(base, size)]
        ++ [(s.poolForeign part base size, .notPermitted), ((ch.base != base || ch.size != size) && !ch.live.isEmpty, .badArg),
            (s.touchesClass 2 base size, .regionClass)]) fun s c =>
      let p := c.arg 1 0 6
      let s := s.put F.PA_CFG_ENABLE p (c.arg 1 6 1)
      let s := s.put F.PA_CFG_TC0_EN p (c.arg 1 7 1)
      let s := s.put F.PA_CFG_STEER p (c.arg 1 8 1)
      let s := s.put F.PA_CFG_ACT_FIXED p (c.arg 1 9 1)
      let s := s.put F.PA_CFG_KGRANT p (c.arg 1 10 16)
      let s := s.put F.PA_CFG_BKT_QUOTA p (c.arg 1 26 13)
      let s := s.put F.PA_CFG_TC1_WEIGHT p (c.arg 1 39 8)
      let s := s.put F.PA_PORTS_PORT_MASK p (c.arg 2 0 32)
      let s := s.put F.PA_REG_RATE p (c.arg 3 0 16)
      let s := s.put F.PA_REG_BURST p (c.arg 3 16 32)
      let s := { s with ports := { s.ports with
        tokens := Tab.set (fun _ => 0) s.ports.tokens p ((c.arg 3 16 32 : Int) * 1024 * 16) } }
      let s := s.setChest p { s.chest p with base := c.arg 4 0 44, size := c.arg 5 0 32 * 2048 }
      s.rebalanceAll.finish d c .ok 0 0)

/-- POWER_CAP (R301). -/
def execPowerCap (d pos : Nat) (s : State) : Host.Outcome State Fault Refusal :=
  .next (s.runCmd d pos .powerCap false
    (pureCheck fun _ c =>
      let cap := c.arg 1 0 16
      let win := c.arg 1 16 16
      let codes := (List.range 4).map fun i => c.arg 2 (4 * i) 4
      [(decide (cap < 280 ∨ 944 < cap ∨ win < 1 ∨ 10000 < win) || !(List.range 4).all codes.contains, .badArg)])
    fun s c =>
      let s := s.put F.PW_GOV_CFG_CAP 0 (c.arg 1 0 16)
      let s := s.put F.PW_GOV_CFG_WINDOW 0 (c.arg 1 16 16)
      let s := s.put F.PW_GOV_CFG_PRIO 0 (c.arg 2 0 16)
      (s.put F.PW_GOV_CFG_PL_ONE 0 (c.arg 2 16 1)).applyLevels.finish d c .ok 0 0)

/-! ## REGION_SET (R131, R213, R214) -/

/-- The tier of a granule. -/
def State.granTier (s : State) (g : Nat) : Option Tier :=
  s.tiers.find? fun t => decide (t.base ≤ g * gib ∧ g * gib < t.base + t.size)

/-- R214: does the Mended mapping accept the change of granule `g` within `[lo, hi)`? -/
def State.unitInside (s : State) (g lo hi : Nat) : Bool :=
  let q := s.mendQ
  decide (2 ≤ s.mendN) && (match s.granTier g with
    | some t => t.base == 0
    | none => false) && decide (lo ≤ g / q * q ∧ g / q * q + q ≤ hi)

/-- Granules `[lo, hi)`. -/
def granList (lo hi : Nat) : List Nat := (List.range (hi - lo)).map (lo + ·)

/-- R131: checks 2 to 4. -/
def State.regionChecks (s : State) (lo hi cls : Nat) (init : Bool) : List (Bool × Status) :=
  let gs := granList lo hi
  let inSet := fun a len => overlap a len (lo * gib) ((hi - lo) * gib)
  [(cls == 2 && decide (s.fld F.MW_CONFIG_MEND_SITES 0 < 3) ||
      gs.any fun g => s.granClass g != cls && (cls == 2 || s.granClass g == 2) && !s.unitInside g lo hi, .regionClass),
   (s.draws.buckets.any (fun b => inSet b.base b.extent) ||
      (List.range 64).any fun d =>
        inSet (s.chest d).base (s.chest d).size || s.flag F.DR_CTL_ENABLE d &&
          (inSet (s.sqBase d) (64 * s.sqSize d) || inSet (s.cqBase d) (32 * s.cqSize d)), .badArg),
   (!init && gs.any fun g => s.granClass g != cls && !(s.granClass g == 1 && cls == 0), .badArg)]

/-- Set or clear BUSY. -/
def State.setBusy (s : State) (gs : List Nat) (b : Nat) : State := gs.foldl (fun s g => s.put F.RG_GRAN_BUSY g b) s

/-- First address of the stripe row of a Mended address. -/
def State.rowStart (s : State) (a : Nat) : Nat :=
  let u := s.mendQ * gib
  let w := (s.mendN - 1) * 2048
  a / u * u + a % u / w * w

/-- R131 step 3: the parity of a stripe row of which INIT zeroes only the part in `[lo, hi)`: its 32 sectors as they
will stand. -/
def State.partParity (s : State) (a lo hi : Nat) : List (Loc × Option SectorBits) :=
  match if s.isMended a then s.stripe a else none with
  | none => []
  | some r =>
    let a0 := s.rowStart a
    if lo ≤ a0 ∧ a0 + (s.mendN - 1) * 2048 ≤ hi then []
    else (List.range 32).map fun k =>
      (⟨32 * s.mendSites.getD r.p 0 + r.ch, r.m * 32 + k⟩,
        (List.range (s.mendN - 1)).foldl (fun x d =>
          let b := a0 + d * 2048 + 64 * k
          if lo ≤ b ∧ b < hi then x
          else match x, s.stripe b with
            | some x, some q =>
              let g := (s.fetch (s.stripeLoc q) none).1
              if g.sec.fault then none else some (x ^^^ g.sec.data)
            | _, _ => none) (some 0))

/-- Does INIT of `[lo, hi)` zero a sector of a channel: an address in it, or a parity member whose row lies in it? -/
def State.zeroed (s : State) (lo hi : Nat) (l : Loc) : Bool :=
  match s.addrOf l with
  | some a => decide (lo ≤ a ∧ a < hi)
  | none =>
    s.locMended l &&
      let n := s.mendN
      let q := s.mendQ
      let u := l.m / (q * 16384 / n)
      let row := (l.m - u * q * 16384 / n) * 32 + l.n % 32
      let a0 := u * q * gib + row * ((n - 1) * 2048)
      decide (lo ≤ a0 ∧ a0 + (n - 1) * 2048 ≤ hi)

/-- R131 step 3: zero data, valid check bits and parity; a zero sector and its check bits are what an unlisted one
reads as (log 7). -/
def State.initRange (s : State) (lo hi : Nat) : State :=
  let parity := s.partParity lo lo hi ++ s.partParity (hi - 1) lo hi
  let keep := fun (i : Nat) => s.chanState (i / 2 ^ 26) == 3 || !s.zeroed lo hi ⟨i / 2 ^ 26, i % 2 ^ 26⟩
  let rows := fun (c : Nat) (u : Mend) => { u with lost := Tab.restrict (fun m =>
    keep ((32 * s.mendSites.getD 0 0 + c) * 2 ^ 26 + m * 32)) u.lost }
  let s := { s with mem := { s.mem.reground (fun i => !keep i) (s.mem.ground.filter fun g => keep g.lo) with
    touched := Tab.restrict (fun g => decide (g < lo / gib ∨ hi / gib ≤ g)) s.mem.touched } }
  let s := (List.range 32).foldl (fun s c => if (s.mend c).lost.isEmpty then s else s.setMend c (rows c (s.mend c))) s
  parity.foldl (fun s e =>
    if s.chanState e.1.n != 0 then s
    else match e.2 with
      | some x => s.writeEncoded e.1 x
      | none => s.writePoison e.1) s

/-- Is some channel of a granule's tier retired? -/
def State.granRetired (s : State) (g : Nat) : Bool := match s.granTier g with
  | some t => t.sites.any fun x => (List.range 32).any fun c => s.chanState (32 * x + c) == 3
  | none => false

/-- R213: the stored sectors that a change of granules from Guarded to Plain rewrites: those of channels in service. -/
def State.relaid (s : State) (lo hi : Nat) : List Loc :=
  (s.listed.map fun i => (⟨i / 2 ^ 26, i % 2 ^ 26⟩ : Loc)).filter fun l => s.chanState l.n == 0 &&
    match s.addrOf l with
    | some a => decide (lo * gib ≤ a ∧ a < hi * gib) && s.granClass (a / gib) == 1
    | none => false

/-- R213: a sector is read through the checker and written into the grouped layout. -/
def State.relay (s : State) (d : Nat) (l : Loc) : State :=
  let g := s.judge l (some d) true
  if g.1.ue then g.2 else if g.1.sec.fault then g.2.writePoison l else g.2.writeEncoded l g.1.sec.data

/-- R131: the change itself, once nothing holds it up. -/
def State.regionChange (s : State) (d : Nat) (c : Cmd) (lo hi : Nat) : State :=
  let gs := granList lo hi
  let cls := c.arg 1 20 2
  let init := c.argBit 1 28
  let s := s.dropWhere (within (lo * gib) ((hi - lo) * gib))
  let s := if init || cls != 0 then s else (s.relaid lo hi).foldl (fun s l => s.relay d l) s
  let bursts := gib / 2048 * (if init then gs.length else (gs.filter fun g => s.granClass g != cls).length)
  let s := (s.chargeBursts d 3 (if init then 0 else bursts)).chargeBursts d 4 bursts
  let s := gs.foldl (fun s g => (s.put F.RG_GRAN_CLASS g cls).put F.RG_GRAN_OWNER g (c.arg 1 22 6)) s
  let s := s.when init (·.initRange (lo * gib) (hi * gib))
  let lost := if init then (gs.filter fun g => cls != 2 && s.granRetired g).length else 0
  let st := if init && gs.any s.granRetired then Status.degraded else .ok
  ((s.setBusy gs 0).finish d c st lost (if init then gs.length else 0)).settle

/-- REGION_SET (R131). -/
def execRegionSet (d pos : Nat) (s : State) : Host.Outcome State Fault Refusal :=
  .next (s.runCmd d pos .regionSet true
    (pureCheck fun s c =>
      let first := c.arg 1 0 10
      let count := c.arg 1 10 10
      [(decide (count = 0 ∨ 768 < first + count ∨ s.windowEnd < (first + count) * gib) || c.arg 1 20 2 == 3, .badArg)])
    fun s c =>
      let lo := c.arg 1 0 10
      let hi := lo + c.arg 1 10 10
      let cls := c.arg 1 20 2
      let init := c.argBit 1 28
      let s := s.running d c
      if s.earlierRuns d c true then s
      else
        let busy := s.flag F.RG_GRAN_BUSY lo
        match if busy then none else firstFail (s.regionChecks lo hi cls init) with
        | some st => s.finish d c st 0 0
        | none =>
          let s := s.setBusy (granList lo hi) 1
          let writes := init || (granList lo hi).any fun g => s.granClass g != cls
          let s := s.writeBackWhere (within (lo * gib) ((hi - lo) * gib)) d
          if s.dirtyWaits (within (lo * gib) ((hi - lo) * gib)) || writes && s.someOut then s
          else
            let ues := if init || cls != 0 then [] else (s.relaid lo hi).filter s.ueAt
            if ues.isEmpty then s.regionChange d c lo hi else ues.foldl (fun s l => s.relay d l) s)

/-! ## Chests (R109, R110) -/

/-- R126: first fit: the lowest address in the pool with `size` bytes free. -/
def Chest.fit (c : Chest) (size : Nat) : Option Nat :=
  let starts := (c.base :: c.live.map fun e => e.addr + e.size).insertionSort (· ≤ ·)
  starts.find? fun a => decide (a + size ≤ c.base + c.size) && c.live.all fun e => !overlap a size e.addr e.size

/-- OFFLOAD_ACT (R109, R110). -/
def execOffloadAct (d pos : Nat) (s : State) : Host.Outcome State Fault Refusal :=
  .next (s.runCmd d pos .offloadAct false
    (pureCheck fun s c =>
      [(c.arg 2 0 24 == 0, .badArg), (c.granted F.PA_CFG_ACT_FIXED != 0, .notPermitted),
       (((s.chest d).fit (c.arg 2 0 24 * 2048)).isNone, .reserveFull)]) fun s c =>
      let ch := s.chest d
      match ch.fit (c.arg 2 0 24 * 2048) with
      | some a =>
        let e : Extent := ⟨a, c.arg 2 0 24 * 2048, c.arg 1 0 4, c.arg 1 4 32⟩
        (s.setChest d { ch with live := ch.live ++ [e] }).finish d c .ok (c.arg 1 0 4) a
      | none => s)

/-- R177: queue block writes of a command on a port: sectors to consecutive addresses, a write for each 2 KiB of the
receiver's addresses, the last a WR_FINAL where `final` is set. -/
def State.queueWrites (s : State) (p d pos og dest : Nat) (secs : List Sec) (final : Bool) : State :=
  let n := secs.length
  let bursts := burstsOf (dest / 64 * 64) (64 * n)
  let ws : List OutWrite := bursts.filterMap fun b =>
    let lo := Nat.max (b * 32) (dest / 64) - dest / 64
    let hi := Nat.min ((b + 1) * 32) (dest / 64 + n) - dest / 64
    if lo < hi then some ⟨d, pos, d, og, dest + 64 * lo, final && hi == n, (secs.take hi).drop lo⟩ else none
  s.setPort p { s.port p with outq := (s.port p).outq ++ ws }

/-- R109: send an extent. -/
def State.recallSend (s : State) (d : Nat) (c : Cmd) (late : Bool) : State :=
  let ch := s.chest d
  match ch.live.find? fun e => e.addr == c.arg 1 0 44 with
  | some e =>
    if !s.rangesFree [(e.addr, e.size)] then s
    else
      let r := s.readSecs e.addr (e.size / 64) d
      let s := r.2.2.queueWrites (c.arg 1 44 5) d c.pos (c.arg 1 51 8) (c.arg 2 0 44) r.1 true
      let s := s.when (c.argBit 1 49) fun s => s.setChest d { ch with live := ch.live.erase e }
      s.finish d { c with late := late } r.2.1 0 s.gtc
  | none => s.finish d c .badArg 0 0

/-- RECALL_ACT (R109): the extent is freed without sending, sent at once when AT has passed, or sent at AT. -/
def execRecallAct (d pos : Nat) (s : State) : Host.Outcome State Fault Refusal :=
  .next (s.runCmd d pos .recallAct false
    (pureCheck fun s c =>
      [(c.argBit 1 50 && !c.argBit 1 49, .badArg), (c.granted F.PA_CFG_ACT_FIXED != 0, .notPermitted),
       (!(s.chest d).live.any fun e => e.addr == c.arg 1 0 44, .badArg)]) fun s c =>
      if c.argBit 1 50 then
        let ch := s.chest d
        (s.setChest d { ch with live := ch.live.filter fun e => e.addr != c.arg 1 0 44 }).finish d c .ok 0 0
      else if (c.w 3).toNat < s.gtc then
        let c : Cmd := { c with late := true }
        (s.running d c).recallSend d { c with phase := .running } true
      else s.running d c)

/-- RECALL_SEND (R109): GTC has reached AT. -/
def execRecallSend (d pos : Nat) (s : State) : Host.Outcome State Fault Refusal :=
  match s.cmd d pos with
  | some c =>
    .next (if c.phase = .running ∧ c.opcode = Op.recallAct.code ∧ (c.w 3).toNat ≤ s.gtc ∧ !s.stalled
      then s.recallSend d c c.late else s)
  | none => .next s

end Sys2Proof.Machine
end

