-- ==== Sys2Proof/Machine/BucketRows.lean ====
section
/-!
DEFINITION. The bucket commands (R82 to R84, R91, R93 to R95).
-/

namespace Sys2Proof.Machine

open Sys2Proof.Num

/-! ## BUCKET_OPEN -/

/-- The bucket that a BUCKET_OPEN describes (Table 4-1), with the lines in `spilled` spilled. -/
def openBucket (c : Cmd) (owner seq : Nat) (spilled : List Nat) : Bucket :=
  { base := c.arg 1 0 44, nelem := c.arg 2 0 21, expect := c.arg 2 21 16 + 1, bx := c.arg 1 44 8,
    cfmt := c.arg 2 37 4, csb := 8 * 2 ^ c.arg 2 41 3, asc := c.arg 1 52 8, hist := c.argBit 1 60,
    hb := signed 8 (c.arg 2 44 8), result := c.arg 3 0 44, tag := c.arg 3 44 16, owner := owner, seq := seq,
    st := .opened, arrived := 0, clamps := 0, excess := 0, maxc := 0, lost := false, corrected := false,
    short := false, closer := none, sweeping := false, spilled := spilled, acc := [], readers := [],
    release := false }

/-- R82: the formats a bucket takes. -/
def bucketFormat (code : Nat) : Bool := decide (code ≤ 8) || code == 11

/-- Table 4-1: is every argument in its range? -/
def openArgsOk (c : Cmd) : Bool :=
  let n := c.arg 2 0 21
  c.arg 1 0 44 % 2048 == 0 && decide (1 ≤ n ∧ n ≤ 2 ^ 20) && decide (c.arg 1 44 8 ≤ 254) && decide (c.arg 1 52 8 ≤ 254)
    && bucketFormat (c.arg 2 37 4) && c.arg 3 0 44 % 64 == 0
    && (match Fmt.ofCode (c.arg 2 37 4) with
      | some f => !f.scalable || decide (c.arg 2 41 3 ≤ 5)
      | none => false)

/-- The range of the bucket's record (R83 step 2). -/
def recordRange (b : Bucket) : Nat × Nat :=
  if b.result = 0 then (0, 0) else (b.result, if b.hist then 320 else 64)

/-- R83. -/
def State.openChecks (s : State) (d : Nat) (c : Cmd) : List (Bool × Status) :=
  let b := openBucket c d 0 []
  let r := recordRange b
  [(!openArgsOk c, .badArg),
   (s.badWindow b.base b.extent || s.badWindow r.1 r.2, .badArg),
   (s.foreign d b.base b.extent || s.foreign d r.1 r.2, .notPermitted),
   (s.touchesClass 0 b.base b.extent || s.touchesClass 2 b.base b.extent || s.touchesClass 2 r.1 r.2, .regionClass),
   (!(s.bucketsIn b.base b.extent).isEmpty, .badArg),
   (s.touchesRetired b.base b.extent, .degraded),
   (decide (4096 ≤ s.draws.buckets.length) ||
      decide (c.granted F.PA_CFG_BKT_QUOTA ≤ (s.draws.buckets.filter fun x => x.owner == d).length), .reserveFull),
   (!c.argBit 1 61 && !(s.linesToSpill b.base b.lines).isEmpty, .reserveFull)]

/-- BUCKET_OPEN (R83, R91): spilled lines wait for their channels (Table 5-10). -/
def execBucketOpen (d pos : Nat) (s : State) : Host.Outcome State Fault Refusal :=
  .next (s.runCmd d pos .bucketOpen false (pureCheck fun s c => s.openChecks d c) fun s c =>
    let base := c.arg 1 0 44
    let spill := s.linesToSpill base (openBucket c d 0 []).lines
    if !spill.isEmpty && !spill.all fun i => s.rangeReady (base + 512 * i) 512 then s
    else
      let seq := s.fld F.AV_BKT_SEQ_NEXT_SEQ 0
      let s := s.put F.AV_BKT_SEQ_NEXT_SEQ 0 (seq + 1)
      let s := spill.foldl (fun s i => s.zeroLine (base + 512 * i) d) s
      let s := { s with draws := { s.draws with buckets := s.draws.buckets ++ [openBucket c d seq spill] } }
      s.finish d c .ok 0 (seq + spill.length * 2 ^ 32))

/-! ## BUCKET_CLOSE -/

/-- R126: the first checks of a close and of a discard. -/
def State.bucketChecks (s : State) (d base : Nat) : List (Bool × Status) :=
  match s.bucketBase base with
  | none => [(true, .badArg)]
  | some b => [(d != 0 && b.owner != d, .notPermitted)]

/-- BUCKET_CLOSE (R93): the close is armed, or its sweep begins; a closed bucket is left alone.  The spec does not name the state
that QUERY and ACC see of a bucket under a forced close's sweep: the model shows COMPLETE (DESIGN CHOICE, log 44). -/
def execBucketClose (d pos : Nat) (s : State) : Host.Outcome State Fault Refusal :=
  .next (s.runCmd d pos .bucketClose false
    (pureCheck fun s c => s.bucketChecks d (c.arg 1 0 44) ++
      [(match s.bucketBase (c.arg 1 0 44) with
        | some b => b.closer.isSome
        | none => false, .badArg)]) fun s c =>
      match s.bucketBase (c.arg 1 0 44) with
      | none => s
      | some b =>
        let b' : Bucket := { b with closer := some (d, pos) }
        match b.st with
        | .opened =>
          if c.argBit 1 44 then
            (s.running d c).setBucket
              { b' with st := .complete, sweeping := true, short := decide (b.arrived < b.full) }
          else (s.setCmd d { c with phase := .running, armedClose := true }).setBucket b'
        | .complete => (s.running d c).setBucket { b' with sweeping := true }
        | .closed | .inUse => s.finish d c .ok 0 b.arrived)

/-- BUCKET_CLOSE_SWEEP_DONE (R94, R95): the sweep has ended; spilled lines wait for their channels. -/
def execBucketCloseSweepDone (base : Nat) (s : State) : Host.Outcome State Fault Refusal :=
  match s.bucketBase base with
  | some b =>
    if !b.sweeping || !s.spilledReady b 0 b.lines then .next s
    else
      let r := s.closeSweep b
      .next (match b.closer with
        | some (d, pos) => match r.2.cmd d pos with
          | some c => r.2.finish d c r.1.status 0 b.arrived
          | none => r.2
        | none => r.2)
  | none => .next s

/-! ## BUCKET_DISCARD -/

/-- BUCKET_DISCARD (R84): the bucket is FREE; an armed close of it completes with BAD_ARG.  Of a COMPLETE bucket whose close sweep
runs R84 says no more than that it may be discarded: the model ends that close in the same way (DESIGN CHOICE, log 45). -/
def execBucketDiscard (d pos : Nat) (s : State) : Host.Outcome State Fault Refusal :=
  .next (s.runCmd d pos .bucketDiscard false
    (pureCheck fun s c => s.bucketChecks d (c.arg 1 0 44) ++
      [(match s.bucketBase (c.arg 1 0 44) with
        | some b => b.st == .inUse
        | none => false, .badArg)]) fun s c =>
      match s.bucketBase (c.arg 1 0 44) with
      | none => s
      | some b =>
        let s := match b.closer with
          | some (e, p) => match s.cmd e p with
            | some x => s.finish e x .badArg 0 0
            | none => s
          | none => s
        (s.freeBucket b.base).finish d c .ok 0 0)

end Sys2Proof.Machine
end

