-- ==== Sys2Proof/Machine/Bureau.lean ====
section
/-!
DEFINITION. The Bureau: its banks, records and writes (R316 to R320), and the shutdown header (R321).
-/

namespace Sys2Proof.Machine

/-! ## Bytes -/

/-- A number in `n` bytes, the lowest first. -/
def leBytes (n v : Nat) : List Byte := bytesOf n (BitVec.ofNat (8 * n) v)

/-- The number in `n` bytes at offset `a`. -/
def leNat (bs : List Byte) (a n : Nat) : Nat := ofBytes ((bs.drop a).take n)

/-! ## The header of a bank (Table 13-4) -/

/-- What a header says. -/
structure BankHead where
  seq : Nat
  length : Nat
  shut : Bool
  gtc : Nat
  step : Nat
  retired : Nat
  ce : Nat
  ue : Nat
  resets : Nat
  deriving DecidableEq, Repr

/-- The 256 bytes of a header with a given CRC. -/
def BankHead.bytes (h : BankHead) (crc : Nat) : List Byte :=
  leBytes 4 0x5542574D ++ leBytes 4 h.seq ++ leBytes 4 h.length ++ leBytes 4 crc ++ leBytes 2 0x0300
    ++ leBytes 2 (if h.shut then 1 else 0) ++ leBytes 12 0 ++ leBytes 8 h.gtc ++ leBytes 8 h.step ++ leBytes 32 h.retired
    ++ leBytes 8 h.ce ++ leBytes 8 h.ue ++ leBytes 8 h.resets ++ leBytes 152 0

/-- R317: the CRC of a bank: the header without its CRC field, then the body. -/
def bankCrc (head body : List Byte) : Nat := (crc32 (head.take 12 ++ (head.drop 16).take 240 ++ body)).toNat

/-- A header with its CRC. -/
def BankHead.seal (h : BankHead) (body : List Byte) : List Byte := h.bytes (bankCrc (h.bytes 0) body)

/-- The body of a bank as it is read. -/
def bankBody (bank : List Byte) : List Byte := (bank.drop 256).take (leNat bank 8 4)

/-- R319: is a bank valid? -/
def bankValid (bank : List Byte) : Bool :=
  let len := leNat bank 8 4
  leNat bank 0 4 == 0x5542574D && leNat bank 0x10 2 == 0x0300 && len % 256 == 0
    && decide (256 ≤ len ∧ len ≤ 261888 ∧ 256 + len ≤ bank.length)
    && bankCrc (bank.take 256) (bankBody bank) == leNat bank 0x0C 4

/-! ## Records (R318, Table 13-5) -/

/-- A record: its header and its payload. -/
def bureauRecord (type : Nat) (payload : List Byte) : List Byte :=
  leBytes 8 (type + payload.length * 2 ^ 32) ++ payload

/-- The identity word of a site, by which a CAL record names it (R311). -/
def State.identWord (s : State) (t : Nat) : BitVec 32 := (s.reg .SS_IDENT t).setWidth 32

/-- The CAL record: each channel's calibration led by its site's identity word; the calibration is the PHY's (log 18). -/
def State.calRecord (s : State) : List Byte :=
  (List.range 256).flatMap fun n =>
    bytesOf 4 (s.identWord (n / 32)) ++ (List.range 124).map fun i => Config.calByte (s.freeCtr * 2 ^ 15 + 124 * n + i)

/-- R311: the channels of a site whose identity word leads their CAL entry train from the calibration that follows it. -/
def State.loadCal (s : State) : State :=
  let cal := s.life.bureau.cal
  let match_ := fun n => decide (128 * (n + 1) ≤ cal.length) && leNat cal (128 * n) 4 == (s.identWord (n / 32)).toNat
  { s with life := { s.life with calib :=
      ((List.range 256).filter fun n => s.chanState n == 0 && match_ n).map fun n => (n, (cal.drop (128 * n + 4)).take 124) } }

/-- The counters of the ERRSUM record. -/
def State.errsumNow (s : State) : Tab Word :=
  (List.range 256).foldl (fun t n =>
    let t := Tab.set (fun _ => 0#64) t (3 * n) (BitVec.ofNat 64 (s.fld F.CE_CORR_COUNT n))
    let t := Tab.set (fun _ => 0#64) t (3 * n + 1) (BitVec.ofNat 64 (s.fld F.CE_UNCORR_COUNT n))
    Tab.set (fun _ => 0#64) t (3 * n + 2) (BitVec.ofNat 64 (s.fld F.CE_STATE_RESETS n))) []

/-- The body that an image gives, filled up with zeros to a multiple of 256. -/
def Bureau.encode (b : Bureau) : List Byte :=
  let bs := bureauRecord 1 (bytesOf 32 b.retired)
    ++ bureauRecord 2 (leBytes 8 b.dropped ++ b.repairs.flatMap fun w => bytesOf 8 w)
    ++ bureauRecord 3 ((List.range 768).flatMap fun i => bytesOf 8 (Tab.get (fun _ => 0#64) b.errsum i))
    ++ bureauRecord 4 b.cal ++ bureauRecord 5 []
  bs ++ List.replicate ((256 - bs.length % 256) % 256) 0

/-- Words of a payload. -/
def payloadWords (bs : List Byte) : List Word :=
  (List.range (bs.length / 8)).map fun i => BitVec.ofNat 64 (leNat bs (8 * i) 8)

/-- One record into an image; one of unknown type is skipped. -/
def Bureau.take (b : Bureau) (type : Nat) (bs : List Byte) : Bureau :=
  match type with
  | 1 => { b with retired := BitVec.ofNat 256 (leNat bs 0 32) }
  | 2 => match payloadWords bs with
    | n :: ws => { b with repairs := ws, dropped := n.toNat }
    | [] => b
  | 3 => { b with errsum := (payloadWords bs).zipIdx.foldl (fun t e => Tab.set (fun _ => 0#64) t e.2 e.1) [] }
  | 4 => { b with cal := bs }
  | _ => b

/-- The records of a body up to END; `fuel` bounds their number. -/
def Bureau.decode : Nat → List Byte → Bureau → Bureau
  | 0, _, b => b
  | fuel + 1, bs, b =>
    if bs.length < 8 ∨ leNat bs 0 2 = 5 then b
    else
      let len := leNat bs 4 4
      Bureau.decode fuel (bs.drop (8 + len)) (b.take (leNat bs 0 2) ((bs.drop 8).take len))

/-! ## Reading (R319) -/

/-- R319: is a sequence number newer, by serial arithmetic? -/
def newerSeq (a b : Nat) : Bool := let d := (a + 2 ^ 32 - b) % 2 ^ 32; decide (1 ≤ d ∧ d < 2 ^ 31)

/-- R319: the bank that is selected, and whether the choice is odd. -/
def selectBank (b0 b1 : List Byte) : Option Nat × Bool :=
  match bankValid b0, bankValid b1 with
  | true, true =>
    let d := (leNat b0 4 4 + 2 ^ 32 - leNat b1 4 4) % 2 ^ 32
    if d = 0 ∨ d = 2 ^ 31 then (some 0, true) else if newerSeq (leNat b0 4 4) (leNat b1 4 4) then (some 0, false) else (some 1, false)
  | true, false => (some 0, false)
  | false, true => (some 1, false)
  | false, false => (none, false)

def State.setBureau (s : State) (b : Bureau) : State := { s with life := { s.life with bureau := b } }

/-- R319: the selected bank becomes the image; SHUT_RETIRED joins the retired set. -/
def State.loadBank (s : State) (k : Nat) (bank : List Byte) : State :=
  let body := bankBody bank
  let b := Bureau.decode body.length body .empty
  let shut := leNat bank 0x12 2 % 2 = 1
  let b := if shut then { b with retired := b.retired ||| BitVec.ofNat 256 (leNat bank 0x30 32) } else b
  let s := (s.put F.LC_BUREAU_CUR_BANK 0 k).put F.LC_BUREAU_SEQ 0 (leNat bank 4 4)
  let s := (s.put F.LC_LAST_SHUT_SHUT_STEP 0 (leNat bank 0x28 6)).put F.LC_LAST_SHUT_SHUT_VALID 0 (if shut then 1 else 0)
  s.setBureau { b with lastRefresh := s.gtc }

/-- R316, R319: the Bureau read. -/
def State.readBureau (s : State) (sfdpOk slow : Bool) (b0 b1 : List Byte) : State :=
  if !sfdpOk then (s.put F.LC_BUREAU_ABSENT 0 1).raise .lifeCycle
  else
    let s := s.put F.LC_BUREAU_SLOW_FLASH 0 (if slow then 1 else 0)
    let c := selectBank b0 b1
    match c.1 with
    | some k => (s.loadBank k (if k = 0 then b0 else b1)).put F.LC_BUREAU_ODD 0 (if c.2 then 1 else 0)
    | none => s.put F.LC_BUREAU_EMPTY 0 1

/-! ## Writing (R320) -/

/-- Is the block in service, with a flash and no drain? -/
def State.bureauFree (s : State) : Bool :=
  s.lc == lcReleased && s.life.drain.isNone && !s.flag F.LC_BUREAU_ABSENT 0

/-- The bank that the next write goes to: bank 0 where none was valid (R319). -/
def State.nextBank (s : State) : Nat :=
  if s.flag F.LC_BUREAU_EMPTY 0 && s.fld F.LC_BUREAU_SEQ 0 == 0 then 0 else 1 - s.fld F.LC_BUREAU_CUR_BANK 0

/-- The next sequence number. -/
def State.nextSeq (s : State) : Nat := (s.fld F.LC_BUREAU_SEQ 0 + 1) % 2 ^ 32

/-- BUREAU_WRITE (R320): the image is brought up to date and a write starts; the prepared bank is erased. -/
def execBureauWrite (s : State) : Host.Outcome State Fault Refusal :=
  let b := s.life.bureau
  .next (if !b.pending || b.writing.isSome || !s.bureauFree then s
    else
      let b := { b with errsum := s.errsumNow, cal := s.calRecord, pending := false }
      let s := (s.put F.LC_BUREAU_WRITING 0 1).put F.LC_BUREAU_PREPARED 0 0
      s.draw.2.setBureau { b with writing := some b.encode, banked := false })

/-- R320 steps 1 to 4: the bank stands with its header, and it is current. -/
def State.bankCurrent (s : State) (body : List Byte) : State :=
  if s.life.bureau.banked then s
  else
    let k := s.nextBank
    let q := s.nextSeq
    let h : BankHead := ⟨q, body.length, false, 0, 0, 0, 0, 0, 0⟩
    let s := s.emit (.flash k (h.seal body) body)
    ((s.put F.LC_BUREAU_CUR_BANK 0 k).put F.LC_BUREAU_SEQ 0 q).setBureau { s.life.bureau with banked := true, body := body }

/-- A Bureau write has ended. -/
def State.bureauEnd (s : State) : State :=
  (s.put F.LC_BUREAU_WRITING 0 0).setBureau { s.life.bureau with writing := none, banked := false }

/-- BUREAU_WRITE_DONE (R320): step 4 has ended and the bank is current; step 5 too, and the other bank is prepared; or a step has
failed twice. -/
def execBureauWriteDone (o : BureauStep) (s : State) : Host.Outcome State Fault Refusal :=
  match s.life.bureau.writing with
  | none => .next s
  | some body => .next (match o with
    | .verified => s.bankCurrent body
    | .prepared =>
      let s := s.bankCurrent body
      ((s.emit (.flash (1 - s.fld F.LC_BUREAU_CUR_BANK 0) [] body)).put F.LC_BUREAU_PREPARED 0 1).bureauEnd
    | .failed => (s.bureauEnd.put F.LC_BUREAU_WRITE_ERR 0 1).raise .lifeCycle)

/-- Ticks of GTC in 24 hours. -/
def ticksPerDay : Nat := 86400 * 1600000000

/-- ERRSUM_REFRESH (R320): 24 hours of GTC have passed. -/
def execErrsumRefresh (s : State) : Host.Outcome State Fault Refusal :=
  let b := s.life.bureau
  .next (if s.lc == lcReleased && decide (b.lastRefresh + ticksPerDay ≤ s.gtc) then
      (s.setBureau { b with lastRefresh := s.gtc }).bureauEvent
    else s)

/-! ## The shutdown header (R321) -/

/-- A sum over all channel engines. -/
def sumChannels (f : Nat → Nat) : Nat := ((List.range 256).map f).foldl (· + ·) 0

/-- Channels out of service or retired. -/
def State.shutRetired (s : State) : Nat :=
  ((List.range 256).filter fun n => s.chanState n == 1 || s.chanState n == 2 || s.chanState n == 3).foldl
    (fun v n => v + 2 ^ n) 0

/-- The shutdown header for the prepared bank. -/
def State.shutHeader (s : State) : List Byte :=
  let body := s.life.bureau.body
  (BankHead.seal ⟨s.nextSeq, body.length, true, s.gtc, s.fld F.GT_STEP_STEP 0, s.shutRetired,
    sumChannels fun n => s.fld F.CE_CORR_COUNT n, sumChannels fun n => s.fld F.CE_UNCORR_COUNT n,
    sumChannels fun n => s.fld F.CE_STATE_RESETS n⟩ body)

end Sys2Proof.Machine
end

