-- ==== Sys2Proof/Machine/MendRows.lean ====
section
/-!
DEFINITION. Stripe rows on their way through a Mend unit (R101, R216, R234, R244, R246 to R248).
-/

namespace Sys2Proof.Machine

/-- R246: a dropped row is stale for the member it was dropped for: its map's bit, where it holds one. -/
def State.markStale (s : State) (n m : Nat) : State :=
  let u := s.mend (n % 32)
  let b := m / Nat.max 1 (s.staleSpan n)
  s.setMend (n % 32) { u with maps := u.maps.map fun e =>
    if e.1 = n / 32 then (e.1, Tab.set (fun _ => false) e.2 b true) else e }

/-- The site of member `i` of a row: data members first, then parity (R215). -/
def State.rowMember (s : State) (p i : Nat) : Nat :=
  if i = s.mendN - 1 then s.mendSites.getD p 0 else s.memberSite p i

/-- The sectors of member `i` of a row: the data as they arrived, or the exclusive-or of all (R244). -/
def MendRow.member (r : MendRow) (n i k : Nat) : Sec :=
  let data := fun j => (Tab.get (fun _ => none) r.secs (32 * j + k)).getD faultSec
  if i = n - 1 then mkSec ((List.range (n - 1)).foldl (fun x j => x ^^^ (data j).data) 0) else data i

/-- R216: a data member's home slice takes the written sector into its line, where it has one, and leaves it clean.  A value
that DRAM will not receive, in a lost row, leaves the slice instead. -/
def State.refresh (s : State) (l : Loc) (x : Sec) (lost : Bool) : State :=
  if (s.slice l.n).hasLine l.k then s.setSlice l.n ((s.slice l.n).putSec l.k (if lost || x.fault then none else some ⟨x, false⟩))
  else s

/-- R149: the bank groups of a channel in Planisher mode leave it for a waiting write. -/
def State.forceOut (s : State) (n : Nat) : State :=
  if s.fld F.CE_PL_STAT_BG_MODE n = 0 then s
  else (List.range 8).foldl (fun s k => s.preempt n k) s

/-- R244, R246, R248: issue a whole stripe row of channel number `c`.  Each data member's write is one access of Mend at its
slice (R221); a member out of service is dropped, and with two of them dropped the row is lost. -/
def State.issueRow (s : State) (c : Nat) (r : MendRow) : State :=
  let n := s.mendN
  let p := s.parityIdx c r.m
  let out := (List.range n).filter fun i => s.chanState (32 * s.rowMember p i + c) != 0
  let two := decide (2 ≤ out.length)
  let s := (List.range n).foldl (fun s i =>
    let ch := 32 * s.rowMember p i + c
    let live := s.chanState ch == 0
    let s := s.when (i != n - 1) (·.countAccess true r.part 2048)
    let s := s.when live (·.forceOut ch)
    let s := (List.range 32).foldl (fun s k =>
      let l : Loc := ⟨ch, r.m * 32 + k⟩
      let x := r.member n i k
      let s := if i = n - 1 then s else s.refresh l x (two && !live)
      if live then s.writeDram l x (some r.part) else s) s
    if live then s.chargeWrite r.part else s.markStale ch r.m) s
  let s := s.charge r.part 8 1
  let u := s.mend c
  let sites := if two then out.map (s.rowMember p) else []
  let s := s.setMend c { u with lost := Tab.set (fun _ => []) u.lost r.m sites }
  let s := s.when two (·.rowsLost c sites [r.m])
  (List.range (n - 1)).foldl (fun s i => match s.addrOf ⟨32 * s.rowMember p i + c, r.m * 32⟩ with
    | some a => s.touch a
    | none => s) s

/-- R244: has every data member of a row arrived? -/
def State.rowWhole (s : State) (r : MendRow) : Bool :=
  (List.range ((s.mendN - 1) * 32)).all fun i => (Tab.get (fun _ => none) r.secs i).isSome

/-- R247: has a rebuild taken a row and not ended it? -/
def State.rowTaken (s : State) (c m : Nat) : Bool := s.draws.jobs.any fun j => j.lock == some (c, m)

/-- R244, R247: the oldest whole row of a Mend unit that no rebuild has taken is issued. -/
def State.issueNext (s : State) (c : Nat) : State :=
  match (s.mend c).rows.find? fun r => s.rowWhole r && !s.rowTaken c r.m with
  | some r => (s.setMend c { s.mend c with rows := (s.mend c).rows.erase r }).issueRow c r
  | none => s

/-- Row slots of a Mend unit (R244). -/
def rowSlots : Nat := 32

/-- R234, R235: a member's sector is checked on its way in; one that fails is Fault. -/
def State.memberIn (s : State) (c m part : Nat) (x : Sec) : Sec × State :=
  if x.good then (x, s) else (faultSec, s.hmInt { chan := some c, row := m, part := some part })

/-- Data members reach a Mend unit; a full buffer makes room first (R62, R244). -/
def State.pushRow (s : State) (c m part : Nat) (secs : List Sec) : State :=
  let s := if rowSlots ≤ (s.mend c).rows.length then s.issueNext c else s
  let r := secs.zipIdx.foldl (fun (acc : Tab (Option Sec) × State) e =>
    let x := acc.2.memberIn c m part e.1
    (acc.1 ++ [(e.2, some x.1)], x.2)) ([], s)
  r.2.setMend c { r.2.mend c with rows := (r.2.mend c).rows ++ [⟨part, m, r.1⟩] }

/-- Whole stripe rows of sectors, from the first byte of a row on, pass their home slices, each segment one access (R221), and
reach their Mend units; the units are returned. -/
def State.pushRows (s : State) (part a : Nat) (secs : List Sec) : List Nat × State :=
  let w := (s.mendN - 1) * 32
  (List.range (secs.length / Nat.max 1 w)).foldl (fun (acc : List Nat × State) i =>
    match acc.2.stripe (a + i * w * 64) with
    | some r =>
      let s := (List.range (w / 4)).foldl (fun s _ => s.countAccess true part 256) acc.2
      (r.ch :: acc.1, s.pushRow r.ch r.m part ((secs.drop (i * w)).take w))
    | none => acc) ([], s)

/-- Write whole stripe rows, and with `issue` wait until they are issued. -/
def State.writeRows (s : State) (part a : Nat) (secs : List Sec) (issue : Bool) : State :=
  let r := s.pushRows part a secs
  if !issue then r.2
  else r.1.dedup.foldl (fun s c => (List.range rowSlots).foldl (fun s _ => s.issueNext c) s) r.2

end Sys2Proof.Machine
end

