-- ==== Sys2Proof/Machine/Tiles.lean ====
section
/-!
DEFINITION. Tile descriptors, the extents they name, and the packing of tiles in memory (R34 to R37, R57 to R60).
-/

namespace Sys2Proof.Machine

open Sys2Proof.Num

/-- Table 3-3: a descriptor from its four words. -/
def tileOf (ws : List Word) : Tile :=
  let w := fun i => ws.getD i 0
  { base := bits (w 0) 0 44, fmt := bits (w 0) 44 4, order := bitOf (w 0) 48, phLog2 := bits (w 0) 49 3,
    scaleMode := bits (w 0) 52 2, sbLog2 := bits (w 0) 54 3, sdir := bitOf (w 0) 57, round := bitOf (w 0) 58,
    rn := bits (w 0) 59 2, ovf := bitOf (w 0) 61, rows := bits (w 1) 0 32, cols := bits (w 1) 32 32,
    pitch := bits (w 2) 0 40, held := bits (w 2) 40 8, bx := bits (w 2) 48 8, scaleBase := bits (w 3) 0 44,
    stray := bits (w 0) 62 2 != 0 || bits (w 2) 56 8 != 0 || bits (w 3) 44 20 != 0 }

def Tile.format (t : Tile) : Fmt := (Fmt.ofCode t.fmt).getD .df32
/-- Panel height and scale block size. -/
def Tile.ph (t : Tile) : Nat := 8 * 2 ^ t.phLog2
def Tile.sb (t : Tile) : Nat := 8 * 2 ^ t.sbLog2
def Tile.elems (t : Tile) : Nat := t.rows * t.cols
def Tile.scaled (t : Tile) : Bool := t.scaleMode == 1 || t.scaleMode == 2

/-- R57, R58, R36: the form of one descriptor; `out` is set for an output. -/
def Tile.formOk (t : Tile) (out : Bool) : Bool :=
  (Fmt.ofCode t.fmt).isSome && !t.stray && t.base % 64 == 0 && decide (t.phLog2 ≤ 5) && t.scaleMode != 3
    && decide (t.sbLog2 ≤ 5) && t.rn != 3 && (out || !t.round) && t.rows != 0 && t.cols != 0
    && t.pitch % 64 == 0 && decide (8 * rowWords t.format t.cols ≤ t.pitch) && t.scaleBase % 64 == 0
    && (!t.order || t.rows % t.ph == 0)
    && (!t.scaled || t.format.scalable && (if t.sdir then t.rows % t.sb == 0 else t.cols % t.sb == 0))

/-- R61. -/
def Tile.blockOk (t : Tile) : Bool := !(t.scaleMode == 1 && t.sdir) || t.order && t.ph % t.sb == 0

/-- R60: what an LD to register format `reg` may read, and what an ST from it may write.  Of 'a scaled stream format to the same
unscaled width' the spec does not say which formats are meant: the model takes any of equal width and kind, DF or DL (DESIGN
CHOICE, log 48). -/
def loadPair (src reg : Fmt) (scaled : Bool) : Bool :=
  exactPair src reg || src == .dx64 && (reg == .df32 || reg == .df16w) ||
    scaled && src.width == reg.width && src.isDF == reg.isDF
def storePair (reg dst : Fmt) : Bool := dst != .dx64 && decide (dst.width ≤ reg.width)

/-- R58: the element at a position of the traversal. -/
def Tile.at_ (t : Tile) (p : Nat) : Nat × Nat :=
  if t.order then
    let q := p % (t.ph * t.cols)
    (p / (t.ph * t.cols) * t.ph + q % t.ph, q / t.ph)
  else (p / t.cols, p % t.cols)

/-- R58: the logical index. -/
def Tile.index (t : Tile) (rc : Nat × Nat) : Nat := rc.1 * t.cols + rc.2

/-- Address of the word that holds an element. -/
def Tile.wordAddr (t : Tile) (rc : Nat × Nat) : Nat := t.base + rc.1 * t.pitch + rc.2 / perWord t.format * 8

/-- R36: place of an element's block in the scale plane, and the plane's size with its padding. -/
def Tile.block (t : Tile) (rc : Nat × Nat) : Nat :=
  if t.sdir then rc.1 / t.sb * t.cols + rc.2 else rc.1 * (t.cols / t.sb) + rc.2 / t.sb
def Tile.blocks (t : Tile) : Nat := t.elems / t.sb
def Tile.planeBytes (t : Tile) : Nat := (t.blocks + 63) / 64 * 64

/-- R101: the extent of an output from `a`, run on to the end of its last stripe row in a Mended region. -/
def State.outExtent (s : State) (a len : Nat) : Nat × Nat :=
  if s.isMended a then
    let w := (s.mendN - 1) * 2048
    (a, (len + w - 1) / Nat.max 1 w * w)
  else (a, len)

/-- The ranges a tile reads. -/
def Tile.reads (t : Tile) : List (Nat × Nat) :=
  (t.base, t.rows * t.pitch) :: if t.scaleMode == 1 then [(t.scaleBase, t.planeBytes)] else []

/-- The ranges a tile writes. -/
def State.tileWrites (s : State) (t : Tile) : List (Nat × Nat) :=
  s.outExtent t.base (t.rows * t.pitch) :: if t.scaled then [s.outExtent t.scaleBase t.planeBytes] else []

/-- R101: does an output extent that touches a Mended region break its rule? -/
def State.breaksRows (s : State) (r : Nat × Nat) : Bool :=
  s.touchesClass 2 r.1 r.2 && !(s.isMended r.1 && s.wholeRows r.1 r.2
    && !s.touchesClass 0 r.1 r.2 && !s.touchesClass 1 r.1 r.2)

/-! ## Reading -/

/-- A sector of a stream: from the reserve where a bucket holds it (R84), else through its home slice. -/
def State.streamSec (s : State) (a part : Nat) : Got × State :=
  match s.reservedSec a with
  | some x => (⟨x, .ok, false⟩, s)
  | none => s.readQuiet a part

/-- R221: one access for each 256 B segment of a stream: a hit when every sector that it names is at hand. -/
def State.countSegment (s : State) (secs : List Nat) (part : Nat) : State :=
  s.countAccess (secs.all s.atHand) part (64 * secs.length)

/-- Bytes of a stream, from a multiple of 64; spilled lines that it misses are filled (R92). -/
def State.streamBytes (s : State) (a n part : Nat) : List Byte × List Bool × Status × State :=
  (List.range ((n + 63) / 64)).foldl (fun (acc : List Byte × List Bool × Status × State) i =>
    let b := a + 64 * i
    let s := if i = 0 || b % 256 = 0 then
        acc.2.2.2.countSegment ((List.range 4).filterMap fun j =>
          let x := b + 64 * j
          if x / 256 = b / 256 ∧ i + j < (n + 63) / 64 then some x else none) part
      else acc.2.2.2
    let g := s.streamSec b part
    (acc.1 ++ bytesOf 64 g.1.sec.data, acc.2.1 ++ [g.1.sec.fault], Status.worst acc.2.2.1 g.1.st, g.2))
    ([], [], .ok, s.countFills a n)

/-- R35: the value of a stored code of column `c`, under its block's scale code. -/
def Tile.valueWith (t : Tile) (code : Nat) (c : Nat) (w : Word) (fault : Bool) : Val :=
  if fault then .fault
  else
    let f := t.format
    if f = .dx64 then windowVal t.bx w
    else
      let v := decode f (ofWord f w (c % perWord f))
      match t.scaleMode with
      | 1 => applyScale code v
      | 2 => applyScale t.held v
      | _ => v

/-- The value of an element, its scale taken from a whole plane. -/
def Tile.value (t : Tile) (plane : List Byte) (rc : Nat × Nat) (w : Word) (fault : Bool) : Val :=
  t.valueWith (plane.getD (t.block rc) 0xFF).toNat rc.2 w fault

/-- The bytes of the scale plane, where one is read: a lost sector of it reads as Fault scales. -/
def State.readPlane (s : State) (t : Tile) (part : Nat) : List Byte × Status × State :=
  if t.scaleMode = 1 then
    let r := s.streamBytes t.scaleBase t.planeBytes part
    (r.1, r.2.2.1, r.2.2.2)
  else ([], .ok, s)

/-- The values of one row. -/
def State.readRow (s : State) (t : Tile) (plane : List Byte) (r part : Nat) : List Val × Status × State :=
  let f := t.format
  let x := s.streamBytes (t.base + r * t.pitch) (8 * rowWords f t.cols) part
  let ws := (wordsOf x.1 (rowWords f t.cols)).toArray
  ((List.range t.cols).map fun c =>
    let k := c / perWord f
    t.value plane (r, c) (ws.getD k 0) (x.2.1.getD (k / 8) true), x.2.2.1, x.2.2.2)

/-- The values of a whole tile by row. -/
def State.readTile (s : State) (t : Tile) (part : Nat) : List (List Val) × Status × State :=
  let p := s.readPlane t part
  (List.range t.rows).foldl (fun (acc : List (List Val) × Status × State) r =>
    let x := acc.2.2.readRow t p.1 r part
    (acc.1 ++ [x.1], Status.worst acc.2.1 x.2.1, x.2.2)) ([], p.2.1, p.2.2)

/-! ## Encoding -/

/-- The larger magnitude. -/
def maxDy (a b : Dy) : Dy := if Dy.lt a b then b else a

/-- A tile as it will be stored: codes by row, the scale plane, and how many elements overflowed. -/
structure TileImage where
  rows : List (List Nat)
  plane : List Byte
  nOver : Nat
  deriving DecidableEq, Repr

/-- R37: the scale code of every block. -/
def Tile.scales (t : Tile) (vals : List (List Val)) : Tab Nat :=
  if t.scaleMode = 1 then
    let ms : Tab Dy := (vals.zipIdx.flatMap fun r => r.1.zipIdx.map fun v => (t.block (r.2, v.2), v.1.magnitude)).foldl
      (fun m e => Tab.modify (fun _ => Dy.zero) m e.1 (maxDy e.2)) []
    (List.range t.blocks).map fun b => (b, blockCode t.format (Tab.get (fun _ => .zero) ms b))
  else if t.scaleMode = 2 then (List.range t.blocks).map fun b => (b, t.held)
  else []

/-- R37 to R39: the codes of a tile; `rnd` rounds the element with a logical index. -/
def Tile.encode (t : Tile) (vals : List (List Val)) (rnd : Nat → Rnd) : TileImage :=
  let sc := t.scales vals
  let res := vals.zipIdx.map fun r => r.1.zipIdx.map fun v =>
    let rc := (r.2, v.2)
    let x := if t.scaled then removeScale (Tab.get (fun _ => 127) sc (t.block rc)) v.1 else v.1
    Num.encode t.format t.ovf (rnd (t.index rc)) x
  { rows := res.map fun r => r.map Res.code
    plane := if t.scaled then
        (List.range t.planeBytes).map fun i => if i < t.blocks then BitVec.ofNat 8 (Tab.get (fun _ => 127) sc i) else 0x7F
      else []
    nOver := (res.map fun r => (r.filter Res.ovf).length).foldl (· + ·) 0 }

/-- R34: the bytes of a row of codes. -/
def Tile.rowBytes (t : Tile) (codes : List Nat) : List Byte :=
  let f := t.format
  let cs := codes.toArray
  (List.range (rowWords f codes.length)).flatMap fun i =>
    bytesOf 8 (packWord f ((List.range (Nat.min (perWord f) (codes.length - i * perWord f))).map fun j =>
      cs.getD (i * perWord f + j) 0))

/-! ## Writing -/

/-- Bytes into sectors, padded with zero. -/
def sectorsOfBytes (bs : List Byte) : List SectorBits :=
  (List.range ((bs.length + 63) / 64)).map fun i => BitVec.ofNat 512 (ofBytes ((bs.drop (64 * i)).take 64))

/-- R164, R221: write bytes from a multiple of 64 on outside Mended granules; the last sector is merged where it is
not filled. -/
def State.writeMem (s : State) (a : Nat) (bs : List Byte) (part : Nat) : Status × State :=
  (sectorsOfBytes bs).zipIdx.foldl (fun (acc : Status × State) e =>
    let b := a + 64 * e.2
    let n := Nat.min 64 (bs.length - 64 * e.2)
    if n = 64 then
      let r := acc.2.writeSeg b (mkSec e.1) part (e.2 == 0 || b % 256 == 0)
      (Status.worst acc.1 r.1, r.2)
    else
      let g := acc.2.readSec b part
      if g.1.sec.fault then (Status.worst acc.1 .dataFault, g.2)
      else
        let d := mergeBytes g.1.sec.data e.1 (BitVec.ofNat 64 (2 ^ n - 1))
        let r := g.2.writeQuiet b (mkSec d) part
        (Status.worst (Status.worst acc.1 g.1.st) r.1, r.2)) (.ok, s)

end Sys2Proof.Machine
end

