-- ==== Sys2Proof/Machine/CopyFill.lean ====
section
/-!
DEFINITION. COPY and FILL (R126, R127).
-/

namespace Sys2Proof.Machine

open Sys2Proof.Num

/-! ## FILL -/

/-- The parts of a range inside Mended units, and the sectors outside them. -/
def State.mendParts (s : State) (a len : Nat) : List (Nat × Nat) :=
  let u := s.mendQ * gib
  if len = 0 then []
  else ((List.range ((a + len - 1) / u + 1 - a / u)).map fun i =>
    let lo := Nat.max a ((a / u + i) * u)
    (lo, Nat.min (a + len) ((a / u + i + 1) * u) - lo)).filter fun r => s.isMended r.1

/-- Addresses of the sectors of a range outside Mended granules. -/
def State.plainSecs (s : State) (a len : Nat) : List Nat :=
  ((List.range (len / 64)).map fun i => a + 64 * i).filter fun b => !s.isMended b

/-- A sector of one 64-bit word repeated. -/
def patternSec (w : Word) : Sec := mkSec (ofWords (List.replicate 8 w))

/-- R121, R127: has one of the four copy movers come to a command?  They take COPY and FILL in order of start, from one queue
(log 41); an armed command waits at its gate and takes none. -/
def State.moverFree (s : State) (c : Cmd) : Bool :=
  decide (((List.range 64).map fun d => ((s.drawer d).cmds.filter fun x =>
    (x.opcode == Op.copy.code || x.opcode == Op.fill.code) && decide (x.order < c.order) &&
      (x.phase == .checked || x.phase == .running || x.phase == .started && !s.isArmed d x.pos)).length).foldl (· + ·) 0 < 4)

/-- FILL (R126). -/
def execFillCmd (d pos : Nat) (s : State) : Host.Outcome State Fault Refusal :=
  .next (s.runCmd d pos .fill false
    (pureCheck fun s c =>
      let a := c.arg 1 0 44
      let len := c.arg 2 0 44
      [(a % 64 != 0 || len % 64 != 0, .badArg)] ++ s.rangeChecks d [(a, len)] ++
        [((s.mendParts a len).any fun r => !s.wholeRows r.1 r.2, .regionClass),
         (!(s.bucketsIn a len).isEmpty, .notPermitted)]) fun s c =>
      let a := c.arg 1 0 44
      let len := c.arg 2 0 44
      if !s.moverFree c || !s.rangesFree [(a, len)] then s
      else
        let s := s.firstAction d pos
        let x := patternSec (c.w 3)
        let r := (s.plainSecs a len).foldl (fun (acc : Status × State) b =>
          let w := acc.2.writeSeg b x d (b == a || b % 256 == 0)
          (Status.worst acc.1 w.1, w.2)) (.ok, s)
        let s := (s.mendParts a len).foldl (fun s m => s.writeRows d m.1 (List.replicate (m.2 / 64) x) true) r.2
        (s.charge d 9 ((len + 127) / 128)).finish d c r.1 0 len)

/-! ## COPY -/

/-- R127: the register format of a copy. -/
def copyReg (src : Fmt) : Fmt := if src.isDL then .dl16 else .df32

/-- R127: one element through the register: rounded into it where the source is not exact in it. -/
def throughReg (src : Tile) (v : Val) : Val :=
  let reg := copyReg src.format
  Num.decode reg (Num.encode reg src.ovf .nearest v).code

/-- The descriptors of a COPY and the status of reading them. -/
def State.copyTiles (s : State) (d : Nat) (c : Cmd) : (Tile × Tile) × Status × State :=
  let r := s.readMem (c.arg 1 0 44) 64 d
  let ws := wordsOf r.1 8
  ((tileOf (ws.take 4), tileOf (ws.drop 4)), r.2.1, r.2.2)

/-- Table 5-5: the form of a COPY's two descriptors. -/
def copyForm (src dst : Tile) (transpose : Bool) : Bool :=
  src.formOk false && dst.formOk true && src.elems == dst.elems
    && (if transpose then src.rows == dst.cols && src.cols == dst.rows else src.rows == dst.rows && src.cols == dst.cols)
    && !dst.round && loadPair src.format (copyReg src.format) src.scaled
    && storePair (copyReg src.format) dst.format

/-- R125, R126, R127: the checks of a COPY. -/
def State.copyCheck (s : State) (d : Nat) (c : Cmd) : Option Status × State :=
  let a := c.arg 1 0 44
  match firstFail ((a % 64 != 0, .badArg) :: s.rangeChecks d [(a, 64)]) with
  | some st => (some st, s)
  | none =>
    let t := s.copyTiles d c
    let src := t.1.1
    let dst := t.1.2
    let s := t.2.2.hasRead d c.pos t.2.1
    if t.2.1 = .dataFault then (some .dataFault, s)
    else if !copyForm src dst (c.argBit 1 44) then (some .badArg, s)
    else
      let ins := src.reads
      let outs := s.tileWrites dst
      (firstFail (s.rangeChecks d (ins ++ outs) ++
        [(ins.any (fun r => (s.bucketsIn r.1 r.2).any fun b => b.st == .opened || b.st == .complete) ||
            outs.any fun r => !(s.bucketsIn r.1 r.2).isEmpty, .notPermitted),
         (outs.any s.breaksRows, .regionClass),
         (outs.any fun r => s.touchesRetired r.1 r.2, .degraded)]), s)

/-- Swap rows and columns. -/
def transposed (rows cols : Nat) (v : List (List Val)) : List (List Val) :=
  let m := (v.map List.toArray).toArray
  (List.range cols).map fun c => (List.range rows).map fun r => (m.getD r #[]).getD c .fault

/-- R34, R101: write a tile and its scale plane: in Mended regions whole rows, with zeros where no element lies. -/
def State.writeTile (s : State) (t : Tile) (im : TileImage) (part : Nat) (issue : Bool) : Status × State :=
  let body : Status × State :=
    if s.isMended t.base then
      let e := s.outExtent t.base (t.rows * t.pitch)
      let bs := im.rows.flatMap fun r =>
        let b := t.rowBytes r
        b ++ List.replicate (t.pitch - b.length) 0
      (.ok, s.writeRows part t.base ((sectorsOfBytes (bs ++ List.replicate (e.2 - bs.length) 0)).map mkSec) issue)
    else
      im.rows.zipIdx.foldl (fun (acc : Status × State) r =>
        let w := acc.2.writeMem (t.base + r.2 * t.pitch) (t.rowBytes r.1) part
        (Status.worst acc.1 w.1, w.2)) (.ok, s)
  let s := body.2
  if !t.scaled then body
  else if s.isMended t.scaleBase then
    let e := s.outExtent t.scaleBase t.planeBytes
    (body.1, s.writeRows part t.scaleBase
      ((sectorsOfBytes (im.plane ++ List.replicate (e.2 - im.plane.length) 0)).map mkSec) issue)
  else
    let w := s.writeMem t.scaleBase im.plane part
    (Status.worst body.1 w.1, w.2)

/-- Bytes a COPY writes: its elements' rows, with their scales. -/
def State.copied (s : State) (t : Tile) : Nat :=
  if s.isMended t.base then ((s.tileWrites t).map (·.2)).foldl (· + ·) 0
  else t.rows * (8 * rowWords t.format t.cols) + if t.scaled then t.planeBytes else 0

/-- May a command's own structure be read now, where the command is due (Table 5-10, R16)? -/
def State.structReady (s : State) (d pos : Nat) (o : Op) (len : Nat) : Bool := match s.due d pos o false with
  | some c => s.rangesFree [(c.arg 1 0 44, len)]
  | none => true

/-- COPY (R127). -/
def execCopy (d pos : Nat) (s : State) : Host.Outcome State Fault Refusal :=
  if !s.structReady d pos .copy 64 then .next s
  else .next (s.runCmd d pos .copy false (fun s c => s.copyCheck d c) fun s c =>
    let t := s.copyTiles d c
    let src := t.1.1
    let dst := t.1.2
    if !s.moverFree c || !s.rangesFree (src.reads ++ (s.tileWrites dst).filter fun r => !s.isMended r.1) then s
    else
      let s := s.firstAction d pos
      let x := s.readTile src d
      let vals := if c.argBit 1 44 then transposed src.rows src.cols x.1 else x.1
      let im := dst.encode (vals.map fun r => r.map (throughReg src)) fun _ => .nearest
      let w := x.2.2.writeTile dst im d true
      (w.2.charge d 9 ((s.copied dst + 127) / 128)).finish d c (Status.worst (Status.worst t.2.1 x.2.1) w.1) 0 (s.copied dst))

end Sys2Proof.Machine
end

