-- ==== Sys2Proof/Machine/Crucible.lean ====
section
/-!
DEFINITION. The commands of the noise source and of the partition seeds (R271, R276, R277, R332).
-/

namespace Sys2Proof.Machine

/-- SEED_REQ (R277), by a write of CR_CTL. -/
def execSeedReq (s : State) : Host.Outcome State Fault Refusal := .next (if s.csrOpen then s.seedReq else s)

/-- Raw bits a seed is made of (R277). -/
def seedRaw : Nat := 1024

/-- A chain's next input block: 128 raw bits, the first collected lowest (DESIGN CHOICE, log 13). -/
def seedBlock (l : List Bool) (k : Nat) : BitVec 128 :=
  BitVec.ofNat 128 (((l.drop (128 * k)).take 128).zipIdx.foldl (fun v e => if e.1 then v + 2 ^ e.2 else v) 0)

/-- R277: a CBC-MAC chain of F (R269) over the raw bits, from a zero block on. -/
def seedChain (key : BitVec 256) (l : List Bool) : BitVec 128 :=
  (List.range (seedRaw / 128)).foldl (fun y k =>
    let x := y ^^^ seedBlock l k
    Gen.f key ⟨x.setWidth 32, (x >>> 32).setWidth 32, (x >>> 64).setWidth 32, (x >>> 96).setWidth 32⟩) 0

/-- R277: the seed: the two chains' 128 bits each, the first chain's in the low half (log 13). -/
def seedCondition (l : List Bool) : BitVec 256 := seedChain (Config.seedKey 1) l ++ seedChain (Config.seedKey 0) l

/-- SEED_READY (R277): conditioning ends, or too few oscillators are left. -/
def execSeedReady (s : State) : Host.Outcome State Fault Refusal :=
  match s.time.seedBits with
  | some l =>
    if s.healthy.length < 4 then .next (s.setSeedBits none).seedErr
    else if l.length < seedRaw then .next s
    else
      let v := seedCondition l
      let s := (List.range 4).foldl (fun s w => s.setReg .CR_NS_DATA w (BitVec.ofNat 64 (v.toNat / 2 ^ (64 * w))))
        (s.setSeedBits none)
      .next ((s.put F.CR_NS_STAT_SEED_READY 0 1).raise .crucible)
  | none => .next s

/-- SEED_CONSUME (R332): a read of CR_NS_DATA3. -/
def execSeedConsume (s : State) : Host.Outcome State Fault Refusal := .next (if s.csrOpen then s.seedConsume else s)

/-- NS_RESTART (R276), by a write of CR_CTL. -/
def execNsRestart (s : State) : Host.Outcome State Fault Refusal := .next (if s.csrOpen then s.nsRestart else s)

/-- NS_EN (R276), by a write of CR_CTL. -/
def execNsEn (on : Bool) (s : State) : Host.Outcome State Fault Refusal :=
  .next (if s.csrOpen then s.put F.CR_CTL_NS_EN 0 (if on then 1 else 0) else s)

/-- Table 11-4: one sample through the two health tests; true when one fails. -/
def Osc.sample (o : Osc) (b : Bool) : Osc × Bool :=
  let run := if o.last = some b then o.run + 1 else 1
  let first := if o.winPos = 0 then b else o.winFirst
  let count := if o.winPos = 0 then 1 else o.winCount + (if b = first then 1 else 0)
  (⟨o.startup - 1, some b, run, if o.winPos = 1023 then 0 else o.winPos + 1, first, count⟩,
    decide (41 ≤ run) || decide (589 ≤ count))

/-- A health-test failure: the oscillator is marked failed and excluded (Table 11-4). -/
def State.oscFail (s : State) (k : Nat) : State :=
  (((s.setOsc k .fresh).putBit F.CR_NS_STAT_OSC_FAIL 0 k true).countSat F.CR_NS_STAT_HEALTH_FAILS 0 1).raise .crucible

/-- One sample of oscillator `k`. -/
def State.oscTake (s : State) (k : Nat) (b : Bool) : State :=
  if s.bit F.CR_NS_STAT_OSC_FAIL 0 k then s
  else
    let r := (s.osc k).sample b
    if r.2 then s.oscFail k
    else
      let s := s.setOsc k r.1
      match s.time.seedBits with
      | some l => if s.oscOk k ∧ l.length < seedRaw then s.setSeedBits (some (l ++ [b])) else s
      | none => s

/-- OSC_SAMPLE (R276): every oscillator is sampled; with NS_EN clear they stand still. -/
def execOscSample (bits : BitVec 8) (s : State) : Host.Outcome State Fault Refusal :=
  if !s.life.porstN ∨ !s.flag F.CR_CTL_NS_EN 0 then .next s
  else .next ((List.range 8).foldl (fun s k => s.oscTake k (bits.getLsbD k)) s)

/-- SEED_STAGE (R271): a write of word 0, 1 or 2 of CR_SEEDn. -/
def execSeedStage (n : Fin 64) (w : Fin 3) (key : Word) (s : State) : Host.Outcome State Fault Refusal :=
  .next (if s.csrOpen then s.seedWrite n.val w.val key else s)

/-- SEED_COMMIT (R271): a write of word 3 of CR_SEEDn. -/
def execSeedCommit (n : Fin 64) (key : Word) (s : State) : Host.Outcome State Fault Refusal :=
  .next (if s.csrOpen then s.seedWrite n.val 3 key else s)

end Sys2Proof.Machine
end

