-- ==== Sys2Proof/Machine/Kernel.lean ====
section
/-!
DEFINITION. Glizo slot words, what each may say, the kernel image, and LOAD_KERNEL (R54, R55, R63 to R69, R73, R75 to
R79).
-/

namespace Sys2Proof.Machine

open Sys2Proof.Num

/-! ## Operations (Tables 3-5 to 3-7) -/

inductive AbOp
  | mov | add | sub | mul | fma | fms | min | max | abs | neg | sel | cmplt | cmpeq | twosum | ftwosum | scale
  deriving DecidableEq, Repr

inductive COp | rcp | rsq | sqrt | exp2 | log2 | lmul | ltof | ftol
  deriving DecidableEq, Repr

inductive DOp | ld | st | cvt | rnd | assay | hist | maxacc | end_
  deriving DecidableEq, Repr

def AbOp.ofCode : Nat → Option AbOp
  | 0 => some .mov | 1 => some .add | 2 => some .sub | 3 => some .mul | 4 => some .fma | 5 => some .fms
  | 6 => some .min | 7 => some .max | 8 => some .abs | 9 => some .neg | 10 => some .sel | 11 => some .cmplt
  | 12 => some .cmpeq | 13 => some .twosum | 14 => some .ftwosum | 15 => some .scale
  | _ => none

def COp.ofCode : Nat → Option COp
  | 1 => some .rcp | 2 => some .rsq | 3 => some .sqrt | 4 => some .exp2 | 5 => some .log2 | 6 => some .lmul
  | 7 => some .ltof | 8 => some .ftol
  | _ => none

def DOp.ofCode : Nat → Option DOp
  | 1 => some .ld | 2 => some .st | 3 => some .cvt | 4 => some .rnd | 5 => some .assay | 6 => some .hist
  | 7 => some .maxacc | 8 => some .end_
  | _ => none

/-- Latencies (R51). -/
def AbOp.latency : AbOp → Nat
  | .twosum => 3
  | _ => 2

def COp.latency : COp → Nat
  | .exp2 | .log2 => 6
  | .lmul => 2
  | _ => 4

def DOp.latency : DOp → Nat
  | .cvt => 2
  | _ => 1

/-! ## Fields (R63) -/

end Sys2Proof.Machine

namespace Sys2Proof

open Sys2Proof.Num

/-- The guard and OVF of slots A to C. -/
def SlotWord.guardQ (w : SlotWord) : Nat := w.mod.toNat / 2
def SlotWord.flt (w : SlotWord) : Bool := w.mod.getLsbD 0

/-- The format of a word. -/
def SlotWord.format (w : SlotWord) : Fmt := (Fmt.ofCode w.fmt.toNat).getD .df32

/-- CVT's source and target format, and MAXACC's target (Table 3-7). -/
def SlotWord.srcFmt (w : SlotWord) : Fmt := (Fmt.ofCode w.srcB.toNat).getD .df32
def SlotWord.dstFmt (w : SlotWord) : Fmt := (Fmt.ofCode (w.srcC.toNat)).getD .df32

/-- PAIRLO of LD and ST; the stochastic bit of CVT. -/
def SlotWord.top (w : SlotWord) : Bool := w.mod.getLsbD 3

/-- RN codes: bits of a draw (R39, Table 3-3). -/
def rnBits (rn : Nat) : Nat := if rn = 0 then 4 else if rn = 1 then 8 else 16

/-- CVT's N code. -/
def SlotWord.cvtRn (w : SlotWord) : Nat := w.mod.toNat / 2 % 4

/-- RND's K. -/
def SlotWord.rndK (w : SlotWord) : Nat := w.srcA.toNat * 32 + w.srcB.toNat

end Sys2Proof

namespace Sys2Proof.Machine

open Sys2Proof.Num

/-! ## What a word may say (R63, R65 to R69, R73, R77 items 2 and 4) -/

/-- A register format that a slot D word names: a defined one but DX64. -/
def regFormat (code : Nat) : Bool := match Fmt.ofCode code with
  | some f => f != .dx64
  | none => false

/-- Is a code's lane 32, 16 or 8 bits wide? -/
def laneFormat (code : Nat) : Bool := match Fmt.ofCode code with
  | some f => f.lane == 32 || f.lane == 16 || f.lane == 8
  | none => false

/-- Does an operation of slots A and B use srcB, and srcC as a register? -/
def AbOp.usesB : AbOp → Bool
  | .mov | .abs | .neg => false
  | _ => true
def AbOp.usesC : AbOp → Bool
  | .fma | .fms => true
  | _ => false
def AbOp.isCmp : AbOp → Bool
  | .cmplt | .cmpeq => true
  | _ => false
def AbOp.isPair : AbOp → Bool
  | .twosum | .ftwosum => true
  | _ => false

def AbOp.legal (o : AbOp) (w : SlotWord) : Bool :=
  [0, 2, 3, 5, 6].contains w.fmt.toNat
    && (!o.isPair || w.fmt == 0 && w.dst.toNat % 2 == 0)
    && (!o.isCmp || decide (1 ≤ w.dst.toNat ∧ w.dst.toNat < 8))
    && (!w.sb || (o.usesB || o == .mov) && decide (w.srcB.toNat < 16))
    && (w.sb || o.usesB || w.srcB == 0)
    && (!(w.sb && o == .mov) || w.srcA == 0)
    && (o.usesC || w.srcC == 0 || o == .sel && decide (w.srcC.toNat < 8))

def COp.legal (o : COp) (w : SlotWord) : Bool :=
  !w.sb && w.srcC == 0
    && match o with
      | .lmul => w.fmt == 9 || w.fmt == 10
      | .ltof | .ftol => (w.fmt == 9 || w.fmt == 10) && w.srcB == 0
      | _ => w.fmt == 0 && w.srcB == 0

def DOp.legal (o : DOp) (w : SlotWord) : Bool :=
  !w.sb && match o with
    | .ld => laneFormat w.fmt.toNat && decide (w.srcA.toNat < 6) && w.srcC == 0 && w.mod.toNat % 8 == 0
        && (if w.top then w.fmt == 0 else w.srcB == 0)
    | .st => laneFormat w.fmt.toNat && decide (w.dst.toNat < 4) && w.srcC == 0 && w.mod.toNat / 4 % 2 == 0
        && (if w.top then w.fmt == 0 else w.srcB == 0)
    | .cvt => w.fmt == 0 && regFormat w.srcB.toNat && regFormat w.srcC.toNat
        && (if w.top then w.cvtRn != 3 else w.cvtRn == 0)
    | .rnd => laneFormat w.fmt.toNat && w.srcC == 0 && w.mod == 0
    | .assay | .hist => regFormat w.fmt.toNat && w.dst == 0 && w.srcB == 0 && w.srcC == 0 && decide (w.mod.toNat < 4)
    | .maxacc => regFormat w.fmt.toNat && w.dst == 0 && w.srcB == 0 && regFormat w.srcC.toNat && decide (w.mod.toNat < 4)
    | .end_ => w == ⟨false, 0, 0, 0, 0, 0, 0⟩

/-- R55: no register format wider than `w`, and LD and ST of exactly `w` bits. -/
def AbOp.fits (_ : AbOp) (x : SlotWord) (w : Nat) : Bool := decide (x.format.lane ≤ w)
def COp.fits (o : COp) (x : SlotWord) (w : Nat) : Bool := match o with
  | .lmul => decide (x.format.lane ≤ w)
  | _ => w == 32
def DOp.fits (o : DOp) (x : SlotWord) (w : Nat) : Bool := match o with
  | .ld | .st => x.format.lane == w
  | .cvt => decide (x.srcFmt.lane ≤ w) && decide (x.dstFmt.lane ≤ w)
  | .end_ => true
  | _ => decide (x.format.lane ≤ w)

/-! ## Bundles (R54, R63) -/

/-- One slot of a bundle. -/
inductive Slot (α : Type)
  | nop
  /-- an undefined OP -/
  | bad
  | op (o : α) (w : SlotWord)
  deriving DecidableEq, Repr

/-- A decoded bundle. -/
structure Bundle where
  a : Slot AbOp
  b : Slot AbOp
  c : Slot COp
  d : Slot DOp
  deriving DecidableEq, Repr

/-- The fields of a 32-bit slot word: `ab` splits SB off the format code. -/
def slotFields (ab : Bool) (x : Nat) : SlotWord :=
  { sb := ab && (x / 2 ^ 27 % 2 == 1)
    fmt := if ab then BitVec.ofNat 4 (x / 2 ^ 24 % 8) else BitVec.ofNat 4 (x / 2 ^ 24)
    dst := BitVec.ofNat 5 (x / 2 ^ 19)
    srcA := BitVec.ofNat 5 (x / 2 ^ 14)
    srcB := BitVec.ofNat 5 (x / 2 ^ 9)
    srcC := BitVec.ofNat 5 (x / 2 ^ 4)
    mod := BitVec.ofNat 4 x }

/-- A slot from its word. -/
def slotOf {α : Type} (ab : Bool) (ofCode : Nat → Option α) (x : Nat) : Slot α :=
  if x = 0 then .nop
  else match ofCode (x / 2 ^ 28) with
    | some o => .op o (slotFields ab x)
    | none => .bad

/-- R54: slot A is highest. -/
def bundleOf (x : BitVec 128) : Bundle :=
  let n := x.toNat
  ⟨slotOf true AbOp.ofCode (n / 2 ^ 96), slotOf true AbOp.ofCode (n / 2 ^ 64 % 2 ^ 32),
   slotOf false COp.ofCode (n / 2 ^ 32 % 2 ^ 32), slotOf false DOp.ofCode (n % 2 ^ 32)⟩

def Slot.ok {α : Type} (p : α → SlotWord → Bool) : Slot α → Bool
  | .nop => true
  | .bad => false
  | .op o w => p o w

def Slot.isOp {α : Type} (p : α → SlotWord → Bool) : Slot α → Bool
  | .op o w => p o w
  | _ => false

/-- Is every slot of a bundle legal? -/
def Bundle.legal (x : Bundle) : Bool := x.a.ok AbOp.legal && x.b.ok AbOp.legal && x.c.ok COp.legal && x.d.ok DOp.legal

/-- R55: does every slot keep the width rule? -/
def Bundle.fits (x : Bundle) (w : Nat) : Bool :=
  x.a.ok (fun o y => o.fits y w) && x.b.ok (fun o y => o.fits y w) && x.c.ok (fun o y => o.fits y w)
    && x.d.ok (fun o y => o.fits y w)

/-! ## The loaded kernel -/

def Kernel.bundle (k : Kernel) (i : Nat) : Bundle := bundleOf (k.bundles.getD i 0)

/-- The stage of slot `j` (A is 0) of body bundle `b`. -/
def Kernel.stage (k : Kernel) (b j : Nat) : Nat := (k.stageMap.getD b 0).toNat / 4 ^ j % 4

/-- The body's bundles, in order. -/
def Kernel.body (k : Kernel) : List Bundle := (List.range k.bodyLen).map fun b => k.bundle (k.preLen + b)

/-- The slot D words of the body with an operation. -/
def Kernel.bodyD (k : Kernel) (o : DOp) : List SlotWord := k.body.filterMap fun x => match x.d with
  | .op p w => if p = o then some w else none
  | _ => none

/-- R55: the width that the body's LD and ST name. -/
def Kernel.width (k : Kernel) : Nat := match k.bodyD .ld ++ k.bodyD .st with
  | w :: _ => w.format.lane
  | [] => 32

/-- Elements of an iteration (R55). -/
def Kernel.elems (k : Kernel) : Nat := 2048 / k.width

/-- The LD of an input stream and the ST of an output stream. -/
def Kernel.ldOf (k : Kernel) (n : Nat) : Option SlotWord := (k.bodyD .ld).find? fun w => w.srcA.toNat == n
def Kernel.stOf (k : Kernel) (n : Nat) : Option SlotWord := (k.bodyD .st).find? fun w => w.dst.toNat == n

/-- Streams in IN_MASK and OUT_MASK. -/
def Kernel.ins (k : Kernel) : List Nat := (List.range 6).filter k.inMask.testBit
def Kernel.outs (k : Kernel) : List Nat := (List.range 4).filter k.outMask.testBit

/-- The ST with the emit tap. -/
def Kernel.tap (k : Kernel) : Option SlotWord := (k.bodyD .st).find? fun w => w.mod.getLsbD 1

/-- Histogram sets the kernel uses. -/
def Kernel.histSets (k : Kernel) : List Nat :=
  (List.range 4).filter fun i => (k.bodyD .hist).any fun w => w.mod.toNat == i

/-- R39: does a CVT draw: is it stochastic, into a format narrower than its source (log 47)? -/
def drawsCvt (w : SlotWord) : Bool := w.top && decide (w.dstFmt.width < w.srcFmt.width)

/-- R76: bits that a pass draws for RND and stochastic CVT, counting the slots that `p` keeps. -/
def Kernel.draws (k : Kernel) (p : Nat → Bool) : Nat :=
  ((List.range k.bodyLen).map fun b => match (k.bundle (k.preLen + b)).d with
    | .op .rnd w => if p b then k.elems * w.format.lane else 0
    | .op .cvt w => if drawsCvt w && p b then k.elems * rnBits w.cvtRn else 0
    | _ => 0).foldl (· + ·) 0

/-- R76: EFF_II at load. -/
def Kernel.effII (k : Kernel) : Nat := Nat.max k.bodyLen ((k.draws (fun _ => true) + 255) / 256)

/-! ## The image (Table 3-2) -/

/-- Bytes of an image of `klen` bundles. -/
def imageBytes (klen : Nat) : Nat := 320 + 16 * klen

/-- A header field. -/
def imageField (bs : List Byte) (off n : Nat) : Nat := ofBytes ((bs.drop off).take n)

/-- The kernel that an image holds. -/
def kernelOf (bs : List Byte) : Kernel :=
  { preLen := imageField bs 6 1, bodyLen := imageField bs 4 2, stages := imageField bs 7 1, inMask := imageField bs 8 1,
    outMask := imageField bs 9 1, stageMap := (bs.drop 64).take (imageField bs 4 2)
    bundles := (List.range (imageField bs 2 2)).map fun j => BitVec.ofNat 128 (imageField bs (320 + 16 * j) 16) }

/-- R77 item 1, for the header alone. -/
def headerOk (bs : List Byte) : Bool :=
  imageField bs 0 2 == 0x0300 && decide (2 ≤ imageField bs 2 2 ∧ imageField bs 2 2 ≤ 256)
    && decide (1 ≤ imageField bs 4 2 ∧ imageField bs 4 2 ≤ 255) && decide (imageField bs 6 1 ≤ 254)
    && decide (1 ≤ imageField bs 7 1 ∧ imageField bs 7 1 ≤ 4) && decide (imageField bs 9 1 < 16)
    && decide (imageField bs 6 1 + imageField bs 4 2 < imageField bs 2 2) && imageField bs 12 52 == 0

/-- R77 item 1, for the rest of the image: STAGE_MAP and END.  The spec does not say whether a stage of STAGE_MAP at or above
STAGES, be it a NOP's, is a header field out of range: the model refuses it (DESIGN CHOICE, log 46). -/
def Kernel.frameOk (k : Kernel) (bs : List Byte) : Bool :=
  (List.range k.bodyLen).all (fun b => (List.range 4).all fun j => decide (k.stage b j < k.stages))
    && ((bs.drop (64 + k.bodyLen)).take (256 - k.bodyLen)).all (· == 0)
    && (List.range k.bundles.length).all fun i =>
      ((k.bundle i).d.isOp fun o _ => o == .end_) == (i + 1 == k.bundles.length)

/-- Bundles outside the body. -/
def Kernel.outer (k : Kernel) : List Bundle :=
  ((List.range k.bundles.length).filter fun i => i < k.preLen || k.preLen + k.bodyLen ≤ i).map k.bundle

/-- R77 items 3 and 6. -/
def Kernel.streamsOk (k : Kernel) : Bool :=
  let lds := k.bodyD .ld
  let sts := k.bodyD .st
  (List.range 8).all (fun n => (lds.filter fun w => w.srcA.toNat == n).length == (if k.inMask.testBit n then 1 else 0))
    && (List.range 4).all (fun n => (sts.filter fun w => w.dst.toNat == n).length == (if k.outMask.testBit n then 1 else 0))
    && !(lds ++ sts).isEmpty
    && !k.outer.any (fun x => x.d.isOp fun o w => o == .ld || o == .st || o == .rnd || o == .cvt && w.top)
    && decide ((sts.filter fun w => w.mod.getLsbD 1).length ≤ 1)
    && decide ((k.bodyD .rnd).map SlotWord.rndK).Nodup

/-- A register as a number: V0 to V31, then Q0 to Q7. -/
def abWrites (o : AbOp) (w : SlotWord) : List Nat :=
  if o.isCmp then [32 + w.dst.toNat] else if o.isPair then [w.dst.toNat, w.dst.toNat + 1] else [w.dst.toNat]

def dWrites (o : DOp) (w : SlotWord) : List Nat := match o with
  | .ld | .cvt | .rnd => [w.dst.toNat]
  | _ => []

/-- The registers a bundle writes: slot, register and latency. -/
def Bundle.writes (x : Bundle) : List (Nat × Nat × Nat) :=
  let ab := fun (j : Nat) (y : Slot AbOp) => match y with
    | .op o w => (abWrites o w).map fun r => (j, r, o.latency)
    | _ => []
  let c := match x.c with
    | .op o w => [(2, w.dst.toNat, o.latency)]
    | _ => []
  let d := match x.d with
    | .op o w => (dWrites o w).map fun r => (3, r, o.latency)
    | _ => []
  ab 0 x.a ++ ab 1 x.b ++ c ++ d

/-- R51, R55: every result of a run of `n` iterations without stretch: register and cycle of visibility. -/
def Kernel.results (k : Kernel) (n : Nat) : List (Nat × Nat) :=
  let passes := n + k.stages - 1
  let at_ := fun (t i : Nat) (keep : Nat → Bool) =>
    ((k.bundle i).writes.filter fun x => keep x.1).map fun x => (x.2.1, t + x.2.2)
  (List.range k.preLen).flatMap (fun i => at_ i i fun _ => true)
    ++ (List.range passes).flatMap (fun e => (List.range k.bodyLen).flatMap fun b =>
      at_ (k.preLen + e * k.bodyLen + b) (k.preLen + b) fun j =>
        decide (k.stage b j ≤ e ∧ e < k.stage b j + n))
    ++ (List.range (k.bundles.length - k.preLen - k.bodyLen)).flatMap fun i =>
      at_ (k.preLen + passes * k.bodyLen + i) (k.preLen + k.bodyLen + i) fun _ => true

/-- R77 item 5: no two results become visible in one register in one cycle.  Latencies are at most 6 and stages at
most 4, so ten iterations show every meeting. -/
def Kernel.noClash (k : Kernel) : Bool := (List.range 10).all fun n => decide (k.results (n + 1)).Nodup

/-- R77: is an image accepted? -/
def imageOk (bs : List Byte) : Bool :=
  let k := kernelOf bs
  headerOk bs && k.frameOk bs
    && (List.range k.bundles.length).all (fun i => (k.bundle i).legal && (k.bundle i).fits k.width)
    && k.streamsOk && k.noClash

/-! ## LOAD_KERNEL (R79, R126) -/

/-- Does an UPDATE or EMIT that started earlier still use a slot? -/
def State.slotUsed (s : State) (order slot : Nat) : Bool :=
  s.anyCmd fun _ x => (x.opcode == Op.update.code || x.opcode == Op.emit.code) && x.arg 1 57 4 == slot
    && decide (x.order < order)

/-- Does an earlier LOAD_KERNEL of a slot still run? -/
def State.slotLoading (s : State) (order slot : Nat) : Bool :=
  s.anyCmd fun _ x => x.opcode == Op.loadKernel.code && x.arg 1 44 4 == slot && decide (x.order < order)

/-- R77, R122: the checks, the image read on the way. -/
def State.loadCheck (s : State) (d : Nat) (c : Cmd) : Option Status × State :=
  let a := c.arg 1 0 44
  if a % 64 ≠ 0 then (some .badArg, s)
  else match firstFail (s.rangeChecks d [(a, 64)]) with
    | some st => (some st, s)
    | none =>
      let h := s.readMem a 64 d
      if h.2.1 = .dataFault then (some .dataFault, h.2.2)
      else if !headerOk h.1 then (some .badArg, h.2.2)
      else
        let len := imageBytes (imageField h.1 2 2)
        match firstFail (h.2.2.rangeChecks d [(a, len)]) with
        | some st => (some st, h.2.2)
        | none =>
          let r := (h.2.2.hasRead d c.pos h.2.1).readMem a len d
          if r.2.1 = .dataFault then (some .dataFault, r.2.2)
          else if !imageOk r.1 then (some .badArg, r.2.2)
          else (none, r.2.2.hasRead d c.pos r.2.1)

/-- The image is written into its slot of every powered Anvil (Table 3-12). -/
def State.loadImage (s : State) (d : Nat) (c : Cmd) : State :=
  let a := c.arg 1 0 44
  let slot := c.arg 1 44 4
  let len := imageBytes (imageField (s.readMem a 64 d).1 2 2)
  let r := s.readMem a len d
  let k := kernelOf r.1
  let crc := crc16 0 r.1
  let s := r.2.2.setKernel slot (some k)
  let s := s.put F.AV_KSLOT_KLEN slot k.bundles.length
  let s := s.put F.AV_KSLOT_BODY_LEN slot k.bodyLen
  let s := s.put F.AV_KSLOT_PRE_LEN slot k.preLen
  let s := s.put F.AV_KSLOT_STAGES_M1 slot (k.stages - 1)
  let s := s.put F.AV_KSLOT_EFF_II slot k.effII
  let s := s.put F.AV_KSLOT_KCRC slot crc.toNat
  (s.put F.AV_KSLOT_LOADING slot 1).finish d c r.2.1 0 crc.toNat

/-- May the image be read now (Table 5-10, R16)? -/
def State.imageReady (s : State) (d a : Nat) : Bool :=
  s.rangesFree [(a, 64)] && s.rangesFree [(a, imageBytes (imageField (s.readMem a 64 d).1 2 2))]

/-- LOAD_KERNEL (R77, R79): it waits for the earlier commands that use the slot, and for an earlier load of it. -/
def execLoadKernel (d pos : Nat) (s : State) : Host.Outcome State Fault Refusal :=
  match s.due d pos .loadKernel false with
  | none => .next s
  | some c =>
    let slot := c.arg 1 44 4
    .next (if s.slotUsed c.order slot || s.slotLoading c.order slot || !s.imageReady d (c.arg 1 0 44) || s.life.drain.isSome then s
      else s.runCmd d pos .loadKernel false (fun s c => s.loadCheck d c) fun s c => s.loadImage d c)

end Sys2Proof.Machine
end

