-- ==== Sys2Proof/Machine/Anvils.lean ====
section
/-!
DEFINITION. The Anvil's registers, and what slots A, B and C do with them (R49 to R53, R65 to R67).
-/

namespace Sys2Proof.Machine

open Sys2Proof.Num

/-! ## Registers and lanes (R49, R50, R52) -/

/-- A vector register as it is visible. -/
def Anvil.rd (x : Anvil) (r : Nat) : BitVec 2048 := Tab.get (fun _ => 0) x.v r

/-- A predicate as it is visible; Q0 reads all ones (Table 3-1). -/
def Anvil.pred (x : Anvil) (q : Nat) : BitVec 256 := if q = 0 then BitVec.allOnes 256 else Tab.get (fun _ => 0) x.q q

/-- Lane `e` of width `w`. -/
def laneOf (w : Nat) (v : BitVec 2048) (e : Nat) : Nat := v.toNat / 2 ^ (w * e) % 2 ^ w

/-- Lanes 0 to `n − 1` of width `w`. -/
def lanes (w n : Nat) (f : Nat → Nat) : BitVec 2048 :=
  BitVec.ofNat 2048 ((List.range n).foldl (fun a e => a + f e % 2 ^ w * 2 ^ (w * e)) 0)

/-- The bits of the lanes that fulfil `p`. -/
def laneMask (w n : Nat) (p : Nat → Bool) : BitVec 2048 := lanes w n fun e => if p e then 2 ^ w - 1 else 0

/-- R52: does element `e` of an operation of width `w` pass a predicate? -/
def predBit (q : BitVec 256) (w e : Nat) : Bool := q.getLsbD (e * (w / 8))

/-- R51: a result lands: only its own bits change. -/
def Landing.into {n : Nat} (x : Landing) (old : BitVec n) : BitVec n :=
  (old &&& ~~~ x.mask.setWidth n) ||| (x.val.setWidth n &&& x.mask.setWidth n)

/-- One landing on an Anvil; Q0 cannot be written. -/
def Anvil.land (x : Anvil) (l : Landing) : Anvil :=
  if l.toQ then
    if l.r = 0 then x else { x with q := Tab.modify (fun _ => 0) x.q l.r l.into }
  else { x with v := Tab.modify (fun _ => 0) x.v l.r l.into }

/-- The next cycle begins: what becomes visible in it lands, in the order of issue. -/
def Anvil.advance (x : Anvil) : Anvil :=
  let t := x.cyc + 1
  let y := (x.landing.filter fun l => decide (l.at_ ≤ t)).foldl Anvil.land { x with cyc := t }
  { y with landing := x.landing.filter fun l => !decide (l.at_ ≤ t) }

/-- Every result under way lands: an Anvil takes up another command's work. -/
def Anvil.settle (x : Anvil) : Anvil :=
  let y := x.landing.foldl Anvil.land x
  { y with landing := [] }

/-- A result of latency `l` is on its way. -/
def Anvil.result (x : Anvil) (l : Nat) (toQ : Bool) (r : Nat) (mask val : BitVec 2048) : Anvil :=
  { x with landing := x.landing ++ [⟨x.cyc + l, toQ, r, mask, val⟩] }

/-! ## Slots A and B (Table 3-5) -/

/-- The result of an operation that gives one value; comparisons and pairs are elsewhere. -/
def AbOp.value (o : AbOp) (f : Fmt) (flt : Bool) (a b c : Val) (pick : Bool) : Res :=
  match o with
  | .mov => lift1 f flt id a
  | .add => lift2 f flt Dy.add a b
  | .sub => lift2 f flt Dy.sub a b
  | .mul => lift2 f flt Dy.mul a b
  | .fma => lift3 f flt (fun x y z => Dy.add (Dy.mul x y) z) a b c
  | .fms => lift3 f flt (fun x y z => Dy.sub (Dy.mul x y) z) a b c
  | .min => lift2 f flt (fun x y => if Dy.lt y x then y else x) a b
  | .max => lift2 f flt (fun x y => if Dy.lt x y then y else x) a b
  | .abs => lift1 f flt Dy.abs a
  | .neg => lift1 f flt Dy.neg a
  | .sel => lift1 f flt id (if pick then a else b)
  | .scale => lift2 f flt (fun x y => x.scaleBy (scaleExp y)) a b
  | .cmplt | .cmpeq | .twosum | .ftwosum => ⟨f.faultCode, false⟩

/-- Is the result of a comparison true? -/
def AbOp.holds (o : AbOp) (a b : Val) : Bool := match o with
  | .cmplt => cmp Dy.lt a b
  | .cmpeq => cmp Dy.eq a b
  | _ => false

/-- A DF32 value's own code, as an operand of an open function. -/
def canon32 (v : Val) : BitVec 32 := BitVec.ofNat 32 (encode .df32 false .nearest v).code

/-- R46: the pair of TWOSUM, or of FTWOSUM where its condition may fail: the low part is open then (log 11). -/
def pairSum (fast flt : Bool) (a b : Val) : Nat × Nat :=
  let r := twoSum flt a b
  let hi := r.1.code
  match a, b with
  | .dy x, .dy y =>
    if fast && !r.1.ovf && !(Dy.le y.abs x.abs || x.isZero) then
      let free := (Config.ftwosumLo (canon32 a) (canon32 b)).toNat
      (hi, if producible .df32 free then free else r.2)
    else (hi, r.2)
  | _, _ => (hi, r.2)

/-- R63: the scalar that SB names, in the operation's format. -/
def scalarCode (f : Fmt) (flt : Bool) (scal : List (BitVec 32)) (n : Nat) : Nat :=
  (encode f flt .nearest (decode .df32 (scal.getD n 0).toNat)).code

/-- Issue an operation of slots A and B with the scalars of its iteration (R51 to R53, R63, R65). -/
def Anvil.issueAb (x : Anvil) (o : AbOp) (w : SlotWord) (scal : List (BitVec 32)) : Anvil :=
  let f := w.format
  let k := f.lane
  let n := 2048 / k
  let q := x.pred w.guardQ
  let sc := scalarCode f w.flt scal w.srcB.toNat
  let reg := fun (r : BitVec 5) e => decode f (ofLane f (laneOf k (x.rd r.toNat) e))
  let a := fun e => if o = .mov && w.sb then decode f sc else reg w.srcA e
  let b := fun e => if w.sb then decode f sc else reg w.srcB e
  let c := fun e => reg w.srcC e
  let mask := laneMask k n fun e => predBit q k e
  if o.isCmp then
    let j := k / 8
    x.result o.latency true w.dst.toNat (laneMask j n fun e => predBit q k e)
      (laneMask j n fun e => o.holds (a e) (b e))
  else if o.isPair then
    let r := fun e => pairSum (o == .ftwosum) w.flt (a e) (b e)
    (x.result o.latency false w.dst.toNat mask (lanes k n fun e => (r e).1)).result o.latency false (w.dst.toNat + 1) mask
      (lanes k n fun e => (r e).2)
  else
    let s := x.pred (w.srcC.toNat % 8)
    x.result o.latency false w.dst.toNat mask
      (lanes k n fun e => (o.value f w.flt (a e) (b e) (c e) (predBit s k e)).code)

/-! ## Slot C (Table 3-6) -/

/-- The format a slot C operation reads, and the one it writes. -/
def COp.src (o : COp) (w : SlotWord) : Fmt := match o with
  | .lmul | .ltof => w.format
  | _ => .df32
def COp.dst (o : COp) (w : SlotWord) : Fmt := match o with
  | .lmul | .ftol => w.format
  | _ => .df32

/-- The result of one element (R66, R67): where a bound is all that is known, the part's own value inside it
(log 10). -/
def COp.value (o : COp) (w : SlotWord) (a b : Val) : Res :=
  let big := w.format == .dl16
  match o with
  | .rcp => Num.rcp (Config.rcp (canon32 a)).toNat w.flt a
  | .rsq => Num.rsq (Config.rsq (canon32 a)).toNat w.flt a
  | .sqrt => sqrtDF a
  | .exp2 => exp2DF .df32 (Config.exp2 (canon32 a)).toNat w.flt a
  | .log2 => log2DF (Config.log2 (canon32 a)).toNat w.flt a
  | .lmul => Num.lmul w.format w.flt a b
  | .ltof => ltofDF (Config.ltof big (encode w.format false .nearest a).code).toNat w.flt a
  | .ftol => ftolDF w.format (Config.ftol big (canon32 a)) w.flt a

/-- Issue an operation of slot C: LTOF and FTOL pair elements 0 to 63 of both widths, under the predicate bits of
32-bit elements, and leave the rest of the register. -/
def Anvil.issueC (x : Anvil) (o : COp) (w : SlotWord) : Anvil :=
  let fs := o.src w
  let fd := o.dst w
  let k := Nat.max fs.lane fd.lane
  let n := 2048 / k
  let q := x.pred w.guardQ
  let reg := fun (r : BitVec 5) e => decode fs (ofLane fs (laneOf fs.lane (x.rd r.toNat) e))
  x.result o.latency false w.dst.toNat (laneMask fd.lane n fun e => predBit q k e)
    (lanes fd.lane n fun e => (o.value w (reg w.srcA e) (reg w.srcB e)).code)

end Sys2Proof.Machine
end

