-- ==== Sys2Proof/Machine/Streams.lean ====
section
/-!
DEFINITION. Runs of UPDATE and EMIT, the streams of an Anvil, and what slot D does (R53, R55, R56, R60, R68 to R75,
R99).
-/

namespace Sys2Proof.Machine

open Sys2Proof.Num

/-! ## Runs and entries -/

/-- The run of a command. -/
def State.runOf (s : State) (d pos : Nat) : Option Run := s.anv.runs.find? fun r => r.drawer == d && r.pos == pos

/-- Replace a run. -/
def State.setRun (s : State) (r : Run) : State :=
  { s with anv := { s.anv with
      runs := s.anv.runs.map fun x => if x.drawer = r.drawer ∧ x.pos = r.pos then r else x } }

/-- Replace an entry of a run. -/
def State.setEntry (s : State) (r : Run) (k : Nat) (e : Entry) : State := s.setRun { r with entries := r.entries.set k e }

/-- Has every entry started or been skipped? -/
def Run.final (r : Run) : Bool := decide (r.entries.length ≤ r.next)

/-- The entries that run or have run. -/
def Run.started (r : Run) : List Entry := r.entries.filter fun e => e.st == .running || e.st == .ended

/-- R53: the scalar sets of the command's first and last iteration. -/
def Run.firstScalars (r : Run) : List (BitVec 32) := match r.started with
  | e :: _ => e.scalars
  | [] => []
def Run.lastScalars (r : Run) : List (BitVec 32) := match r.started.getLast? with
  | some e => e.scalars
  | none => []

/-- R103: an entry's shape is that of its descriptors in use. -/
def Entry.shape (e : Entry) : Option Tile := match e.ins, e.outs with
  | (_, t) :: _, _ => some t
  | [], (_, t) :: _ => some t
  | [], [] => e.emit

/-- Elements of an entry, and iterations of `n` elements (R55). -/
def Entry.size (e : Entry) : Nat := match e.shape with
  | some t => t.elems
  | none => 0
def Entry.iters (e : Entry) (n : Nat) : Nat := (e.size + n - 1) / n

/-- R58: the logical index at a position; past the last element the lanes go on counting (R56). -/
def Entry.index (e : Entry) (p : Nat) : Nat := match e.shape with
  | some t => if p < t.elems then t.index (t.at_ p) else p
  | none => p

/-- Fields of an entry's header (Table 4-7). -/
def Entry.field (e : Entry) (w lo n : Nat) : Nat := bits (e.head.getD w 0) lo n
def Entry.sset (e : Entry) : Nat := e.field 0 16 12
def Entry.asc (e : Entry) : Nat := e.field 0 28 8
def Entry.hb (e : Entry) : Int := signed 8 (e.field 0 36 8)
def Entry.release (e : Entry) : Bool := e.field 0 44 1 == 1
def Entry.emitPort (e : Entry) : Bool := e.field 0 45 1 == 1
def Entry.emitMem (e : Entry) : Bool := e.field 0 46 1 == 1
def Entry.result (e : Entry) : Nat := e.field 1 0 44
def Entry.histBase (e : Entry) : Nat := e.field 2 0 44
def Entry.rstream (e : Entry) : BitVec 32 := BitVec.ofNat 32 (e.field 5 0 32)

/-- R40, R75, R270: `n` random bits of an element of an entry at an offset from DRAW_BASE. -/
def Run.bits (r : Run) (e : Entry) (n idx off : Nat) : Nat :=
  Gen.bits r.seed n idx e.rstream (r.drawBase + BitVec.ofNat 32 off)

/-! ## Measurements (R43, R71 to R73) -/

/-- A count that saturates at 32 bits, and whether it did. -/
def sat32 (v n : Nat) : Nat × Bool := if 2 ^ 32 ≤ v + n then (2 ^ 32 - 1, true) else (v + n, false)

/-- Number of Fault values. -/
def faults (vs : List Val) : Nat := (vs.filter (· == .fault)).length

/-- R71: sums of squares of a kind. -/
def Entry.assay (e : Entry) (kind : Nat) (vs : List Val) : Entry × Bool :=
  let r := vs.foldl (fun (a : Nat × Bool) v =>
    let x := addSsq a.1 (squareUnits e.asc v)
    (x.1, a.2 || x.2)) (Tab.get (fun _ => 0) e.ssq kind, false)
  ({ e with
      ssq := Tab.set (fun _ => 0) e.ssq kind r.1
      sat := if r.2 then e.sat ||| 2 ^ kind else e.sat
      faultLanes := (sat32 e.faultLanes (faults vs)).1 }, r.2)

/-- R72: a histogram set. -/
def Entry.count (e : Entry) (set : Nat) (vs : List Val) : Entry × Bool :=
  let r := vs.foldl (fun (a : Tab Nat × Bool) v =>
    let i := 64 * set + histBin e.hb v
    let c := sat32 (Tab.get (fun _ => 0) a.1 i) 1
    (Tab.set (fun _ => 0) a.1 i c.1, a.2 || c.2)) (e.hist, false)
  ({ e with hist := r.1 }, r.2)

/-- R43: a capture set takes values and a number of overflows. -/
def Entry.capture (e : Entry) (set : Nat) (vs : List Val) (novf : Nat) : Entry × Bool :=
  let c := Tab.get (fun _ => .zero) e.caps set
  let f := sat32 c.nFault (faults vs)
  let o := sat32 c.nOvf novf
  ({ e with caps := Tab.set (fun _ => .zero) e.caps set ⟨vs.foldl raiseMax c.maxAbs, f.1, o.1⟩ }, f.2 || o.2)

/-- Table 4-16: a saturation bit and its interrupt. -/
def State.satFlag (s : State) (f : Fld) (b : Bool) : State := s.when b fun s => (s.put f 0 1).raise .assaySat

/-! ## Groups of elements (R58, R60) -/

/-- The elements of a tile at `n` positions from `lo` on. -/
def Tile.group (t : Tile) (lo n : Nat) : List (Nat × Nat) :=
  ((List.range n).filter fun i => decide (lo + i < t.elems)).map fun i => t.at_ (lo + i)

/-- Sectors that hold a group's elements, and those that hold its scales. -/
def Tile.groupSecs (t : Tile) (g : List (Nat × Nat)) : List Nat := (g.map fun rc => t.wordAddr rc / 64 * 64).dedup
def Tile.groupPlane (t : Tile) (g : List (Nat × Nat)) : List Nat :=
  if t.scaleMode = 1 then (g.map fun rc => (t.scaleBase + t.block rc) / 64 * 64).dedup else []

/-- Bytes of a group in its stream's format, and those that a stream unit holds: 8 KiB (Table 3-1), and its part of the transpose
buffer where the stream is column-ordered (R59). -/
def Tile.groupBytes (t : Tile) (n : Nat) : Nat := 8 * rowWords t.format n
def Tile.buffer (t : Tile) : Nat := 8192 + if t.order then 256 * t.ph else 0

/-- May a group leave a write-behind now?  Stripe rows take the way of the Mend units, whatever their members (R106). -/
def State.groupGoes (s : State) (t : Tile) (lo n : Nat) : Bool :=
  let g := t.group lo n
  (t.groupSecs g ++ t.groupPlane g).all fun a => s.isMended a || s.rangeReady a 64 && !s.rangeHeld a 64

/-- May a group be read now (R62)? -/
def State.groupReady (s : State) (t : Tile) (lo n : Nat) : Bool :=
  let g := t.group lo n
  (t.groupSecs g ++ t.groupPlane g).all fun a =>
    (s.reservedSec a).isSome || s.rangeReady a 64 && !s.rangeHeld a 64

/-- Sectors by address. -/
def State.readEach (s : State) (as : List Nat) (part : Nat) : Tab Sec × Status × State :=
  as.foldl (fun (acc : Tab Sec × Status × State) a =>
    let g := acc.2.2.streamSec a part
    (Tab.set (fun _ => faultSec) acc.1 a g.1.sec, Status.worst acc.2.1 g.1.st, g.2)) ([], .ok, s)

/-- The values of a group, read through the home slices: one access for each 256 B segment it touches (log 31). -/
def State.readGroup (s : State) (t : Tile) (lo n part : Nat) : List Val × Status × State :=
  let g := t.group lo n
  let secs := t.groupSecs g
  let s := (secs.map fun a => a / 256).dedup.foldl (fun s b => s.countSegment (secs.filter fun a => a / 256 == b) part) s
  let s := s.countFillSecs secs
  let x := s.readEach secs part
  let p := x.2.2.readEach (t.groupPlane g) part
  (g.map fun rc =>
    let a := t.wordAddr rc
    let sec := Tab.get (fun _ => faultSec) x.1 (a / 64 * 64)
    let c := t.scaleBase + t.block rc
    t.valueWith (byteOf (Tab.get (fun _ => faultSec) p.1 (c / 64 * 64)).data (c % 64)).toNat rc.2
      (sectorWord sec.data (a % 64 / 8)) sec.fault, Status.worst x.2.1 p.2.1, p.2.2)

/-- R47: the exponent k of a master's high part. -/
def pairExp (hi : Dy) : Int := if hi.isZero then -126 else max hi.ilog2 (-126)

/-- R69: a low part under its high part; `s` is 1 on a load and −1 on a store. -/
def pairScale (s : Int) (hi lo : Val) : Val := match hi, lo with
  | .dy h, .dy l => .dy (l.scaleBy (s * (pairExp h - 23)))
  | _, _ => .fault

/-! ## What a slot works for (R53, R55) -/

/-- The iteration a slot works for. -/
structure Target where
  run : Run
  /-- number of the entry, and the entry -/
  k : Nat
  e : Entry
  /-- first position of the iteration, and its active lanes -/
  lo : Nat
  act : Nat
  /-- elements of a whole iteration -/
  width : Nat
  deriving DecidableEq, Repr

/-- Where a slot issues: the iteration width, when a kernel runs, the body bundle, the scalar set, the iteration. -/
structure Site where
  width : Option Nat
  bundle : Nat
  scal : Option (List (BitVec 32))
  target : Option Target
  deriving DecidableEq, Repr

/-- R55, R56: iteration `i` of a work list. -/
def Run.target (r : Run) (n : Nat) (iters : List Iter) (i : Nat) : Option Target :=
  match iters[i]? with
  | some t => match r.entries[t.entry]? with
    | some e => some ⟨r, t.entry, e, n * t.i, Nat.min n (e.size - n * t.i), n⟩
    | none => none
  | none => none

/-- Where a slot of an Anvil issues in a context; none where it behaves as a NOP. -/
def State.slotSite (s : State) (a : Nat) (ctx : SlotCtx) : Option Site :=
  match (s.anvil a).work with
  | none => match ctx with
    | .body _ => none
    | _ => some ⟨none, 0, none, none⟩
  | some w => match s.runOf w.drawer w.pos with
    | none => none
    | some r => match s.kernel r.slot with
      | none => none
      | some k => match ctx with
        | .preamble => some ⟨some k.width, w.bundle, some r.firstScalars, none⟩
        | .epilogue => some ⟨some k.width, w.bundle, some r.lastScalars, none⟩
        | .body st =>
          if w.part ≠ .body ∨ w.pass < st.val then none
          else (r.target k.elems w.iters (w.pass - st.val)).map fun t =>
            ⟨some k.width, w.bundle, some t.e.scalars, some t⟩

/-! ## Slot D (Table 3-7) -/

/-- The values of a register's active lanes in a format. -/
def Anvil.values (x : Anvil) (f : Fmt) (r n : Nat) : List Val :=
  (List.range n).map fun e => decode f (ofLane f (laneOf f.lane (x.rd r) e))

/-- Store a group's values under a stream number. -/
def Entry.store (e : Entry) (n lo : Nat) (vs : List Val) : Entry :=
  let old := (e.stored.find? fun x => x.1 == n).getD (n, [])
  let new := vs.zipIdx.foldl (fun t v => Tab.insert t (e.index (lo + v.2)) v.1) old.2
  { e with stored := (n, new) :: e.stored.filter fun x => x.1 != n }

/-- The group of a stream that an Anvil has fetched for a position of an entry. -/
def Anvil.fetchedAt (x : Anvil) (stream k lo : Nat) : Option Fetched :=
  x.fetched.find? fun g => g.stream == stream && g.k == k && g.lo == lo

/-- R62: an IN unit fetches the next group of its stream, when it has room and the group can be read.  `width` is the number of
elements of an iteration. -/
def State.prefetchOne (s : State) (a width stream : Nat) (w : Work) (r : Run) : State :=
  let x := s.anvil a
  let i := Tab.get (fun _ => 0) x.nextIn stream
  match r.target width w.iters i with
  | none => s
  | some t => match t.e.ins.find? fun y => y.1 == stream with
    | none => s
    | some (_, tile) =>
      let used := ((x.fetched.filter fun g => g.stream == stream).map fun g => tile.groupBytes g.vals.length).foldl (· + ·) 0
      if tile.buffer < used + tile.groupBytes t.act || !s.groupReady tile t.lo t.act then s
      else
        let g := s.readGroup tile t.lo t.act r.drawer
        let x := g.2.2.anvil a
        g.2.2.setAnvil a { x with
          fetched := x.fetched ++ [⟨stream, t.k, t.lo, g.1, g.2.1⟩], nextIn := Tab.set (fun _ => 0) x.nextIn stream (i + 1) }

/-- R60, R62: the group that an LD takes: the one its unit has fetched, or, with the prefetch empty, what the stream delivers. -/
def State.takeGroup (s : State) (a stream : Nat) (tile : Tile) (t : Target) : List Val × Status × State :=
  let x := s.anvil a
  match x.fetchedAt stream t.k t.lo with
  | some g => (g.vals, g.st, s.setAnvil a { x with fetched := x.fetched.erase g })
  | none =>
    let r := s.readGroup tile t.lo t.act t.run.drawer
    let y := r.2.2.anvil a
    let i := match y.work with
      | some w => (w.iters.findIdx? fun it => it.entry == t.k && it.i * Nat.max 1 t.width == t.lo).getD 0
      | none => 0
    (r.1, r.2.1, r.2.2.setAnvil a { y with
      nextIn := Tab.set (fun _ => 0) y.nextIn stream (Nat.max (Tab.get (fun _ => 0) y.nextIn stream) (i + 1)) })

/-- R60, R62, R70: groups that a write-behind passes on to their outputs, as far as they can go, oldest first. -/
def State.drainOut (s : State) (a : Nat) : State :=
  match (s.anvil a).work with
  | none => s
  | some w => (s.anvil a).behind.foldl (fun s g => match s.runOf w.drawer w.pos with
    | none => s
    | some r => match r.entries[g.k]? with
      | none => s
      | some e => match e.outs.find? fun o => o.1 == g.stream with
        | none => s
        | some (_, tile) =>
          let first := (s.anvil a).behind.find? fun h => h.stream == g.stream
          if first = some g ∧ s.groupGoes tile g.lo g.vals.length then
            (s.setAnvil a { s.anvil a with behind := (s.anvil a).behind.erase g }).setEntry r g.k
              (e.store g.stream g.lo g.vals)
          else s) s

/-- R62: has the write-behind of a stream no room for a group? -/
def Anvil.behindFull (x : Anvil) (stream n : Nat) (tile : Tile) : Bool :=
  decide (tile.buffer < ((x.behind.filter fun g => g.stream == stream).map fun g => tile.groupBytes g.vals.length).foldl (· + ·) 0
    + tile.groupBytes n)

/-- LD (R56, R60, R69). -/
def State.issueLd (s : State) (a : Nat) (w : SlotWord) (t : Target) : State :=
  match t.e.ins.find? fun x => x.1 == w.srcA.toNat with
  | none => s
  | some (_, tile) =>
    let f := w.format
    let n := 2048 / f.lane
    let r := s.takeGroup a w.srcA.toNat tile t
    let x := r.2.2.anvil a
    let his := x.values .df32 w.srcB.toNat n
    let vals := r.1.toArray
    let code := fun e =>
      if e < t.act then
        let v := vals.getD e .fault
        toLane f (encode f tile.ovf .nearest (if w.top then pairScale 1 (his.getD e .fault) v else v)).code
      else toLane f (encode f false .nearest (.dy .zero)).code
    let s := r.2.2.setAnvil a (x.result DOp.ld.latency false w.dst.toNat (laneMask f.lane n fun _ => true)
      (lanes f.lane n code))
    match s.runOf t.run.drawer t.run.pos with
    | some run => s.setEntry run t.k { t.e with status := Status.worst t.e.status r.2.1 }
    | none => s

/-- ST (R60, R62, R69, R70, R103): the stream's write-behind takes the values and passes on what can go; they are converted when
the entry ends (log 51). -/
def State.issueSt (s : State) (a : Nat) (w : SlotWord) (t : Target) : State :=
  let x := s.anvil a
  let vs := x.values w.format w.srcA.toNat t.act
  let his := x.values .df32 w.srcB.toNat t.act
  let out := if w.top then vs.zipIdx.map fun v => pairScale (-1) (his.getD v.2 .fault) v.1 else vs
  let e := if w.mod.getLsbD 1 && t.e.emit.isSome then t.e.store 4 t.lo vs else t.e
  let m := if w.mod.getLsbD 0 then e.assay 0 vs else (e, false)
  let s := (s.setEntry t.run t.k m.1).satFlag F.AV_ASSAY_STAT_SSQ_SAT m.2
  if t.e.outs.any fun o => o.1 == w.dst.toNat then
    (s.setAnvil a { x with behind := x.behind ++ [⟨w.dst.toNat, t.k, t.lo, out⟩] }).drainOut a
  else s

/-- CVT (R39, R55, R56, R68, R75). -/
def Anvil.issueCvt (x : Anvil) (w : SlotWord) (n bundle : Nat) (t : Option Target) : Anvil :=
  let fs := w.srcFmt
  let fd := w.dstFmt
  let rnd := fun e => match w.top, t with
    | true, some t =>
      let b := rnBits w.cvtRn
      (Rnd.stoch b (t.run.bits t.e b (t.e.index (t.lo + e)) (1024 + bundle))).into fs fd
    | _, _ => Rnd.nearest
  x.result DOp.cvt.latency false w.dst.toNat (laneMask fd.lane n fun _ => true)
    (lanes fd.lane n fun e =>
      toLane fd (encode fd (w.mod.getLsbD 0) (rnd e)
        (decode fs (ofLane fs (laneOf fs.lane (x.rd w.srcA.toNat) e)))).code)

/-- RND (R56, R74). -/
def Anvil.issueRnd (x : Anvil) (w : SlotWord) (n : Nat) (t : Target) : Anvil :=
  let b := w.format.lane
  x.result DOp.rnd.latency false w.dst.toNat (laneMask b n fun _ => true)
    (lanes b n fun e => t.run.bits t.e b (t.e.index (t.lo + e)) w.rndK)

/-- ASSAY, HIST and MAXACC (R71 to R73). -/
def State.issueMeasure (s : State) (a : Nat) (o : DOp) (w : SlotWord) (t : Target) : State :=
  let vs := (s.anvil a).values w.format w.srcA.toNat t.act
  match o with
  | .assay =>
    let m := t.e.assay (w.mod.toNat % 4) vs
    (s.setEntry t.run t.k m.1).satFlag F.AV_ASSAY_STAT_SSQ_SAT m.2
  | .hist =>
    let m := t.e.count (w.mod.toNat % 4) vs
    (s.setEntry t.run t.k m.1).satFlag F.AV_ASSAY_STAT_HIST_SAT m.2
  | .maxacc =>
    let novf := (vs.filter fun v => (encode w.dstFmt false .nearest v).ovf).length
    let m := t.e.capture (w.mod.toNat % 4) vs novf
    (s.setEntry t.run t.k m.1).satFlag F.AV_ASSAY_STAT_CAP_SAT m.2
  | _ => s

/-- The elements that CVT pairs where no kernel runs: as many as the wider of its formats has lanes. -/
def cvtElems (w : SlotWord) : Nat := 2048 / Nat.max w.srcFmt.lane w.dstFmt.lane

/-- Issue an operation of slot D. -/
def State.issueD (s : State) (a : Nat) (o : DOp) (w : SlotWord) (x : Site) : State :=
  let n := match x.width with
    | some k => 2048 / k
    | none => cvtElems w
  match o, x.target with
  | .cvt, t => s.setAnvil a ((s.anvil a).issueCvt w n x.bundle t)
  | .ld, some t => s.issueLd a w t
  | .st, some t => s.issueSt a w t
  | .rnd, some t => s.setAnvil a ((s.anvil a).issueRnd w n t)
  | .assay, some t => s.issueMeasure a .assay w t
  | .hist, some t => s.issueMeasure a .hist w t
  | .maxacc, some t => s.issueMeasure a .maxacc w t
  | .end_, _ => s
  | _, none => s

end Sys2Proof.Machine
end

