-- ==== Sys2Proof/Machine/Glizo.lean ====
section
/-!
DEFINITION. Slots issuing on an Anvil (R51 to R53, R55), and the rows of the Glizo operations.
-/

namespace Sys2Proof.Machine

/-! ## Issue -/

/-- May slots issue on an Anvil: powered, and not paused for coolant (R307)? -/
def State.mayIssue (s : State) (a : Nat) : Bool := decide (a < 128) && s.flag F.AV_ENG_POWERED a && !s.stalled

/-- Does a word keep the width rule where a kernel runs (R55)? -/
def Site.fits (x : Site) (p : Nat → Bool) : Bool := match x.width with
  | some w => p w
  | none => true

/-- A slot A or B word issues in a context; a word that a load would refuse (R77) does not, nor one that names a scalar
where no command gives a set. -/
def State.issueAb (s : State) (a : Nat) (ctx : SlotCtx) (o : AbOp) (w : SlotWord) : State :=
  match s.slotSite a ctx with
  | some x =>
    if s.mayIssue a && o.legal w && x.fits (o.fits w) && (!w.sb || x.scal.isSome) then
      s.setAnvil a ((s.anvil a).issueAb o w (x.scal.getD []))
    else s
  | none => s

/-- A slot C word issues. -/
def State.issueC (s : State) (a : Nat) (ctx : SlotCtx) (o : COp) (w : SlotWord) : State :=
  match s.slotSite a ctx with
  | some x => if s.mayIssue a && o.legal w && x.fits (o.fits w) then s.setAnvil a ((s.anvil a).issueC o w) else s
  | none => s

/-- R75, R77: what only body slots may hold. -/
def DOp.bodyOnly (o : DOp) (w : SlotWord) : Bool := match o with
  | .ld | .st | .rnd => true
  | .cvt => w.top
  | _ => false

/-- R62: must an LD wait for its stream, with its prefetch empty, or an ST, with its write-behind full? -/
def State.streamWaits (s : State) (a : Nat) (o : DOp) (w : SlotWord) (x : Site) : Bool := match o, x.target with
  | .ld, some t => match t.e.ins.find? fun y => y.1 == w.srcA.toNat with
    | some (_, tile) => ((s.anvil a).fetchedAt w.srcA.toNat t.k t.lo).isNone && !s.groupReady tile t.lo t.act
    | none => false
  | .st, some t => match t.e.outs.find? fun y => y.1 == w.dst.toNat with
    | some (_, tile) => (s.anvil a).behindFull w.dst.toNat t.act tile
    | none => false
  | _, _ => false

/-- A slot D word issues. -/
def State.issueDIn (s : State) (a : Nat) (ctx : SlotCtx) (o : DOp) (w : SlotWord) : State :=
  match s.slotSite a ctx with
  | some x =>
    if s.mayIssue a && o.legal w && x.fits (o.fits w) && (!o.bodyOnly w || x.target.isSome) && !s.streamWaits a o w x then
      s.issueD a o w x
    else s
  | none => s

/-! ## Slots A and B (Table 3-5) -/

/-- MOV: copy a register or a scalar. -/
def execMov (_ : SlotAB) (i : Issue) (s : State) : Host.Outcome State Fault Refusal :=
  .next (s.issueAb i.anvil i.ctx .mov i.word)

/-- ADD. -/
def execAdd (_ : SlotAB) (i : Issue) (s : State) : Host.Outcome State Fault Refusal :=
  .next (s.issueAb i.anvil i.ctx .add i.word)

/-- SUB. -/
def execSub (_ : SlotAB) (i : Issue) (s : State) : Host.Outcome State Fault Refusal :=
  .next (s.issueAb i.anvil i.ctx .sub i.word)

/-- MUL. -/
def execMul (_ : SlotAB) (i : Issue) (s : State) : Host.Outcome State Fault Refusal :=
  .next (s.issueAb i.anvil i.ctx .mul i.word)

/-- FMA: one rounding. -/
def execFma (_ : SlotAB) (i : Issue) (s : State) : Host.Outcome State Fault Refusal :=
  .next (s.issueAb i.anvil i.ctx .fma i.word)

/-- FMS: one rounding. -/
def execFms (_ : SlotAB) (i : Issue) (s : State) : Host.Outcome State Fault Refusal :=
  .next (s.issueAb i.anvil i.ctx .fms i.word)

/-- MIN (R30). -/
def execMin (_ : SlotAB) (i : Issue) (s : State) : Host.Outcome State Fault Refusal :=
  .next (s.issueAb i.anvil i.ctx .min i.word)

/-- MAX (R30). -/
def execMax (_ : SlotAB) (i : Issue) (s : State) : Host.Outcome State Fault Refusal :=
  .next (s.issueAb i.anvil i.ctx .max i.word)

/-- ABS. -/
def execAbs (_ : SlotAB) (i : Issue) (s : State) : Host.Outcome State Fault Refusal :=
  .next (s.issueAb i.anvil i.ctx .abs i.word)

/-- NEG: a zero result is +0. -/
def execNeg (_ : SlotAB) (i : Issue) (s : State) : Host.Outcome State Fault Refusal :=
  .next (s.issueAb i.anvil i.ctx .neg i.word)

/-- SEL: srcA where the predicate is 1, srcB elsewhere. -/
def execSel (_ : SlotAB) (i : Issue) (s : State) : Host.Outcome State Fault Refusal :=
  .next (s.issueAb i.anvil i.ctx .sel i.word)

/-- CMPLT (R30, R52). -/
def execCmplt (_ : SlotAB) (i : Issue) (s : State) : Host.Outcome State Fault Refusal :=
  .next (s.issueAb i.anvil i.ctx .cmplt i.word)

/-- CMPEQ (R30, R52). -/
def execCmpeq (_ : SlotAB) (i : Issue) (s : State) : Host.Outcome State Fault Refusal :=
  .next (s.issueAb i.anvil i.ctx .cmpeq i.word)

/-- TWOSUM (R46). -/
def execTwosum (_ : SlotAB) (i : Issue) (s : State) : Host.Outcome State Fault Refusal :=
  .next (s.issueAb i.anvil i.ctx .twosum i.word)

/-- FTWOSUM (R46). -/
def execFtwosum (_ : SlotAB) (i : Issue) (s : State) : Host.Outcome State Fault Refusal :=
  .next (s.issueAb i.anvil i.ctx .ftwosum i.word)

/-- SCALE: srcA × 2^n. -/
def execScale (_ : SlotAB) (i : Issue) (s : State) : Host.Outcome State Fault Refusal :=
  .next (s.issueAb i.anvil i.ctx .scale i.word)

/-! ## Slot C (Table 3-6) -/

/-- RCP. -/
def execRcp (i : Issue) (s : State) : Host.Outcome State Fault Refusal :=
  .next (s.issueC i.anvil i.ctx .rcp i.word)

/-- RSQ. -/
def execRsq (i : Issue) (s : State) : Host.Outcome State Fault Refusal :=
  .next (s.issueC i.anvil i.ctx .rsq i.word)

/-- SQRT. -/
def execSqrt (i : Issue) (s : State) : Host.Outcome State Fault Refusal :=
  .next (s.issueC i.anvil i.ctx .sqrt i.word)

/-- EXP2. -/
def execExp2 (i : Issue) (s : State) : Host.Outcome State Fault Refusal :=
  .next (s.issueC i.anvil i.ctx .exp2 i.word)

/-- LOG2. -/
def execLog2 (i : Issue) (s : State) : Host.Outcome State Fault Refusal :=
  .next (s.issueC i.anvil i.ctx .log2 i.word)

/-- LMUL (R45). -/
def execLmul (i : Issue) (s : State) : Host.Outcome State Fault Refusal :=
  .next (s.issueC i.anvil i.ctx .lmul i.word)

/-- LTOF. -/
def execLtof (i : Issue) (s : State) : Host.Outcome State Fault Refusal :=
  .next (s.issueC i.anvil i.ctx .ltof i.word)

/-- FTOL. -/
def execFtol (i : Issue) (s : State) : Host.Outcome State Fault Refusal :=
  .next (s.issueC i.anvil i.ctx .ftol i.word)

/-! ## Slot D (Table 3-7) -/

/-- LD (R60, R69): the iteration's element group into a register. -/
def execLd (i : Issue) (s : State) : Host.Outcome State Fault Refusal :=
  .next (s.issueDIn i.anvil i.ctx .ld i.word)

/-- ST (R60, R69, R70): a register's element group to the stream, with its taps. -/
def execSt (i : Issue) (s : State) : Host.Outcome State Fault Refusal :=
  .next (s.issueDIn i.anvil i.ctx .st i.word)

/-- CVT (R68). -/
def execCvt (i : Issue) (s : State) : Host.Outcome State Fault Refusal :=
  .next (s.issueDIn i.anvil i.ctx .cvt i.word)

/-- RND (R74). -/
def execRnd (i : Issue) (s : State) : Host.Outcome State Fault Refusal :=
  .next (s.issueDIn i.anvil i.ctx .rnd i.word)

/-- ASSAY (R71). -/
def execAssay (i : Issue) (s : State) : Host.Outcome State Fault Refusal :=
  .next (s.issueDIn i.anvil i.ctx .assay i.word)

/-- HIST (R72). -/
def execHist (i : Issue) (s : State) : Host.Outcome State Fault Refusal :=
  .next (s.issueDIn i.anvil i.ctx .hist i.word)

/-- MAXACC (R73). -/
def execMaxacc (i : Issue) (s : State) : Host.Outcome State Fault Refusal :=
  .next (s.issueDIn i.anvil i.ctx .maxacc i.word)

/-- END (R54): it ends the epilogue, which the kernel's length does as well; the slot itself writes nothing. -/
def execEnd (i : Issue) (s : State) : Host.Outcome State Fault Refusal :=
  .next (s.issueDIn i.anvil i.ctx .end_ i.word)

/-- The all-zero slot word reads and writes nothing (R63). -/
def execSlotNop (_ : Issue) (s : State) : Host.Outcome State Fault Refusal := .next s

end Sys2Proof.Machine
end

