-- ==== Sys2Proof/Machine/Integrity.lean ====
section
/-!
DEFINITION. The events of the channel engines and the Mend units (R230 to R248, R254).
-/

namespace Sys2Proof.Machine

/-! ## Reads that return (R230, R236, R237) -/

/-- May a descriptor be served: nothing of it held, none of its sectors in a bank group in Planisher mode (R149), and none of
the older ones on a sector of its own (R202, R241)? -/
def State.servable (s : State) (n : Nat) (older : List Desc) (d : Desc) : Bool :=
  (s.rangeStops d.req).isNone && !d.secs.any (fun k => s.bankInMode ⟨n, k⟩) &&
    !older.any fun e => shareSector (s.reqRange e.req) (s.reqRange d.req)

/-- The descriptors of a list that may be served, in order. -/
def State.servables (s : State) (n : Nat) : List Desc → List Desc → List Desc
  | _, [] => []
  | older, d :: ds =>
    if s.servable n older d then d :: State.servables s n (older ++ [d]) ds else State.servables s n (older ++ [d]) ds

/-- R179: the services that a partition has in a round of TC1. -/
def State.weight1 (s : State) (part : Nat) : Nat := Nat.max 1 (s.fld F.PA_CFG_TC1_WEIGHT part)

/-- R179: which partition's turn it is among those that wait, and the round's services left after it: each has as many in a
round as its TC1_WEIGHT, the lowest number first (DESIGN CHOICE, log 36: how the proportion is kept in time). -/
def State.turn (s : State) (left : Tab Nat) (parts : List Nat) : Option (Nat × Tab Nat) :=
  match parts.mergeSort with
  | [] => none
  | p :: ps =>
    let take (t : Tab Nat) (q : Nat) : Nat × Tab Nat := (q, Tab.modify (fun _ => 0) t q (· - 1))
    match (p :: ps).find? fun q => Tab.get (fun _ => 0) left q != 0 with
    | some q => some (take left q)
    | none => some (take ((p :: ps).dedup.map fun q => (q, s.weight1 q)) p)

/-- R179: the descriptor a channel engine serves next: TC0 ahead of TC1, and TC1 by the weights of the partitions that
wait. -/
def State.nextDesc (s : State) (n : Nat) : Option (Desc × Tab Nat) :=
  let ds := s.servables n [] (s.chan n).retry
  let left := (s.chan n).turns
  match ds.find? fun d => d.req.r.hdr.tc == 0#2 with
  | some d => some (d, left)
  | none => (s.turn left (ds.map fun d => d.req.r.hdr.p)).bind fun x =>
      (ds.find? fun d => d.req.r.hdr.p == x.1).map fun d => (d, x.2)

/-- R245: the uncorrectable sectors of a Mended request whose reconstruction must wait for a peer: each is judged, which resets
the channel, and the request stays in the retry buffer. -/
def State.awaitPeers (s : State) (n : Nat) (d : Desc) : Option State :=
  let bad := d.secs.filter fun k => s.locMended ⟨n, k⟩ && s.ueAt ⟨n, k⟩
  if bad.isEmpty || !s.peerRecovers n then none
  else
    let s := bad.foldl (fun s k => (s.judge ⟨n, k⟩ (some d.req.r.hdr.p) true).2) s
    some (s.setChan n { s.chan n with
      retry := (s.chan n).retry.map fun e => if e = d then { e with req := { e.req with ue := true } } else e })

/-- DRAM_READ_DONE (R230, R236, R237): the data of the next read return, with the error patterns the stack shows and the bits
that flip in the engine's gap registers; the request is carried out, and what waited behind it follows. -/
def execDramReadDone (n : Nat) (errs : List (Nat × BitErr)) (flips : List GapFlip) (s : State) :
    Host.Outcome State Fault Refusal :=
  if 256 ≤ n then .next s
  else
    let s := { s with mem := { s.mem with upsets := s.mem.upsets ++ flips.map (⟨n, ·⟩) } }
    if s.chanState n ≠ 0 ∨ (s.chan n).selfRefresh then .next s
    else match s.nextDesc n with
      | none => .next s
      | some (d, turns) =>
        let s := errs.foldl (fun s e => if e.1 < 32 * s.positions n then s.flipRaw ⟨n, e.1⟩ e.2 else s) s
        let s := s.setChan n { s.chan n with turns := turns }
        match s.awaitPeers n d with
        | some s => .next s
        | none =>
          let s := s.setChan n { s.chan n with retry := (s.chan n).retry.erase d }
          .next (match s.perform d.req with
            | some s => (s.moveOn n).reenter n
            | none => ((s.holdReq d.req .cleanWay).moveOn n).reenter n)

/-- CORRECT_WRITE_BACK (R232): the oldest corrected sector goes back to its position, unless its slice holds it dirty; its reader's
partition is charged and named (Tables 12-5 and 10-11). -/
def execCorrectWriteBack (n : Nat) (s : State) : Host.Outcome State Fault Refusal :=
  if 256 ≤ n ∨ s.chanState n ≠ 0 ∨ (s.chan n).selfRefresh then .next s
  else match (s.chan n).wback with
    | [] => .next s
    | w :: rest =>
      if s.bankInMode ⟨n, w.k⟩ then .next s
      else
        let s := s.setChan n { s.chan n with wback := rest }
        let dirty := match s.sliceHas ⟨n, w.k⟩ with
          | some h => h.dirty
          | none => false
        .next ((if dirty then s else (s.writeDram ⟨n, w.k⟩ (mkSec w.data) w.part).chargeWrite (w.part.getD 0)).settle)

/-! ## Resets from outside the data (R239) -/

/-- An event that resets a channel in service, logged under a class of its own. -/
def State.chanError (s : State) (n : Nat) (c : LogClass) : State :=
  if 256 ≤ n ∨ s.chanState n ≠ 0 then s else (s.log c { chan := some n }).channelReset n none

/-- CA_PAR (R239). -/
def execCaPar (n : Nat) (s : State) : Host.Outcome State Fault Refusal := .next (s.chanError n .caPar)

/-- PHY (R239). -/
def execPhy (n : Nat) (s : State) : Host.Outcome State Fault Refusal := .next (s.chanError n .phy)

/-! ## Admission (R242, R251) -/

/-- R254: the repair record of a row (Table 13-5). -/
def repairWord (n row : Nat) : Word :=
  let pc := row % 2
  let bank := row / 2 % 4
  let bg := row / 8 % 4
  let sid := row / 32 % 4
  BitVec.ofNat 64 (n / 32 + n % 32 * 2 ^ 3 + pc * 2 ^ 8 + sid * 2 ^ 9 + bg * 2 ^ 11 + bank * 2 ^ 13 + row / 128 * 2 ^ 15)

/-- R318: the Bureau keeps the last 4,096 repairs. -/
def State.bureauRepair (s : State) (w : Word) : State :=
  let b := s.life.bureau
  let b := if b.repairs.length < 4096 then { b with repairs := b.repairs ++ [w] }
    else { b with repairs := b.repairs.drop 1 ++ [w], dropped := b.dropped + 1 }
  { s with life := { s.life with bureau := b } }

/-- What a log entry says of a row. -/
def rowInfo (n row : Nat) : Info :=
  { chan := some n, pc := row % 2, bank := row / 2 % 4, bg := row / 8 % 4, sid := row / 32 % 4, row := row / 128 }

/-- R254: one queued row is repaired, or stays in use for want of a spare row in its bank. -/
def State.repairRow (s : State) (n row : Nat) (spare : Bool) : State :=
  let s := s.setChan n { s.chan n with repairs := (s.chan n).repairs.erase row }
  if spare then
    let s := s.setChan n { s.chan n with rowCorr := Tab.set (fun _ => 0) (s.chan n).rowCorr row 0 }
    ((s.log .repair (rowInfo n row)).bureauRepair (repairWord n row)).bureauEvent
  else s.log .repairExhausted (rowInfo n row)

/-- R242 step 3, R251: the repairs of an admission: one queued row, or with `all` every one. -/
def State.repairRows (s : State) (n : Nat) (all : Bool) (spared : List Nat) : State :=
  let rows := if all then (s.chan n).repairs else (s.chan n).repairs.take 1
  if !s.flag F.IN_CTL_AUTO_REPAIR 0 then s else rows.foldl (fun s r => s.repairRow n r (spared.contains r)) s

/-- The partition of the CHANNEL_ADMIT that an admission works for (Table 10-11). -/
def State.admitPart (s : State) (n : Nat) : Option Nat := (s.chan n).admitBy.map (·.1)

/-- R242 step 4: a Mended sector of a member is rebuilt from its peers; poisoned where they cannot give it. -/
def State.restoreSector (s : State) (l : Loc) : State :=
  let r := s.rebuild l (s.admitPart l.n)
  match r.1 with
  | some x => r.2.2.writeEncoded l x
  | none => r.2.2.writePoison l

/-- R242 step 4: the sector that caused the reset. -/
def State.restoreCause (s : State) (n : Nat) : State := match (s.chan n).cause with
  | some k => if s.locMended ⟨n, k⟩ then s.restoreSector ⟨n, k⟩ else s.writePoison ⟨n, k⟩
  | none => s

/-- Sector ranges of a channel's Mended granules: a unit occupies the positions its granules have under R211 (R214). -/
def State.mendedSpans (s : State) (n : Nat) : List (Nat × Nat) :=
  (s.granulesOn n).filterMap fun g => if s.granClass g = 2 then s.granSectors n g else none

/-- Is sector `k` of a channel poisoned ground with no byte of its own? -/
def State.poisonGround (s : State) (n k : Nat) : Bool :=
  s.mem.ground.any fun g => g.open_.isNone && decide (g.lo ≤ n * 2 ^ 26 + k ∧ n * 2 ^ 26 + k < g.hi)

/-- Sector ranges of a channel read poisoned, whatever they held; what was queued to be written back to them is void. -/
def State.poisonSpans (s : State) (n : Nat) (spans : List (Nat × Nat)) : State :=
  let base := n * 2 ^ 26
  let hit := fun (k : Nat) => spans.any fun r => decide (r.1 ≤ k ∧ k < r.2)
  let s := s.setChan n { s.chan n with wback := (s.chan n).wback.filter fun e => !hit e.k }
  let poison : List Ground := spans.map fun r => ⟨base + r.1, base + r.2, none⟩
  let rest := s.mem.ground.filter fun g => !spans.any fun r => decide (g.lo = base + r.1 ∧ g.hi = base + r.2)
  { s with mem := s.mem.reground (fun i => i / 2 ^ 26 == n && hit (i % 2 ^ 26)) (poison ++ rest) }

/-- R242 step 4: the stale rows of a member are rebuilt.  Rows of which no member has a listed byte hold zeros in every
member, and so does the rebuilt one; where a peer is poisoned ground, it reads poisoned too. -/
def State.restoreStale (s : State) (n : Nat) (all : Bool) : State :=
  let every := all || (s.mend (n % 32)).wholly.contains (n / 32)
  let lost := (s.mendedSpans n).filter fun r => every &&
    s.mendSites.any fun t => t != n / 32 && s.poisonGround (32 * t + n % 32) r.1
  let stale := fun m => s.locMended ⟨n, m * 32⟩ && (all || s.isStale n m) && !s.isLost n m
  let rows := (s.listedRows (n % 32)).filter stale
  let s := s.when (!lost.isEmpty) (·.poisonSpans n lost)
  rows.foldl (fun s m => (List.range 32).foldl (fun s k => s.restoreSector ⟨n, m * 32 + k⟩) s) s

/-- R242 step 4, R248: the member's sectors of lost rows are poisoned. -/
def State.restoreLost (s : State) (n : Nat) : State :=
  let u := s.mend (n % 32)
  let site := n / 32
  let others := s.mendSites.filter (· != site)
  let s := s.when (u.wholly.contains site && others.any u.wholly.contains) fun s => s.poisonSpans n (s.mendedSpans n)
  let both := (if u.wholly.contains site then u.maps.filter fun e => e.1 != site else u.maps.filter fun e =>
    e.1 == site).flatMap fun e => (s.stalePositions n e.2).filter fun m => s.locMended ⟨n, m * 32⟩ && s.isLost n m
  let rows := ((u.lost.filter fun e => e.2.contains site).map (·.1) ++ both).dedup
  let s := rows.foldl (fun s m => (List.range 32).foldl (fun s k => s.writePoison ⟨n, m * 32 + k⟩) s) s
  let u := s.mend (n % 32)
  s.setMend (n % 32) { u with lost := rows.foldl (fun t m =>
    Tab.modify (fun _ => []) t m fun l => l.filter (· != n / 32)) u.lost }

/-- R251: what an admitted channel held is gone: Guarded sectors are poisoned, Plain ones zero. -/
def State.rewriteAll (s : State) (n : Nat) : State :=
  let mine := fun (i : Nat) => i / 2 ^ 26 == n
  let gs := (s.granulesOn n).filter fun g => s.granClass g == 1
  let poison := gs.filterMap fun g => (s.granSectors n g).map fun r => (⟨n * 2 ^ 26 + r.1, n * 2 ^ 26 + r.2, none⟩ : Ground)
  let s := s.setChan n { s.chan n with wback := [] }
  { s with mem := s.mem.reground mine ((s.mem.ground.filter fun g => !mine g.lo) ++ poison) }

/-- R242 step 5: the write-back store goes to DRAM, charged as the write-back of its lines (Table 12-5). -/
def State.drainStore (s : State) (n : Nat) : State :=
  let st := (s.slice n).store
  let s := s.setSlice n { s.slice n with store := [] }
  let s := st.foldl (fun s e => match e.2 with
    | some x => s.writeDram ⟨n, e.1⟩ x none
    | none => s) s
  ((Tab.keys st).map (· / 32)).dedup.foldl (fun s m =>
    let units := ((Tab.keys st).filter fun k => k / 32 == m).map (· / 8) |>.dedup
    (s.chargeWrite (s.writeBackPart n units 0)).spillOps n units) s

/-- The command whose admission this was completes. -/
def State.admitDone (s : State) (who : Option (Nat × Nat)) (st : Status) : State :=
  match who with
  | some (d, pos) => match s.cmd d pos with
    | some c => s.finish d c st 0 0
    | none => s
  | none => s

/-- R242: the channel is in service again. -/
def State.admitOk (s : State) (n : Nat) (spared : List Nat) : State :=
  let who := (s.chan n).admitBy
  let s := s.repairRows n who.isSome spared
  let s := if who.isSome then (s.rewriteAll n).restoreStale n true else (s.restoreCause n).restoreStale n false
  let s := (s.restoreLost n).mendFree n
  let s := s.drainStore n
  let s := s.setChan n { s.chan n with
    resetAt := none, stoppedTicks := 0, cause := none, admitBy := none, selfRefresh := false }
  let s := ((s.put F.CE_STATE_STATE n 0).put F.CE_STATE_REBUILDING n 0).log .admitOk { chan := some n, part := who.map (·.1) }
  let s := s.when who.isSome fun s =>
    (((s.put F.CE_STATE_AUTO_RETIRED n 0).putRetired n false).bureauRetired n false).bureauEvent
  (s.admitDone who .ok).moveOn n

/-- A CHANNEL_ADMIT's channel stays retired: what was written to it meanwhile is gone, and what waited for it is answered
(R204, R251). -/
def State.admitCut (s : State) (n : Nat) : State :=
  ((s.setChan n { s.chan n with admitBy := none }).chanOff n).put F.CE_STATE_REBUILDING n 0

/-- R243, R251: the admission fails. -/
def State.admitFail (s : State) (n : Nat) : State :=
  let who := (s.chan n).admitBy
  let s := s.log .admitFail { chan := some n, part := who.map (·.1) }
  if who.isSome then ((s.admitCut n).admitDone who .degraded).moveOn n
  else s.retire n true

/-- Must an admission wait for a peer it rebuilds from (R245)? -/
def State.peersOut (s : State) (n : Nat) : Bool :=
  let needs := (s.chan n).admitBy.isSome || s.hasStale n || match (s.chan n).cause with
    | some k => s.locMended ⟨n, k⟩
    | none => false
  needs && s.peerRecovers n

/-- Has a drain ended, so that admissions go on only with the warm start (R324, R326)? -/
def State.drained (s : State) : Bool := match s.life.drain with
  | some x => x.drained
  | none => false

/-- Is a channel in reset or admission, with nothing stopped? -/
def State.inAdmission (s : State) (n : Nat) : Bool :=
  decide (n < 256) && s.recovering n && !s.life.paused && !s.drained

/-- ADMISSION (R242): the steps end; the channel returns to service, or is retired. -/
def execAdmission (n : Nat) (o : AdmitOutcome) (s : State) : Host.Outcome State Fault Refusal :=
  if !s.inAdmission n then .next s
  else if !o.trained || !o.selfTest then .next (s.admitFail n)
  else if s.peersOut n then .next (s.put F.CE_STATE_REBUILDING n 1)
  else .next (s.admitOk n o.spared)

/-- Ticks in a second. -/
def ticksPerSecond : Nat := 1600000000

/-- Has a second passed since a channel's reset was detected, stopped time not counted (R243)? -/
def State.overdue (s : State) (n : Nat) : Bool := s.inAdmission n && match (s.chan n).resetAt with
  | some t => decide (t + (s.chan n).stoppedTicks + ticksPerSecond ≤ s.tick)
  | none => false

/-- ADMISSION_DEADLINE (R243): a second has passed without return to service.  When every channel of the site that is not
retired has reached it, the whole site is retired in one step (R252). -/
def execAdmissionDeadline (n : Nat) (s : State) : Host.Outcome State Fault Refusal :=
  if !s.overdue n then .next s
  else
    let site := (List.range 32).map fun k => n / 32 * 32 + k
    let live := site.filter fun k => s.chanState k != 3
    if live.all s.overdue then .next (live.foldl State.admitFail s) else .next (s.admitFail n)

/-! ## Mend units -/

/-- MEND_ROW_ISSUE (R244). -/
def execMendRowIssue (c : Nat) (s : State) : Host.Outcome State Fault Refusal :=
  if 32 ≤ c ∨ s.stalled then .next s else .next (s.issueNext c)

end Sys2Proof.Machine
end

