-- ==== Sys2Proof/Machine/IntegrityCmds.lean ====
section
/-!
DEFINITION. The commands of the integrity chapter: SCRUB, REBUILD, CHANNEL_RETIRE, CHANNEL_ADMIT and TINKER (R128, R249
to R259).
-/

namespace Sys2Proof.Machine

/-! ## Jobs and summaries -/

def State.job (s : State) (d pos : Nat) : Job :=
  (s.draws.jobs.find? fun j => j.drawer == d && j.pos == pos).getD ⟨d, pos, 0, 0, 0, 0, 0, 0, none, 0, none, none⟩

def State.setJob (s : State) (j : Job) : State :=
  { s with draws := { s.draws with
      jobs := j :: s.draws.jobs.filter fun x => !(x.drawer == j.drawer && x.pos == j.pos) } }

def State.endJob (s : State) (d pos : Nat) : State :=
  { s with draws := { s.draws with jobs := s.draws.jobs.filter fun x => !(x.drawer == d && x.pos == pos) } }

/-- Table 10-8. -/
def summaryWords (st : Status) (op : Op) (flag : Bool) (w : List Nat) (gtc : Nat) : List Word :=
  (BitVec.ofNat 64 (st.code + op.code * 2 ^ 8 + (if flag then 2 ^ 16 else 0)) ::
    (List.range 6).map fun i => BitVec.ofNat 64 (w.getD i 0)) ++ [BitVec.ofNat 64 gtc]

/-- R256: write a summary; one that falls in a Mended granule is not written. -/
def State.summary (s : State) (d a : Nat) (st : Status) (op : Op) (flag : Bool) (w : List Nat) : Status × State :=
  if s.touchesClass 2 a 64 then (.regionClass, s)
  else
    let r := s.writeSec a (mkSec (ofWords (summaryWords st op flag w s.gtc))) d
    (Status.worst st r.1, r.2)

/-- May a summary be written now (R16, Table 5-10)? -/
def State.summaryReady (s : State) (a : Nat) : Bool := s.rangesFree [(a, 64)]

/-! ## The Burnish queue (R121, R179) -/

/-- Sectors of the block that a started SCRUB still has to read, by address. -/
def Job.ahead (j : Job) (c : Cmd) : List Nat :=
  (List.range (c.arg 2 0 44 / 64 - j.next)).map fun i => c.arg 1 0 44 + 64 * (j.next + i)

/-- Does a started SCRUB or REBUILD still have work on a channel engine? -/
def State.worksOn (s : State) (d : Nat) (c : Cmd) (n : Nat) : Bool :=
  c.phase != .done &&
    (c.opcode == Op.rebuild.code && 32 * c.arg 1 0 3 + c.arg 1 3 5 == n ||
      c.opcode == Op.scrub.code && ((s.job d c.pos).ahead c).any fun a => match s.locate a with
        | some l => l.n == n && !s.isPlain a
        | none => false)

/-- R121, R179: may Burnish serve a command on a channel engine now: no SCRUB or REBUILD that started earlier has work there, and
nothing of TC0 or TC1 waits for the engine? -/
def State.burnishFree (s : State) (c : Cmd) (n : Nat) : Bool :=
  (s.nextDesc n).isNone && !s.anyCmd fun d x => decide (x.order < c.order) && s.worksOn d x n

/-- The words of a sector with each verdict: correctable and uncorrectable ones (Table 10-2). -/
def State.verdicts (s : State) (l : Loc) : List Verdict :=
  let x := s.rawSector l
  let cs := s.rawChecks l
  (List.range 8).map fun k => verdict (syndrome (sectorWord x k) (cs.getD k 0))

def countFixed (vs : List Verdict) : Nat := (vs.filter fun v => v != .clean && v != .uncorrectable).length
def countBad (vs : List Verdict) : Nat := (vs.filter (· == .uncorrectable)).length

/-- The channel engine that a REBUILD, CHANNEL_ADMIT or TINKER names. -/
def Cmd.channel (c : Cmd) : Nat := 32 * c.arg 1 0 3 + c.arg 1 3 5

/-! ## SCRUB (R255) -/

/-- One sector of a SCRUB; none when its channel must be waited for: in reset or admission, which a Mended member is waited for
only where the SCRUB's own read has reset it; in Planisher mode; or busy with earlier work. -/
def State.scrubOne (s : State) (c : Cmd) (j : Job) (a : Nat) : Option (Job × State) :=
  let j1 : Job := { j with next := j.next + 1, waitFor := none }
  let skip := some ({ j1 with skipped := j.skipped + 64 }, s)
  if s.granClass (a / gib) == 0 then skip
  else match s.locate a with
    | none => skip
    | some l =>
      let st := s.chanState l.n
      let mended := s.isMended a
      if j.waitFor == some l.n && s.recovering l.n then none
      else if st == 3 || mended && (st != 0 || s.isStale l.n l.m || s.isLost l.n l.m) then skip
      else if st != 0 || s.bankInMode l || !s.burnishFree c l.n then none
      else
        let poisoned := isPoisoned (s.rawSector l) (s.rawChecks l)
        let vs := if poisoned then [] else s.verdicts l
        let bad := countBad vs
        let g := (if l.k % 32 = 0 then s.chargeRead j.drawer else s).judge l (some j.drawer) true
        let j2 : Job := { j1 with
          done := j.done + 64
          corrected := j.corrected + (if bad = 0 then countFixed vs else 0)
          bad := j.bad + (if mended then 0 else bad)
          odd := j.odd + (if mended then bad else 0)
          waitFor := if bad = 0 then none else some l.n
          first := if bad = 0 then j.first else some (j.first.getD a) }
        some (j2, g.2)

/-- Go on with a SCRUB until it ends or waits; `fuel` sectors are left. -/
def State.scrubRun (c : Cmd) : Nat → Job → State → Bool × Job × State
  | 0, j, s => (!(match j.waitFor with
      | some n => s.recovering n
      | none => false), j, s)
  | fuel + 1, j, s => match s.scrubOne c j (c.arg 1 0 44 + 64 * j.next) with
    | some (j, s) => State.scrubRun c fuel j s
    | none => (false, j, s)

/-- The status of a SCRUB (R126, R232): what it read. -/
def scrubStatus (j : Job) : Status :=
  if j.bad ≠ 0 then .dataFault else if j.odd ≠ 0 then .rebuilt else if j.corrected ≠ 0 then .okCorrected else .ok

/-- R125: the checks of SCRUB. -/
def scrubChecks (s : State) (d : Nat) (c : Cmd) : List (Bool × Status) :=
  [(c.arg 1 0 44 % 2048 != 0 || c.arg 2 0 44 % 2048 != 0 || c.arg 3 0 44 % 64 != 0, .badArg)] ++
    s.rangeChecks d [(c.arg 1 0 44, c.arg 2 0 44), (c.arg 3 0 44, 64)]

/-- SCRUB (R255, R256). -/
def execScrub (d pos : Nat) (s : State) : Host.Outcome State Fault Refusal :=
  .next (s.runCmd d pos .scrub true (pureCheck fun s c => scrubChecks s d c) fun s c =>
      let j := s.job d pos
      let r := State.scrubRun c (c.arg 2 0 44 / 64 - j.next) j s
      let s := r.2.2.running d c
      if !r.1 || !s.summaryReady (c.arg 3 0 44) then s.setJob r.2.1
      else
        let j := r.2.1
        let w := s.summary d (c.arg 3 0 44) (scrubStatus j) .scrub (j.skipped != 0)
          [j.done, j.corrected, j.bad, j.odd, j.skipped, j.first.getD 0]
        (w.2.endJob d pos).finish d c w.1 0 j.corrected)

/-! ## REBUILD (R249) -/

/-- The positions of a channel whose stripe rows a REBUILD covers. -/
def State.rebuildRows (s : State) (n : Nat) (c : Cmd) : List Nat :=
  let lo := c.arg 2 0 44
  let len := c.arg 3 0 44
  (List.range (s.positions n)).filter fun m =>
    s.locMended ⟨n, m * 32⟩ && (c.argBit 1 8 ||
      let p := s.parityIdx (n % 32) m
      match s.addrOf ⟨32 * s.memberSite p 0 + n % 32, m * 32⟩ with
      | some a => overlap a ((s.mendN - 1) * 2048) lo len
      | none => false)

/-- Is a sector of a member named by a REBUILD's range?  A parity sector is, with its row. -/
def State.rebuildNames (s : State) (c : Cmd) (l : Loc) : Bool :=
  c.argBit 1 8 || match s.addrOf l with
    | some a => overlap a 64 (c.arg 2 0 44) (c.arg 3 0 44)
    | none => true

/-- Must a rebuild of a sector wait: for the channel or a peer on its way back, for a bank group in Planisher mode, or for earlier
work of the channel engine? -/
def State.rebuildWaits (s : State) (c : Cmd) (l : Loc) : Bool :=
  s.chanState l.n != 0 || s.bankInMode l || !s.burnishFree c l.n ||
    s.mendSites.any fun t => t != l.n / 32 && (s.recovering (32 * t + l.n % 32) || s.bankInMode ⟨32 * t + l.n % 32, l.k⟩)

/-- One sector of a REBUILD; none when it must wait.  A row is taken with its first sector and held until its last one (R247). -/
def State.rebuildOne (s : State) (c : Cmd) (j : Job) (l : Loc) : Option (Job × State) :=
  let j1 : Job := { j with
    next := j.next + 1, rows := j.rows + (if l.k % 32 = 31 then 1 else 0)
    lock := if l.k % 32 = 31 then none else some (l.n % 32, l.m) }
  if !s.rebuildNames c l then some (j1, s)
  else if s.rebuildWaits c l then none
  else
    let corr := fun (s : State) => ((s.mendSites.filter fun t => t != l.n / 32).map fun t =>
      s.fld F.CE_CORR_COUNT (32 * t + l.n % 32)).foldl (· + ·) 0
    let before := corr s
    let vs := if isPoisoned (s.rawSector l) (s.rawChecks l) then [] else s.verdicts l
    let g := (if l.k % 32 = 0 then s.chargeRead j.drawer else s).judge l (some j.drawer) true
    let r := g.2.rebuild l (some j.drawer)
    let j2 : Job := { j1 with corrected := j.corrected + (corr r.2.2 + 2 ^ 48 - before) % 2 ^ 48 }
    match r.1 with
    | none => some ({ j2 with skipped := j.skipped + 64 }, r.2.2)
    | some x =>
      let a := (s.addrOf l).getD 0
      let diff := g.1.ue || g.1.sec.fault || g.1.sec.data != x
      let s := r.2.2.when diff (·.log .mismatch (s.info l (some j.drawer)))
      let s := if s.chanState l.n == 0 then (if l.k % 32 = 31 then s.chargeWrite j.drawer else s).writeEncoded l x else s
      some ({ j2 with done := j.done + 64, bad := j.bad + countBad vs, odd := j.odd + (if diff then 1 else 0),
                      first := if diff then some (j.first.getD a) else j.first }, s)

/-- Go on with a REBUILD until it ends or waits. -/
def State.rebuildRun (c : Cmd) (n : Nat) : List Nat → Job → State → Bool × Job × State
  | [], j, s => (true, j, s)
  | k :: ks, j, s => match s.rebuildOne c j ⟨n, k⟩ with
    | some (j, s) => State.rebuildRun c n ks j s
    | none => (false, j, s)

/-- R125: the checks of REBUILD. -/
def rebuildChecks (s : State) (d : Nat) (c : Cmd) : List (Bool × Status) :=
  let lo := c.arg 2 0 44
  let len := c.arg 3 0 44
  [(c.argBit 1 8 && (lo != 0 || len != 0) || c.arg 4 0 44 % 64 != 0, .badArg)] ++
    s.rangeChecks d [(lo, len), (c.arg 4 0 44, 64)] ++
    [(s.chanState c.channel == 4, .badArg), (s.touchesClass 0 lo len || s.touchesClass 1 lo len, .regionClass)]

/-- REBUILD (R249, R256, R134). -/
def execRebuild (d pos : Nat) (s : State) : Host.Outcome State Fault Refusal :=
  .next (s.runCmd d pos .rebuild true (pureCheck fun s c => rebuildChecks s d c) fun s c =>
      let n := c.channel
      let j := s.job d pos
      let secs := (s.rebuildRows n c).flatMap fun m => (List.range 32).map fun k => m * 32 + k
      let gone := s.chanState n == 3
      let r : Bool × Job × State :=
        if gone then (true, { j with skipped := j.skipped + 64 * (secs.drop j.next).length }, s)
        else State.rebuildRun c n (secs.drop j.next) j s
      let s := (r.2.2.running d c).put F.CE_STATE_REBUILDING n 1
      if !r.1 || !s.summaryReady (c.arg 4 0 44) then s.setJob r.2.1
      else
        let j := r.2.1
        let st := if gone then Status.degraded else if j.bad ≠ 0 then .rebuilt
          else if j.corrected ≠ 0 then .okCorrected else .ok
        let w := (s.put F.CE_STATE_REBUILDING n 0).summary d (c.arg 4 0 44) st .rebuild (j.skipped != 0)
          [j.done, j.corrected, j.bad, j.odd, j.skipped, j.first.getD 0]
        (w.2.endJob d pos).finish d c w.1 0 j.rows)

/-! ## CHANNEL_RETIRE (R128, R250) -/

/-- The channels a CHANNEL_RETIRE names. -/
def retireSet (c : Cmd) : List Nat :=
  if c.argBit 1 8 then (List.range 32).map fun k => 32 * c.arg 1 0 3 + k else [32 * c.arg 1 0 3 + c.arg 1 3 5]

/-- Is another member of a channel's Mend group retired?  Groups exist with four sites or more (R214). -/
def State.groupRetired (s : State) (n : Nat) : Bool :=
  decide (4 ≤ s.mendN) && s.mendSites.any fun t => t != n / 32 && s.chanState (32 * t + n % 32) == 3

/-- CHANNEL_RETIRE (R128, R250). -/
def execChannelRetire (d pos : Nat) (s : State) : Host.Outcome State Fault Refusal :=
  .next (s.runCmd d pos .channelRetire true
    (pureCheck fun s c =>
      [(c.argBit 1 8 && c.arg 1 3 5 != 0 || (retireSet c).all fun n => s.chanState n == 4, .badArg),
       (!c.argBit 1 9 && (retireSet c).any fun n => s.chanState n != 3 && s.groupRetired n, .notPermitted)]) fun s c =>
      let ns := retireSet c
      if ns.any fun n => s.chanState n == 1 || s.chanState n == 2 then s.running d c
      else
        let todo := ns.filter fun n => s.chanState n != 3
        let second := todo.any s.groupRetired
        let lost := (todo.flatMap s.losing).dedup.length
        let s := todo.foldl (fun s n => s.retire n false) s
        let s := s.when second fun s => ((Tab.keys s.mem.touched).filter fun g => s.granClass g == 2).foldl
          (fun s g => s.put F.RG_GRAN_LOST g 1) s
        s.finish d ((s.cmd d pos).getD c) (if second then .dataFault else .ok) lost 0)

/-! ## CHANNEL_ADMIT (R251) -/

/-- CHANNEL_ADMIT (R251): the channel goes into admission; its record is written when that ends. -/
def execChannelAdmit (d pos : Nat) (s : State) : Host.Outcome State Fault Refusal :=
  .next (s.runCmd d pos .channelAdmit false
    (pureCheck fun s c => [(s.chanState (32 * c.arg 1 0 3 + c.arg 1 3 5) != 3, .badArg)]) fun s c =>
      let n := 32 * c.arg 1 0 3 + c.arg 1 3 5
      let s := (s.running d c).put F.CE_STATE_STATE n 2
      s.setChan n { s.chan n with resetAt := some s.tick, stoppedTicks := 0, cause := none, admitBy := some (d, pos) })

/-! ## TINKER (R258, R259) -/

/-- Codes of Table 10-9, and which of them write. -/
def tinkerCode (p : Nat) : Bool := decide (p ≤ 5) || p == 8
def tinkerWrites (p : Nat) : Bool := p != 0

/-- What a TINKER has counted: sectors tested, words corrected, uncorrectable and compared wrong, and the first error's
position. -/
structure Tally where
  done : Nat
  fixed : Nat
  bad : Nat
  wrong : Nat
  first : Option Nat
  deriving DecidableEq, Repr

def Tally.zero : Tally := ⟨0, 0, 0, 0, none⟩

/-- A tally with one more sector, or vector, at a position. -/
def Tally.add (t : Tally) (m fixed bad wrong : Nat) : Tally :=
  ⟨t.done + 1, t.fixed + fixed, t.bad + bad, t.wrong + wrong,
    if fixed + bad + wrong = 0 then t.first else some (t.first.getD m)⟩

/-- Table 10-9 SCAN: the sectors up to a limit, through the checker; it ends early where the channel resets. -/
def State.scanRun (n part : Nat) : List Nat → Tally → State → Bool × Tally × State
  | [], t, s => (true, t, s)
  | k :: ks, t, s =>
    let l : Loc := ⟨n, k⟩
    let live := s.chanState n == 0
    let check := !s.locPlainClass l && !isPoisoned (s.rawSector l) (s.rawChecks l)
    let vs := if check then s.verdicts l else []
    let s := ((if k % 32 = 0 then s.chargeRead part else s).judge l (some part) true).2
    let t := t.add (k / 32) (if countBad vs = 0 then countFixed vs else 0) (countBad vs) 0
    if live && s.chanState n != 0 then (false, t, s) else State.scanRun n part ks t s

/-! ### Writing patterns -/

/-- The PRBS x^31 + x^28 + 1: `n` more bits, least significant first, from a state of 31 bits. -/
def prbsBits : Nat → BitVec 31 → Nat → Nat → Nat × BitVec 31
  | 0, x, v, _ => (v, x)
  | n + 1, x, v, w =>
    let b := x.getLsbD 30 != x.getLsbD 27
    prbsBits n ((x <<< 1) ||| (if b then 1#31 else 0#31)) (v + (if b then w else 0)) (2 * w)

/-- A sector of a pattern: its data, its check lanes as they are written, and whether these are the encoded ones. -/
structure Pattern where
  data : SectorBits
  checks : List Byte
  encoded : Bool
  deriving DecidableEq, Repr

/-- A sector with encoded check bits. -/
def Pattern.of (d : SectorBits) : Pattern := ⟨d, sectorChecks d, true⟩

/-- Passes of a pattern over the range (Table 10-9). -/
def tinkerPasses (p : Nat) : Nat := if p = 1 then 2 else if p = 2 then 72 else 1

/-- Table 10-9: sector `k` of a channel in a pass of a pattern, and the PRBS state after it.  ADDR counts the words of the channel
from position 0, and POWER alternates from burst to burst, its check lanes with it (log 43). -/
def tinkerSector (p pass k : Nat) (x : BitVec 31) : Pattern × BitVec 31 :=
  match p with
  | 1 => (.of (if pass = 0 then 0 else allOnes), x)
  | 2 => (⟨ofWords (List.replicate 8 (if pass < 64 then 1#64 <<< pass else 0)),
      List.replicate 8 (if pass < 64 then 0 else 1#8 <<< (pass - 64)), false⟩, x)
  | 3 =>
    let r := (List.range 8).foldl (fun (a : List Word × BitVec 31) _ =>
      let b := prbsBits 64 a.2 0 1
      (a.1 ++ [BitVec.ofNat 64 b.1], b.2)) ([], x)
    (.of (ofWords r.1), r.2)
  | 4 => (.of (ofWords ((List.range 8).map fun w => BitVec.ofNat 64 (8 * k + w))), x)
  | _ =>
    let b : Byte := if k / 32 % 2 = 0 then 0x55 else 0xAA
    (⟨BitVec.ofNat 512 (ofBytes (List.replicate 64 b)), List.replicate 8 b, false⟩, x)

/-- R236, R237, R258: a pattern's sector goes to DRAM and comes back, over both gaps; its words are compared with all 72 bits, and
those of an encoded pattern are judged (log 43). -/
def State.tinkerOne (s : State) (l : Loc) (p : Pattern) (part : Nat) (t : Tally) : Tally × State :=
  let i := s.info l (some part)
  let s := if l.k % 32 = 0 then (s.chargeWrite part).chargeRead part else s
  let w := s.passGap l .ewr p.data
  let s := match w with
    | (some d, s) => s.writeNew l d p.checks
    | (none, s) => ((s.countSat F.IN_INTCNT_PAR_GAP 0 1).log .parW i).writePoison l
  let cs := s.rawChecks l
  let vs := if p.encoded then s.verdicts l else []
  let r := s.passGap l .err (s.rawSector l)
  let wrong := match r.1 with
    | some d => ((List.range 8).filter fun k => sectorWord d k != sectorWord p.data k || cs.getD k 0 != p.checks.getD k 0).length
    | none => 8
  let s := if r.1.isNone then (r.2.countSat F.IN_INTCNT_PAR_GAP 0 1).log .parR i else r.2
  (t.add l.m (countFixed vs) (countBad vs) wrong, s)

/-- One pass of a pattern over the sectors of a range. -/
def State.tinkerPass (n p pass part sectors : Nat) (x : BitVec 31) (t : Tally) (s : State) : Tally × BitVec 31 × State :=
  (List.range sectors).foldl (fun (a : Tally × BitVec 31 × State) k =>
    let q := tinkerSector p pass k a.2.1
    let r := a.2.2.tinkerOne ⟨n, k⟩ q.1 part a.1
    (r.1, q.2, r.2)) (t, x, s)

/-- R258: every pass of a writing pattern; the bytes tested are those of the range. -/
def State.tinkerRun (s : State) (n p part sectors seed : Nat) : Tally × State :=
  let r := (List.range (tinkerPasses p)).foldl (fun (a : Tally × BitVec 31 × State) pass =>
    State.tinkerPass n p pass part sectors a.2.1 a.1 a.2.2) (Tally.zero, BitVec.ofNat 31 seed, s)
  ({ r.1 with done := sectors }, r.2.2)

/-- R258: after a writing pattern the contents of a channel are open. -/
def State.openChannel (s : State) (n : Nat) : State :=
  let mine := fun (i : Nat) => i / 2 ^ 26 == n
  let k := s.freeCtr
  let g := (s.mem.ground.filter fun g => !mine g.lo) ++ [⟨n * 2 ^ 26, (n + 1) * 2 ^ 26, some k⟩]
  { s.draw.2 with mem := s.mem.reground mine g }

/-! ### SPLIT (R259) -/

/-- Table 10-10: one vector on the array, and its outcome. -/
def State.splitVector (s : State) (n : Nat) (ws : List Word) (t : Tally) : List Word × Tally × State :=
  let w := fun i => ws.getD i 0
  let l : Loc := ⟨n, bits (w 0) 1 23 * 32 + bits (w 0) 24 5⟩
  let k := bits (w 0) 29 3
  let same := (ws, t, s)
  if s.positions n ≤ bits (w 0) 1 23 then same
  else
    let x := sectorWord (s.rawSector l) k
    let cb := (s.rawChecks l).getD k 0
    let put (x : Word) (cb : Byte) : State :=
      s.writeNew l (putWord (s.rawSector l) k x) ((s.rawChecks l).set k cb)
    let syn := syndrome x cb
    let v := verdict syn
    let code := if x = BitVec.allOnes 64 ∧ syn = 0xFF#8 then 3 else match v with
      | .clean => 0
      | .uncorrectable => 2
      | _ => 1
    let seen := t.add (bits (w 0) 1 23) (if code = 1 then 1 else 0) (if code = 2 then 1 else 0) 0
    let done := t.add 0 0 0 0
    let out (a b : Word) (o : Nat) : List Word := [w 0, a, b, BitVec.ofNat 64 o]
    let free := s.draw.1.toNat % 1024 + 1024
    let b5 := BitVec.ofNat 64 ((w 2).toNat / 256 * 256 + cb.toNat)
    match bits (w 0) 32 3 with
    | 1 => (out (w 1) (w 2) free, done, (put (w 1) cb).draw.2)
    | 2 => (out (w 1) (w 2) free, done, (put x ((w 2).setWidth 8)).draw.2)
    | 3 => (out (w 1) (w 2) free, done, (put (w 1) ((w 2).setWidth 8)).draw.2)
    | 4 => (out (Sys2Proof.corrected x v) (w 2) (syn.toNat + code * 256 + 1024), seen, s)
    | 5 => (out x b5 (syn.toNat + code * 256 + 1024), seen, s)
    | _ => same

/-- R259: the vectors in order, each outcome in place; outcomes that would fall in a Mended granule are not written, as a summary
is not (R216, R256, log 39). -/
def State.splitRun (s : State) (n d a count : Nat) : Tally × Status × State :=
  (List.range count).foldl (fun (acc : Tally × Status × State) i =>
    let b := a + 32 * i
    let r := acc.2.2.readMem b 32 d
    let v := r.2.2.splitVector n (wordsOf r.1 4) acc.1
    let old := v.2.2.readQuiet (b / 64 * 64) d
    let half := (List.range 8).map (sectorWord old.1.sec.data)
    let ws := if b % 64 = 0 then v.1 ++ half.drop 4 else half.take 4 ++ v.1
    let w : Status × State :=
      if r.2.1 = .dataFault then (.dataFault, r.2.2)
      else if s.isMended b then (.regionClass, v.2.2)
      else
        let w := old.2.writeSec (b / 64 * 64) (mkSec (ofWords ws)) d
        (Status.worst r.2.1 w.1, w.2)
    (if r.2.1 = .dataFault then acc.1 else v.2.1, Status.worst acc.2.1 w.1, w.2)) (Tally.zero, .ok, s)

/-- The end of a TINKER: its summary and its record (Tables 5-5, 10-8). -/
def State.tinkerEnd (s : State) (d : Nat) (c : Cmd) (t : Tally) (bytes : Nat) (st : Status) (early : Bool) (a : Nat) : State :=
  let w := s.summary d a st .tinker early [bytes, t.fixed, t.bad, t.wrong, 0, t.first.getD 0]
  w.2.finish d c w.1 0 (t.fixed + t.bad + t.wrong)

/-- SCAN (R134, R258): it ends with ABORTED_RESET on a channel that is in reset, or has been retired since the command started. -/
def State.tinkerScan (s : State) (d : Nat) (c : Cmd) : State :=
  let n := c.channel
  let res := c.arg 4 0 44
  if s.recovering n || s.chanState n == 3 && !c.gone then s.tinkerEnd d c .zero 0 .abortedReset true res
  else
    let r := State.scanRun n d (List.range (c.arg 3 0 48 / 64)) .zero s
    let st := if !r.1 then Status.abortedReset else if r.2.1.fixed ≠ 0 then .okCorrected else .ok
    r.2.2.tinkerEnd d c r.2.1 (64 * r.2.1.done) st (!r.1) res

/-- R125: the checks of TINKER. -/
def tinkerChecks (s : State) (d : Nat) (c : Cmd) : List (Bool × Status) :=
  let n := c.channel
  let p := c.arg 1 8 4
  let bytes := c.arg 3 0 48
  let res := c.arg 4 0 44
  [(!tinkerCode p || bytes % 2048 != 0 || p == 8 && n % 16 != 0 || res % 64 != 0
      || p != 8 && s.chanState n != 4 && decide (s.positions n * 2048 < bytes), .badArg)] ++
    s.rangeChecks d [(res, if p = 8 then bytes + 64 else 64)] ++
    [(s.chanState n == 4, .badArg), (tinkerWrites p && s.chanState n != 3, .notPermitted)]

/-- TINKER (R258, R259, R134). -/
def execTinker (d pos : Nat) (s : State) : Host.Outcome State Fault Refusal :=
  .next (s.runCmd d pos .tinker false (pureCheck fun s c => tinkerChecks s d c) fun s c =>
      let n := c.channel
      let p := c.arg 1 8 4
      let bytes := c.arg 3 0 48
      let res := c.arg 4 0 44
      let free := s.rangesFree [(res, if p = 8 then bytes + 64 else 64)]
      if !free || p = 0 && (s.nextDesc n).isSome then s
      else
        let s := s.firstAction d pos
        if p = 0 then s.tinkerScan d c
        else if p = 8 then
          let r := s.splitRun n d res (bytes / 32)
          (r.2.2.openChannel n).tinkerEnd d c r.1 bytes r.2.1 false (res + bytes)
        else
          let r := s.tinkerRun n p d (bytes / 64) (c.arg 2 0 32)
          (r.2.openChannel n).tinkerEnd d c r.1 bytes .ok false res)

end Sys2Proof.Machine
end

