-- ==== Sys2Proof/Machine/Update.lean ====
section
/-!
DEFINITION. UPDATE and EMIT: the Smiths' check, the start of an entry, and its end (R97 to R107).
-/

namespace Sys2Proof.Machine

open Sys2Proof.Num

/-! ## The tensor list (R97, R98) -/

/-- Fields of the command's arguments (Table 4-6). -/
def Cmd.tlist (c : Cmd) : Nat := c.arg 1 0 44
def Cmd.nent (c : Cmd) : Nat := c.arg 1 44 13
def Cmd.kslot (c : Cmd) : Nat := c.arg 1 57 4
def Cmd.fuseEmit (c : Cmd) : Bool := c.argBit 1 61
def Cmd.deferFlag (c : Cmd) : Bool := c.argBit 1 62
def Cmd.stab (c : Cmd) : Nat := c.arg 2 0 44
def Cmd.nsets (c : Cmd) : Nat := c.arg 2 44 13

/-- Table 4-6, Table 5-4: are the arguments in range? -/
def updateArgsOk (o : Op) (c : Cmd) : Bool :=
  c.tlist % 64 == 0 && c.stab % 64 == 0 && decide (1 ≤ c.nent ∧ c.nent ≤ 4096) && decide (1 ≤ c.nsets ∧ c.nsets ≤ 4096)
    && !(o == .emit && c.fuseEmit)

/-- Bytes of an entry. -/
def entryBytes (k : Kernel) (emits : Bool) : Nat := 64 + 32 * (k.ins.length + k.outs.length + if emits then 1 else 0)

/-- R98: is every bit that Table 4-7 does not name clear? -/
def headStray (h : List Word) : Bool :=
  [47, 44, 44, 57, 44, 32, 0, 0].zipIdx.any fun e => (h.getD e.2 0).toNat / 2 ^ e.1 != 0

/-- R98, R103: an entry from its bytes. -/
def entryOf (k : Kernel) (emitCmd emits : Bool) (bs : List Byte) : Entry :=
  let h := wordsOf bs 8
  let tile := fun i => tileOf (wordsOf (bs.drop (64 + 32 * i)) 4)
  let ni := k.ins.length
  let on := emits && (bits (h.getD 0 0) 45 2 != 0)
  { head := h
    ins := k.ins.zipIdx.map fun e => (e.1, tile e.2)
    outs := if emitCmd then [] else k.outs.zipIdx.map fun e => (e.1, tile (ni + e.2))
    emit := if on then some (tile (ni + k.outs.length)) else none
    stray := headStray h, st := .waiting, scalars := [], left := 0, status := .ok, ssq := [], sat := 0, faultLanes := 0,
    hist := [], caps := [], stored := [] }

/-- Every descriptor in use. -/
def Entry.tiles (e : Entry) : List Tile := e.ins.map (·.2) ++ e.outs.map (·.2) ++ e.emit.toList

/-- R58, R102: do two descriptors agree in shape? -/
def sameShape (x y : Tile) : Bool :=
  x.rows == y.rows && x.cols == y.cols && x.order == y.order && (!x.order || x.phLog2 == y.phLog2)

/-- R60, R69: may the kernel load an input stream, and store an output stream? -/
def inPair (k : Kernel) (n : Nat) (t : Tile) : Bool := match k.ldOf n with
  | some w => if w.top then t.format == .df16p else loadPair t.format w.format t.scaled
  | none => false
def outPair (w : Option SlotWord) (t : Tile) : Bool := match w with
  | some w => if w.top then t.format == .df16p else storePair w.format t.format
  | none => false

/-- R100 check 1: the descriptors (R57 to R61) and the header. -/
def Entry.formOk (e : Entry) (k : Kernel) (emitCmd : Bool) (nsets : Nat) : Bool :=
  let cols := ((e.ins ++ e.outs).filter fun x => x.2.order).length
  !e.stray && e.result % 64 == 0 && e.histBase % 64 == 0 && decide (e.sset < nsets) && !(emitCmd && e.emit.isNone)
    && e.ins.all (fun x => x.2.formOk false && x.2.blockOk && inPair k x.1 x.2)
    && e.outs.all (fun x => x.2.formOk true && x.2.blockOk && outPair (k.stOf x.1) x.2)
    && e.emit.toList.all (fun t => t.formOk true && t.blockOk && (k.tap.isNone || match k.tap with
      | some w => storePair w.format t.format
      | none => true))
    && (match e.tiles with
      | t :: _ => e.tiles.all (sameShape t) && decide (!t.order ∨ t.ph * cols ≤ 256)
      | [] => true)

/-- The ranges an entry writes as streams: its outputs and its emit memory (R101). -/
def State.entryWrites (s : State) (e : Entry) : List (Nat × Nat) :=
  e.outs.flatMap (fun x => s.tileWrites x.2) ++ (if e.emitMem then e.emit.toList.flatMap s.tileWrites else [])

/-- The result record and the histogram areas. -/
def Entry.records (e : Entry) (k : Kernel) : List (Nat × Nat) :=
  (if e.result = 0 then [] else [(e.result, 128)])
    ++ (if e.histBase = 0 then [] else k.histSets.map fun i => (e.histBase + 256 * i, 256))

/-- R100 check 4. -/
def State.bucketOk (s : State) (t : Tile) : Bool :=
  t.format != .dx64 || match s.bucketAt t.base with
    | some b => (b.st == .closed || b.st == .inUse) && decide (t.base + t.rows * t.pitch ≤ b.base + b.extent) && b.bx == t.bx
    | none => false

/-- R100: the checks of one entry, in order; its ranges are the extents of every descriptor in use, the emit descriptor's with them
(R103). -/
def State.entryCheck (s : State) (d : Nat) (k : Kernel) (emitCmd : Bool) (nsets : Nat) (e : Entry) : Option Status :=
  let writes := s.entryWrites e
  let recs := e.records k
  let all := e.ins.flatMap (fun x => x.2.reads) ++ (e.outs.map (·.2) ++ e.emit.toList).flatMap s.tileWrites ++ recs
  firstFail ((!e.formOk k emitCmd nsets, .badArg) :: s.rangeChecks d all ++
    [(!e.ins.all fun x => s.bucketOk x.2, .badArg),
     (writes.any s.breaksRows || recs.any fun r => s.touchesClass 2 r.1 r.2, .regionClass),
     (writes.any fun r => s.touchesRetired r.1 r.2, .degraded)])

/-- The entries of a list, each with the status of reading it. -/
def State.readEntries (s : State) (d : Nat) (k : Kernel) (emitCmd emits : Bool) (a n : Nat) : List (Entry × Status) × State :=
  (List.range n).foldl (fun (acc : List (Entry × Status) × State) i =>
    let r := acc.2.readMem (a + i * entryBytes k emits) (entryBytes k emits) d
    (acc.1 ++ [(entryOf k emitCmd emits r.1, r.2.1)], r.2.2)) ([], s)

/-- What the Smiths' check answers: a refusal with the index of DETAIL, or a run. -/
inductive Smith
  | refused (st : Status) (detail : Nat)
  | run (r : Run)
  deriving DecidableEq, Repr

/-- R100: the check of a whole command. -/
def State.smithCheck (s : State) (d : Nat) (o : Op) (c : Cmd) : Smith × State :=
  let emitCmd := o == .emit
  let emits := emitCmd || c.fuseEmit
  if !updateArgsOk o c then (.refused .badArg 0xFFFF, s)
  else if !(c.granted F.PA_CFG_KGRANT).testBit c.kslot then (.refused .notPermitted 0xFFFF, s)
  else match s.kernel c.kslot with
    | none => (.refused .badArg 0xFFFF, s)
    | some k =>
      match firstFail (s.rangeChecks d [(c.tlist, c.nent * entryBytes k emits), (c.stab, c.nsets * 64)]) with
      | some st => (.refused st 0xFFFF, s)
      | none =>
        let l := s.readEntries d k emitCmd emits c.tlist c.nent
        let r := (l.1, l.2.hasRead d c.pos ((l.1.filter (·.2 != .dataFault)).foldl (fun st e => Status.worst st e.2) .ok))
        let bad := r.1.zipIdx.findSome? fun e =>
          (if e.1.2 = .dataFault then some .dataFault else r.2.entryCheck d k emitCmd c.nsets e.1.1).map fun st => (st, e.2)
        match bad with
        | some (st, i) => (.refused st i, r.2)
        | none => (.run ⟨d, c.pos, c.kslot, emitCmd, c.fuseEmit, c.deferFlag, false, c.stab, BitVec.ofNat 32 (c.arg 3 0 32), c.seed,
            r.1.map (·.1), 0⟩, r.2)

/-- R84: a command with a DX64 stream in a bucket reads it until it completes. -/
def State.takeBuckets (s : State) (r : Run) : State :=
  (r.entries.flatMap fun e => e.ins.filter fun x => x.2.format == .dx64).foldl (fun s x => match s.bucketAt x.2.base with
    | some b =>
      let me := (r.drawer, r.pos)
      s.setBucket { b with st := .inUse, readers := if b.readers.contains me then b.readers else b.readers ++ [me] }
    | none => s) s

/-- May the tensor list be read now (Table 5-10, R16)? -/
def State.listReady (s : State) (o : Op) (c : Cmd) : Bool := match s.kernel c.kslot with
  | some k => s.rangesFree [(c.tlist, c.nent * entryBytes k (o == .emit || c.fuseEmit))]
  | none => true

/-- UPDATE and EMIT: checked once no load of the slot is under way (R79); the entries then start one by one. -/
def State.startUpdate (s : State) (d pos : Nat) (o : Op) : State :=
  match s.due d pos o false with
  | none => s
  | some c =>
    if c.phase = .checked then s.running d c
    else if s.slotLoading c.order c.kslot || !s.listReady o c then s
    else match s.smithCheck d o c with
      | (.refused st i, s) => s.finish d ((s.cmd d pos).getD c) st i 0
      | (.run r, s) =>
        let s := ({ s with anv := { s.anv with runs := s.anv.runs ++ [r] } } : State).takeBuckets r
        let c := (s.cmd d pos).getD c
        s.setCmd d { c with phase := if s.isArmed d pos then .armed else .running }

/-- UPDATE (R100). -/
def execUpdate (d pos : Nat) (s : State) : Host.Outcome State Fault Refusal := .next (s.startUpdate d pos .update)

/-- EMIT (R103). -/
def execEmit (d pos : Nat) (s : State) : Host.Outcome State Fault Refusal := .next (s.startUpdate d pos .emit)

/-! ## The end of an entry (R60, R101 to R105) -/

/-- R39, R75: how an element of an output is rounded, out of the register format of its ST. -/
def Run.rounding (r : Run) (e : Entry) (t : Tile) (reg : Option SlotWord) (off idx : Nat) : Rnd :=
  if t.round then
    (Rnd.stoch (rnBits t.rn) (r.bits e (rnBits t.rn) idx off)).into (match reg with
      | some w => w.format
      | none => t.format) t.format
  else .nearest

/-- The values a stream has taken, by row. -/
def Entry.matrix (e : Entry) (n : Nat) (t : Tile) : List (List Val) :=
  let m := ((e.stored.find? fun x => x.1 == n).getD (n, [])).2
  (List.range t.rows).map fun i => (List.range t.cols).map fun j => Tab.get (fun _ => .fault) m (t.index (i, j))

/-- OK_CLAMPED where an element saturated (Table 4-9). -/
def TileImage.status (im : TileImage) (t : Tile) : Status := if !t.ovf && im.nOver != 0 then .okClamped else .ok

/-- R102: the emit output goes out on its port: every row, then the scales, the last write a WR_FINAL. -/
def State.emitToPort (s : State) (r : Run) (e : Entry) (t : Tile) (im : TileImage) : State :=
  let p := e.field 3 44 5
  let og := e.field 3 49 8
  let last := im.rows.length - 1
  let s := im.rows.zipIdx.foldl (fun s x =>
    s.queueWrites p r.drawer r.pos og (e.field 3 0 44 + x.2 * t.pitch) ((sectorsOfBytes (t.rowBytes x.1)).map mkSec)
      (!t.scaled && x.2 == last)) s
  if t.scaled then s.queueWrites p r.drawer r.pos og (e.field 4 0 44) ((sectorsOfBytes im.plane).map mkSec) true else s

/-- R102: the emit unit's output of an entry, with its capture. -/
def State.emitOut (s : State) (r : Run) (kn : Kernel) (e : Entry) : Entry × Status × State :=
  match e.emit with
  | none => (e, .ok, s)
  | some t =>
    let vals := e.matrix 4 t
    let im := t.encode vals (r.rounding e t kn.tap 1288)
    let c := e.capture 3 vals.flatten im.nOver
    let s := s.satFlag F.AV_ASSAY_STAT_CAP_SAT c.2
    let w : Status × State := if e.emitMem then s.writeTile t im r.drawer false else (.ok, s)
    (c.1, Status.worst (im.status t) w.1, if e.emitPort then w.2.emitToPort r c.1 t im else w.2)

/-- Table 4-8: the record's bytes. -/
def Entry.recordBytes (e : Entry) (st : Status) (iters sets : Nat) : List Byte :=
  let cap := fun k =>
    let c := Tab.get (fun _ => .zero) e.caps k
    bytesOf 4 c.maxAbs ++ bytesOf 4 (BitVec.ofNat 32 c.nFault) ++ bytesOf 4 (BitVec.ofNat 32 c.nOvf)
  bytesOf 8 (BitVec.ofNat 64 (e.field 0 0 16 + st.code * 2 ^ 16 + e.sat % 16 * 2 ^ 24 + iters % 2 ^ 32 * 2 ^ 32))
    ++ bytesOf 8 (BitVec.ofNat 64 (e.faultLanes + sets * 2 ^ 32))
    ++ (List.range 4).flatMap (fun k => bytesOf 16 (BitVec.ofNat 128 (Tab.get (fun _ => 0) e.ssq k)))
    ++ (List.range 4).flatMap cap

/-- R104: the record and the histograms of an entry. -/
def State.writeResult (s : State) (part : Nat) (k : Kernel) (e : Entry) (st : Status) (iters : Nat) (hists : Bool) : State :=
  let sets := if hists && e.histBase != 0 then k.histSets else []
  let s := sets.foldl (fun s i => (s.writeSecs (e.histBase + 256 * i) (sectorsOf (binWords e.hist (64 * i) 64)) part).2) s
  if e.result = 0 then s
  else (s.writeSecs e.result (sectorsOfBytes (e.recordBytes st iters (sets.foldl (fun v i => v + 2 ^ i) 0))) part).2

/-- The command is done once every entry has ended or was skipped (R105, R126). -/
def State.runDone (s : State) (d pos : Nat) : State :=
  match s.runOf d pos, s.cmd d pos with
  | some r, some c =>
    if r.final && c.phase == .running && r.entries.all (fun e => e.st == .ended || e.st == .skipped) then
      match s.kernel r.slot with
      | some k =>
        let st := r.entries.foldl (fun st e => Status.worst st e.status) .ok
        let skipped := (r.entries.filter fun e => e.st == .skipped).length
        let iters := ((r.entries.filter fun e => e.st == .ended).map fun e => e.iters k.elems).foldl (· + ·) 0
        s.finish d c st (0xFFFF + skipped * 2 ^ 16) iters
      | none => s
    else s
  | _, _ => s

/-- R104: an entry whose iterations have all left the body: its outputs are converted and written, then its result. -/
def State.endEntry (s : State) (r : Run) (kn : Kernel) (k : Nat) (e : Entry) : State :=
  let ranges := (s.entryWrites e).filter (fun x => !s.isMended x.1) ++ e.records kn
  if !s.rangesFree ranges then s
  else
    let w := e.outs.foldl (fun (acc : Status × State) x =>
      let im := x.2.encode (e.matrix x.1 x.2) (r.rounding e x.2 (kn.stOf x.1) (1280 + x.1))
      let y := acc.2.writeTile x.2 im r.drawer false
      (Status.worst (Status.worst acc.1 (im.status x.2)) y.1, y.2)) (.ok, s)
    let m : Entry × Status × State := if kn.tap.isSome then w.2.emitOut r kn e else (e, .ok, w.2)
    let st := Status.worst (Status.worst e.status w.1) m.2.1
    let s := m.2.2.writeResult r.drawer kn m.1 st (e.iters kn.elems) true
    (match s.runOf r.drawer r.pos with
      | some r => s.setEntry r k { m.1 with st := .ended, status := st, stored := [] }
      | none => s).runDone r.drawer r.pos

/-- Does a write-behind still hold a group of an entry (R80)? -/
def State.behindHas (s : State) (d pos k : Nat) : Bool := s.anv.anvil.any fun a => match a.2.work with
  | some w => w.drawer == d && w.pos == pos && a.2.behind.any fun g => g.k == k
  | none => false

/-- End every entry that can be. -/
def State.endEntries (s : State) : State :=
  s.anv.runs.foldl (fun s r0 =>
    (List.range r0.entries.length).foldl (fun s k =>
      match s.runOf r0.drawer r0.pos with
      | some r => match r.entries[k]?, s.kernel r.slot with
        | some e, some kn =>
          if e.st = .running ∧ e.left = 0 ∧ !s.behindHas r0.drawer r0.pos k then s.endEntry r kn k e else s
        | _, _ => s
      | none => s) s) s

/-! ## The start of an entry (R99, R107) -/

/-- R99: the Anvil of iteration `i`; where no input stream names one, the stream that gives the shape does, and failing
that the first used site. -/
def State.anvilOf (s : State) (k : Kernel) (e : Entry) (i : Nat) : Nat :=
  let site := 16 * (s.usedSites.headD 0)
  match e.shape with
  | some t => match s.locate (t.wordAddr (t.at_ (k.elems * i))) with
    | some l => 16 * (l.n / 32) + l.n % 16
    | none => site
  | none => site

/-- The Anvils of an entry, by iteration. -/
def State.entryAnvils (s : State) (k : Kernel) (e : Entry) : List Nat :=
  (List.range (e.iters k.elems)).map (s.anvilOf k e)

/-- The Anvils of the entries of a run that have not started. -/
def State.waitingAnvils (s : State) (r : Run) : List Nat := match s.kernel r.slot with
  | some k => (r.entries.filter fun e => e.st == .waiting).flatMap (s.entryAnvils k)
  | none => []

/-! ## What AV_ENGn shows (Table 3-13) -/

/-- Iterations of the running command that an Anvil has not started. -/
def State.iterLeft (s : State) (a : Nat) : Nat := match (s.anvil a).work with
  | some w =>
    let handed := if w.part = .body then w.iters.length - w.pass - (if w.bundle = 0 then 0 else 1) else if w.part = .pre then w.iters.length else 0
    let more := match s.runOf w.drawer w.pos with
      | some r => ((s.waitingAnvils r).filter (· == a)).length
      | none => 0
    Nat.min (handed + more) (2 ^ 32 - 1)
  | none => 0

/-- BUSY and ITER_LEFT follow the Anvil. -/
def State.showAnvil (s : State) (a : Nat) : State :=
  (s.put F.AV_ENG_BUSY a (b2n (s.anvil a).work.isSome)).put F.AV_ENG_ITER_LEFT a (s.iterLeft a)

/-! ## Handing over -/

/-- R80: may an Anvil take up work of a command: is it the command's already, or free and not needed by an earlier
command? -/
def State.anvilFree (s : State) (r : Run) (order a : Nat) : Bool := match (s.anvil a).work with
  | some w => w.drawer == r.drawer && w.pos == r.pos
  | none => !s.anv.runs.any fun x => (match s.cmd x.drawer x.pos with
      | some c => decide (c.order < order)
      | none => false) && (s.waitingAnvils x).contains a

/-- R107: does a range outside Mended granules lie on a channel that is out of service? -/
def State.onOutChannel (s : State) (a len : Nat) : Bool :=
  (burstsOf a len).any fun b => !s.isMended (b * 2048) && match s.locPlain (b * 2048) with
    | some l => s.chanState l.n != 0
    | none => false

/-- DEFER: is some Guarded or Plain stream of an entry out of service? -/
def State.mustSkip (s : State) (e : Entry) : Bool :=
  (e.ins.flatMap (fun x => x.2.reads) ++ e.outs.flatMap fun x => s.tileWrites x.2).any fun r => s.onOutChannel r.1 r.2

/-- Hand an iteration to an Anvil. -/
def State.handOver (s : State) (r : Run) (k : Kernel) (a : Nat) (it : Iter) : State :=
  let x := s.anvil a
  match x.work with
  | some w => s.setAnvil a { x with work := some { w with iters := w.iters ++ [it] } }
  | none =>
    let w : Work := ⟨r.drawer, r.pos, if k.preLen = 0 then .body else .pre, 0, 0, 0, [it]⟩
    let s := s.setAnvil a { x.settle with work := some w, fetched := [], nextIn := [], behind := [] }
    (s.put F.AV_ENG_DRAWER a r.drawer).put F.AV_ENG_KSLOT a r.slot

/-- S0 to S15 of a scalar set (R96). -/
def State.readScalars (s : State) (a part : Nat) : List (BitVec 32) × Status × State :=
  let g := s.readSec a part
  ((List.range 16).map fun i => BitVec.ofNat 32 (g.1.sec.data.toNat / 2 ^ (32 * i)), g.1.st, g.2)

/-- The entry starts: its scalar set is read, for the command (R126), its iterations go to their Anvils, and its bucket will be
released with the command (R98, R107). -/
def State.startEntry (s : State) (r : Run) (k : Kernel) (i : Nat) (e : Entry) : State :=
  let sc := s.readScalars (r.stab + 64 * e.sset) r.drawer
  let n := e.iters k.elems
  let e' : Entry := { e with
    st := .running, scalars := sc.1, left := n }
  let s := (sc.2.2.hasRead r.drawer r.pos sc.2.1).setRun { r with entries := r.entries.set i e', next := r.next + 1 }
  let s := ((s.entryAnvils k e).zipIdx).foldl (fun s x => s.handOver r k x.1 ⟨i, x.2⟩) s
  let s := (Tab.keys s.anv.anvil).foldl State.showAnvil s
  if !e.release then s
  else (e.ins.filter fun x => x.2.format == .dx64).foldl (fun s x => match s.bucketAt x.2.base with
    | some b => s.setBucket { b with release := true }
    | none => s) s

/-- ENTRY_START (R107): the next entry of a command starts, when its Anvils are free and its scalar set can be read; under DEFER it
is skipped at that moment when a stream of it is out of service.  A skipped entry has a result record all the same, with
ABORTED_RESET, although Table 4-9 says that nothing of it is written: the spec does not say whether the record is part of the
entry (DESIGN CHOICE, log 52). -/
def execEntryStart (d pos : Nat) (s : State) : Host.Outcome State Fault Refusal :=
  match s.cmd d pos, s.runOf d pos with
  | some c, some r =>
    if (c.phase ≠ .checked ∧ c.phase ≠ .running) ∨ s.stalled then .next s
    else match r.entries[r.next]?, s.kernel r.slot with
      | some e, some k =>
        let s' := s.running d c
        if !(s.entryAnvils k e).all (s.anvilFree r c.order) || !s.rangesFree [(r.stab + 64 * e.sset, 64)] then .next s
        else if r.defer && s.mustSkip e then
          if !s.rangesFree (if e.result = 0 then [] else [(e.result, 128)]) then .next s
          else
          let s := s'.setRun { r with
            entries := r.entries.set r.next { e with st := .skipped, status := .abortedReset }
            next := r.next + 1 }
          .next ((s.writeResult d k e .abortedReset 0 false).runDone d pos)
        else .next (s'.startEntry r k r.next e)
      | _, _ => .next s
  | _, _ => .next s

/-! ## A cycle of an Anvil (R54, R55, R62, R76) -/

/-- Is slot D of a body bundle working for an iteration in pass `e`? -/
def slotTarget (r : Run) (k : Kernel) (w : Work) (b : Nat) : Option Target :=
  let st := k.stage b 3
  if w.pass < st then none else r.target k.elems w.iters (w.pass - st)

/-- R76: the bits that a pass draws. -/
def passDraws (r : Run) (k : Kernel) (w : Work) : Nat :=
  let own := k.draws fun b => (slotTarget r k w b).isSome
  let sts := (List.range k.bodyLen).map fun b => match (k.bundle (k.preLen + b)).d, slotTarget r k w b with
    | .op .st x, some t =>
      let out := match t.e.outs.find? fun o => o.1 == x.dst.toNat with
        | some (_, tile) => if tile.round && decide (tile.format.width < x.format.width) then rnBits tile.rn else 0
        | none => 0
      let em := match t.e.emit with
        | some tile =>
          if x.mod.getLsbD 1 && tile.round && decide (tile.format.width < x.format.width) then rnBits tile.rn else 0
        | none => 0
      k.elems * (out + em)
    | _, _ => 0
  own + sts.foldl (· + ·) 0

/-- One bundle issues, all its slots on the registers as they stand (R51). -/
def State.issueBundle (s : State) (a : Nat) (x : Bundle) (ctx : Nat → SlotCtx) : State :=
  let s := match x.a with
    | .op o w => s.issueAb a (ctx 0) o w
    | _ => s
  let s := match x.b with
    | .op o w => s.issueAb a (ctx 1) o w
    | _ => s
  let s := match x.c with
    | .op o w => s.issueC a (ctx 2) o w
    | _ => s
  match x.d with
  | .op o w => s.issueDIn a (ctx 3) o w
  | _ => s

/-- The context of slot `j` in the part a kernel is in. -/
def slotCtx (k : Kernel) (w : Work) (j : Nat) : SlotCtx := match w.part with
  | .pre => .preamble
  | .body => .body ⟨k.stage w.bundle j, by unfold Kernel.stage; omega⟩
  | _ => .epilogue

/-- The bundle that is next. -/
def nextBundle (k : Kernel) (w : Work) : Bundle := match w.part with
  | .pre => k.bundle w.bundle
  | .body => k.bundle (k.preLen + w.bundle)
  | _ => k.bundle (k.preLen + k.bodyLen + w.bundle)

/-- R55: with no pass left the epilogue begins. -/
def Work.enter (w : Work) (k : Kernel) (final : Bool) : Work :=
  if w.part = .body ∧ w.bundle = 0 ∧ w.stretch = 0 ∧ final ∧ w.iters.length + k.stages - 1 ≤ w.pass then
    { w with part := .epi }
  else w

/-- Is a further iteration to come before the next pass can begin? -/
def iterWaits (r : Run) (w : Work) : Bool :=
  w.part == .body && w.bundle == 0 && !r.final && decide (w.iters.length ≤ w.pass)

/-- Must the Anvil wait for a stream (R62)? -/
def State.anvilWaits (s : State) (a : Nat) (k : Kernel) (w : Work) : Bool := match (nextBundle k w).d with
  | .op o x => match s.slotSite a (slotCtx k w 3) with
    | some y => s.streamWaits a o x y
    | none => false
  | _ => false

/-- What follows a bundle: the next one, the end of a pass with its stretch, or the end of a part. -/
def Work.next (w : Work) (r : Run) (k : Kernel) : Work :=
  match w.part with
  | .pre => if w.bundle + 1 < k.preLen then { w with bundle := w.bundle + 1 } else { w with part := .body, bundle := 0 }
  | .body =>
    if w.bundle + 1 < k.bodyLen then { w with bundle := w.bundle + 1 }
    else { w with bundle := 0, pass := w.pass + 1, stretch := (passDraws r k w + 255) / 256 - k.bodyLen }
  | .epi =>
    if k.preLen + k.bodyLen + w.bundle + 1 < k.bundles.length then { w with bundle := w.bundle + 1 }
    else { w with part := .drain }
  | .drain => w

/-- R55: at the end of a pass one iteration leaves the body. -/
def State.leaveBody (s : State) (k : Kernel) (w : Work) : State :=
  if w.part = .body ∧ w.bundle + 1 = k.bodyLen ∧ k.stages - 1 ≤ w.pass then
    match w.iters[w.pass - (k.stages - 1)]?, s.runOf w.drawer w.pos with
    | some it, some r => match r.entries[it.entry]? with
      | some e => s.setEntry r it.entry { e with left := e.left - 1 }
      | none => s
    | _, _ => s
  else s

/-- A cycle without issue (Table 3-14). -/
def State.stall (s : State) (a : Nat) : State := s.count F.AV_STALL_STALL_CYCLES F.AV_STALL_STALL_OVF a 1

/-- Change the work of an Anvil. -/
def State.setWork (s : State) (a : Nat) (w : Option Work) : State := s.setAnvil a { s.anvil a with work := w }

/-- One CKCORE cycle of an Anvil. -/
def State.anvilCycle (s : State) (a : Nat) : State :=
  let step (s : State) : State := s.setAnvil a (s.anvil a).advance
  match (s.anvil a).work with
  | none => if (s.anvil a).landing.isEmpty then s else step s
  | some w0 => match s.runOf w0.drawer w0.pos with
    | none => s.setWork a none
    | some r => match s.kernel r.slot with
      | none => s.setWork a none
      | some k =>
        let w := w0.enter k r.final
        let s := (s.setWork a (some w)).drainOut a
        let s := k.ins.foldl (fun s n => s.prefetchOne a k.elems n w r) s
        let r := (s.runOf r.drawer r.pos).getD r
        if w.part = .drain then
          if w.iters.all fun it => match r.entries[it.entry]? with
            | some e => e.st == .ended || r.cut
            | none => true
          then s.setWork a none
          else s
        else if w.stretch ≠ 0 then step ((s.setWork a (some { w with stretch := w.stretch - 1 })).stall a)
        else if iterWaits r w then s
        else if s.anvilWaits a k w then s.stall a
        else
          let s := ((s.firstAction w.drawer w.pos).issueBundle a (nextBundle k w) (slotCtx k w)).charge r.drawer 7 1
          let last := w.part == .body && w.bundle + 1 == k.bodyLen
          let s := s.charge r.drawer 12 (if last then (passDraws r k w + 127) / 128 else 0)
          let s := s.leaveBody k w
          let r := (s.runOf r.drawer r.pos).getD r
          step (s.setWork a (some (w.next r k)))

/-- Anvils with work or with results under way. -/
def State.anvilsHeld (s : State) : List Nat := Tab.keys s.anv.anvil

/-- A cycle in which work is held up for want of coolant: each busy Anvil stalls as under R62 (R307). -/
def State.anvilsPaused (s : State) : State := s.anvilsHeld.foldl (fun s a => match (s.anvil a).work with
  | some w => if w.part = .drain then s else s.stall a
  | none => s) s

/-- One CKCORE cycle of all Anvils; the governor lets them issue in part of every 8 cycles (Table 12-4). -/
def State.anvilsCycle (s : State) : State :=
  if s.stalled then s.anvilsPaused
  else if decide (8 - s.fld F.PW_GOV_STAT_LVL_AV 0 ≤ s.power.cycles % 8) then s
  else (s.anvilsHeld.foldl (fun s a => (s.anvilCycle a).showAnvil a) s).endEntries

end Sys2Proof.Machine
end

