-- ==== Sys2Proof/Machine/Cut.lean ====
section
/-!
DEFINITION. Commands that a power-fail warning cuts (R322, Table 13-7).
-/

namespace Sys2Proof.Machine

open Sys2Proof.Num

/-! ## UPDATE and EMIT -/

/-- An Anvil finishes the iterations in its body and starts no more. -/
def Work.cut (w : Work) : Work :=
  match w.part with
  | .pre => { w with iters := [] }
  | .body => { w with iters := w.iters.take (if w.bundle = 0 then w.pass else w.pass + 1) }
  | _ => w

/-- R322: no further iteration of a run starts. -/
def State.cutRun (s : State) (r : Run) : State :=
  let s := s.setRun { r with cut := true, next := r.entries.length }
  s.anvilsHeld.foldl (fun s a => match (s.anvil a).work with
    | some w => if w.drawer = r.drawer ∧ w.pos = r.pos then s.setWork a (some w.cut) else s
    | none => s) s

/-- Does some Anvil still work for a run? -/
def State.runBusy (s : State) (r : Run) : Bool := s.anvilsHeld.any fun a => match (s.anvil a).work with
  | some w => w.drawer == r.drawer && w.pos == r.pos
  | none => false

/-- The elements of a stream that some iteration has stored. -/
def Entry.has (e : Entry) (n : Nat) : List Nat := Tab.keys ((e.stored.find? fun x => x.1 == n).getD (n, [])).2

/-- Sectors of an output's scale plane with a block that lacks an element. -/
def Tile.openPlane (t : Tile) (have_ : List Nat) : List Nat :=
  if !t.scaled then []
  else (((List.range t.elems).filter fun p => !have_.contains (t.index (t.at_ p))).map fun p => t.block (t.at_ p) / 64).dedup

/-- Rows of an output of which every element, and every scale they share, is known. -/
def Tile.rowDone (t : Tile) (have_ plane : List Nat) (i : Nat) : Bool :=
  (List.range t.cols).all fun j => have_.contains (t.index (i, j)) && !plane.contains (t.block (i, j) / 64)

/-- R322: in a Mended region only whole stripe rows are written. -/
def State.writeDoneRows (s : State) (part : Nat) (t : Tile) (im : TileImage) (done : Nat → Bool) : State :=
  let e := s.outExtent t.base (t.rows * t.pitch)
  let bs := im.rows.flatMap fun r =>
    let b := t.rowBytes r
    b ++ List.replicate (t.pitch - b.length) 0
  let secs := (sectorsOfBytes (bs ++ List.replicate (e.2 - bs.length) 0)).map mkSec
  let w := (s.mendN - 1) * 32
  (List.range (secs.length / Nat.max 1 w)).foldl (fun s k =>
    let lo := k * w * 64
    let whole := (List.range t.rows).all fun i => !overlap (i * t.pitch) t.pitch lo (w * 64) || done i
    if whole then s.writeRows part (t.base + lo) ((secs.drop (k * w)).take w) true else s) s

/-- R322: what the finished iterations of an unfinished entry have stored to one output; `reg` is the register format of its
ST. -/
def State.writePart (s : State) (r : Run) (e : Entry) (n : Nat) (reg : Option SlotWord) (off : Nat) (t : Tile) : State :=
  let have_ := e.has n
  let plane := t.openPlane have_
  let done := t.rowDone have_ plane
  let im := t.encode (e.matrix n t) (r.rounding e t reg off)
  let s := if s.isMended t.base then s.writeDoneRows r.drawer t im done
    else im.rows.zipIdx.foldl (fun s x =>
      if done x.2 then (s.writeMem (t.base + x.2 * t.pitch) (t.rowBytes x.1) r.drawer).2 else s) s
  if !t.scaled ∨ s.isMended t.scaleBase then s
  else (List.range (im.plane.length / 64)).foldl (fun s k =>
    if plane.contains k then s else (s.writeMem (t.scaleBase + 64 * k) ((im.plane.drop (64 * k)).take 64) r.drawer).2) s

/-- Is an entry finished: its record written? -/
def Entry.finished (e : Entry) : Bool := e.st == .ended || e.st == .skipped

/-- R322: the groups that an Anvil's write-behind still holds for a run are stored with the others. -/
def State.flushBehind (s : State) (a : Nat) (r : Run) : Run :=
  match (s.anvil a).work with
  | some w =>
    if w.drawer = r.drawer ∧ w.pos = r.pos then (s.anvil a).behind.foldl (fun r g => match r.entries[g.k]? with
      | some e => { r with entries := r.entries.set g.k (e.store g.stream g.lo g.vals) }
      | none => r) r
    else r
  | none => r

/-- R322: a cut run is over: its finished iterations stand in memory. -/
def State.cutEnd (s : State) (r : Run) : State :=
  match s.cmd r.drawer r.pos, s.kernel r.slot with
  | some c, some k =>
    let r := s.anvilsHeld.foldl (fun r a => s.flushBehind a r) r
    let s := (r.entries.filter fun e => e.st == .running).foldl (fun s e =>
      let s := e.outs.foldl (fun s x => s.writePart r e x.1 (k.stOf x.1) (1280 + x.1) x.2) s
      match e.emit with
      | some t => if e.emitMem then s.writePart r e 4 k.tap 1288 t else s
      | none => s) s
    let first := (r.entries.findIdx? fun e => !e.finished).getD 0xFFFF
    let skipped := (r.entries.filter fun e => e.st == .skipped).length
    let iters := ((r.entries.filter fun e => e.st == .running || e.st == .ended).map fun e =>
      e.iters k.elems - e.left).foldl (· + ·) 0
    s.finish r.drawer c .abortedReset (first + skipped * 2 ^ 16) iters
  | _, _ => s

/-- End the cut runs whose Anvils are done and whose complete entries have ended; with `force` whatever they have
reached. -/
def State.endCutRuns (s : State) (force : Bool) : State :=
  s.anv.runs.foldl (fun s r0 => match s.runOf r0.drawer r0.pos, s.cmd r0.drawer r0.pos with
    | some r, some c =>
      if !r.cut || c.phase == .done then s
      else if force || !s.runBusy r && !r.entries.any fun e => e.st == .running && e.left == 0 then s.cutEnd r
      else s
    | _, _ => s) s

/-! ## The other commands -/

/-- A command ends with ABORTED_RESET. -/
def State.abort (s : State) (d : Nat) (c : Cmd) (result : Nat) : State := s.finish d c .abortedReset 0 result

/-- R322: SCRUB, REBUILD and TINKER write their summary with bit 16 set; one whose own checks were not made yet and fail writes
nothing but its record (R125). -/
def State.cutJob (s : State) (d : Nat) (c : Cmd) (o : Op) : State :=
  let checks := if o = .scrub then scrubChecks s d c else if o = .rebuild then rebuildChecks s d c else tinkerChecks s d c
  if c.phase == .started && (firstFail checks).isSome then s.abort d c 0
  else
    let j := s.job d c.pos
    let a := if o = .scrub then c.arg 3 0 44 else if o = .tinker ∧ c.arg 1 8 4 = 8 then c.arg 4 0 44 + c.arg 3 0 48 else c.arg 4 0 44
    let s := if o = .rebuild then s.put F.CE_STATE_REBUILDING c.channel 0 else s
    let w := s.summary d a .abortedReset o true [j.done, j.corrected, j.bad, j.odd, j.skipped, j.first.getD 0]
    (w.2.endJob d c.pos).abort d c (if o = .rebuild then j.rows else j.corrected)

/-- R322: a bucket keeps its state; its armed or sweeping close is over. -/
def State.cutClose (s : State) (d : Nat) (c : Cmd) : State :=
  let s := match s.draws.buckets.find? fun b => b.closer == some (d, c.pos) with
    | some b => s.setBucket { b with closer := none, sweeping := false }
    | none => s
  s.abort d c 0

/-- R322: the gate of a LAUNCH_AT opens with nothing behind it. -/
def State.cutLaunch (s : State) (d : Nat) (c : Cmd) : State :=
  let t := match (s.drawer d).launch with
    | some l => l.opened.getD s.gtc
    | none => s.gtc
  (s.setDrawer d { s.drawer d with launch := none }).abort d c t

/-- R322: a BARRIER withdraws.  No release GTC exists: RESULT is open. -/
def State.cutBarrier (s : State) (d : Nat) (c : Cmd) : State :=
  match (s.drawer d).barrier with
  | some b =>
    let w := s.draw
    (w.2.sendSync syncWithdraw (w.2.barPayload b)).barrierDone d b .abortedReset 0 w.1.toNat
  | none => s.abort d c 0

/-- R322: the granules of a REGION_SET with INIT that waits keep their class and owner. -/
def State.cutRegion (s : State) (d : Nat) (c : Cmd) : State :=
  ((s.setBusy (granList (c.arg 1 0 10) (c.arg 1 0 10 + c.arg 1 10 10)) 0).abort d c 0).settle

/-- R322: the channel of a CHANNEL_ADMIT stays retired: what waited for it is answered (R204). -/
def State.cutAdmit (s : State) (d : Nat) (c : Cmd) : State :=
  if (s.chan c.channel).admitBy = some (d, c.pos) then ((s.admitCut c.channel).abort d c 0).moveOn c.channel
  else s.abort d c 0

/-- Does a run that has not ended use a kernel slot? -/
def State.runsOn (s : State) (k : Nat) : Bool := s.anv.runs.any fun r => r.slot == k && match s.cmd r.drawer r.pos with
  | some c => c.phase != .done
  | none => false

/-- R322: the slot of a LOAD_KERNEL is left empty, once no cut run needs its kernel any more. -/
def State.cutLoad (s : State) (d : Nat) (c : Cmd) : State :=
  let k := c.arg 1 44 4
  if s.runsOn k then s else ((s.setKernel k none).setReg .AV_KSLOT k 0).abort d c 0

/-- The opcodes that Table 13-7 cuts, in every phase before their end. -/
def cutOps : List Op :=
  [.update, .emit, .copy, .fill, .planish, .sample, .scrub, .rebuild, .tinker, .bucketClose, .launchAt, .barrier,
   .channelAdmit, .loadKernel]

/-- Does Table 13-7 cut a command, as it stands? -/
def State.cuts (s : State) (c : Cmd) : Bool :=
  match Op.ofCode c.opcode with
  | some .recallAct => c.phase == .running || decide (s.gtc ≤ (c.w 3).toNat) && !c.argBit 1 50
  | some .regionSet => c.argBit 1 28
  | some o => cutOps.contains o
  | none => false

/-- R322: cut one started command; a command that is not cut and was armed goes on by itself. -/
def State.cutCmd (s : State) (d : Nat) (c : Cmd) : State :=
  if c.phase == .done then s
  else if !s.cuts c then (if c.phase = .armed then s.setCmd d { c with phase := .checked } else s)
  else match Op.ofCode c.opcode with
    | some .update | some .emit => match s.runOf d c.pos with
      | some r => s.cutRun r
      | none => s.abort d c 0
    | some .scrub => s.cutJob d c .scrub
    | some .rebuild => s.cutJob d c .rebuild
    | some .tinker => s.cutJob d c .tinker
    | some .bucketClose => s.cutClose d c
    | some .launchAt => s.cutLaunch d c
    | some .barrier => s.cutBarrier d c
    | some .regionSet => s.cutRegion d c
    | some .channelAdmit => s.cutAdmit d c
    | some .loadKernel => s.cutLoad d c
    | _ => s.abort d c 0

/-- Is a command, which Table 13-7 lets complete, held up by a channel out of service? -/
def State.heldUp (s : State) (d : Nat) (c : Cmd) : Bool :=
  s.someOut && match Op.ofCode c.opcode with
    | some .channelRetire => (retireSet c).any s.recovering
    | some .regionSet =>
      let lo := c.arg 1 0 10
      let len := c.arg 1 10 10
      s.earlierRuns d c true || s.dirtyWaits (within (lo * gib) (len * gib)) ||
        (granList lo (lo + len)).any fun g => s.granClass g != c.arg 1 20 2
    | some .fence => s.earlierRuns d c (c.argBit 1 0)
    | some .query => s.rangeHeld (c.arg 3 0 44) 64
    | some .recallAct => (s.chest d).live.any fun e => e.addr == c.arg 1 0 44 && !s.rangesFree [(e.addr, e.size)]
    | _ => false

/-- Drawers with started commands. -/
def State.busyDrawers (s : State) : List Nat := (List.range 64).filter fun d => !(s.drawer d).cmds.isEmpty

/-- R322: cut every started command. -/
def State.cutAll (s : State) : State :=
  s.busyDrawers.foldl (fun s d => (s.drawer d).cmds.foldl (fun s c => match s.cmd d c.pos with
    | some c => s.cutCmd d c
    | none => s) s) s

end Sys2Proof.Machine
end

