-- ==== Sys2Proof/Machine/Ports.lean ====
section
/-!
DEFINITION. The commands of the ports and of the management port (07): requests, responses, credits, block writes,
the recovery of a port, and MGT packets.
-/

namespace Sys2Proof.Machine

/-! ## Requests (R172 to R176) -/

/-- An accepted request takes its place in the order of acceptance and is served, queued or held (R176, R188). -/
def State.admitReq (s : State) (p : Nat) (k : ReqKind) (r : PortReq) : State :=
  let q : Req := ⟨p, s.ports.nextSeq, k, r, true, false⟩
  let s := { s with ports := { s.ports with nextSeq := s.ports.nextSeq + 1 } }
  if k = .wrFinal then s.holdReq q .final
  else match s.serve q with
    | .done s => s
    | .hold w => s.holdReq q w

/-- R173, R331: an RD of a Drawer page or of CSR space. -/
def State.readWindow (s : State) (p : Nat) (h : ReqHdr) : State :=
  if windowOf h.a == .drawer then
    let d := pageOf h.a
    let ws := if h.a % 65536 = 0 then [0, 0, s.view .DR_STAT d, s.view .DR_DB d, 0, 0, 0, 0] else []
    s.respond p h .ok false [mkSec (ofWords ws)]
  else
    let g := s.csrGroup (h.a % 2 ^ 24)
    g.2.respond p h .ok false [mkSec (ofWords g.1)]

/-- R331: a masked WR to CSR space. -/
def State.writeCsr (s : State) (p : Nat) (r : PortReq) : State :=
  let h := r.hdr
  let back (s : State) (st : Status) : State := (s.respond p h st false []).returnCredit p h.p h.tc.toNat 0 1
  let x := r.sectors.getD 0 ⟨0, 0, true⟩
  let m := r.sectors.getD 1 ⟨0, 0, true⟩
  let mask := BitVec.ofNat 64 m.data.toNat
  if x.fault || m.fault then back s .dataFault
  else if !maskWhole mask || m.data.toNat / 2 ^ 64 != 0 then back s .badArg
  else
    let w := s.csrMasked (h.a % 2 ^ 24) x.data mask
    back w.2 w.1

/-- R275: the data of an RNDRD. -/
def State.randomSectors (s : State) (h : ReqHdr) : List Sec :=
  let n := h.a / 2 ^ 34 % 64
  let w := 4 * 2 ^ s.fld F.CR_RCTX1_WCODE n
  let i0 := s.fld F.CR_RCTX1_INDEX_BASE n + 8 * (h.a % 2 ^ 34) / w
  let stream := BitVec.ofNat 32 (s.fld F.CR_RCTX0_STREAM n)
  let draw := BitVec.ofNat 32 (s.fld F.CR_RCTX0_DRAW n)
  let per := 512 / w
  (List.range h.len).map fun k =>
    mkSec (BitVec.ofNat 512 (((List.range per).map fun j =>
      Gen.bits (s.seed n) w (i0 + per * k + j) stream draw * 2 ^ (w * j)).foldl (· + ·) 0))

/-- R115: a DOOR at its Drawer. -/
def State.door (s : State) (p : Nat) (r : PortReq) : State :=
  let h := r.hdr
  let d := pageOf h.a
  let x := r.sectors.getD 0 ⟨0, 0, true⟩
  let back (a : Status × State) : State := (a.2.respond p h a.1 false []).returnCredit p h.p h.tc.toNat 0 1
  if x.fault then back (.dataFault, s)
  else if 2 ^ 17 ≤ x.data.toNat then back (.badArg, s.doorErr d)
  else if h.a % 65536 = 0 then back (s.doorSq d x.data.toNat)
  else back (s.doorCq d x.data.toNat)

/-- What a request that passed R172 steps 1 to 9 does. -/
def State.act (s : State) (p : Nat) (t : ReqType) (r : PortReq) : State :=
  let h := r.hdr
  match t with
  | .rd => if windowOf h.a == .memory then s.admitReq p .rd r else s.readWindow p h
  | .wr => if windowOf h.a == .csr then s.writeCsr p r else s.admitReq p .wr r
  | .wrFinal => s.admitReq p .wrFinal r
  | .acc => s.admitReq p .acc r
  | .atom => s.admitReq p .atom r
  | .rndrd => (s.charge h.part.toNat 12 (4 * h.len)).respond p h .ok false (s.randomSectors h)
  | .door => s.door p r

/-- The kind under which a request to memory waits. -/
def ReqType.kind : ReqType → ReqKind
  | .rd | .rndrd | .door => .rd | .wr => .wr | .wrFinal => .wrFinal | .acc => .acc | .atom => .atom

/-- R172: a request, step by step. -/
def State.request (s : State) (p : Nat) (t : ReqType) (r : PortReq) : State :=
  let h := r.hdr
  let n := carried t h
  if 32 ≤ p then s
  else match s.ingress p t.code h n with
    | (false, s) => s
    | (true, s) =>
      if !s.partOk p h then s.refuse p t h .notPermitted false n
      else if !s.formOk t h then
        (s.when (countsDoorErr t h) (·.doorErr (pageOf h.a))).refuse p t h .badArg false n
      else
        let q : Req := ⟨p, s.ports.nextSeq, t.kind, r, true, false⟩
        if windowOf h.a == .memory && s.rangeStops q == some .region then
          { s with ports := { s.ports with nextSeq := s.ports.nextSeq + 1 } }.holdReq q .region
        else match s.lateCheck t r with
          | some x => s.refuseLate p t r x n
          | none => s.act p t r

/-- RD (R173). -/
def execRd (p : Nat) (r : PortReq) (s : State) : Host.Outcome State Fault Refusal := .next (s.request p .rd r)
/-- WR (R164, R173). -/
def execWr (p : Nat) (r : PortReq) (s : State) : Host.Outcome State Fault Refusal := .next (s.request p .wr r)
/-- WR_FINAL (R176): it waits until it lands. -/
def execWrFinal (p : Nat) (r : PortReq) (s : State) : Host.Outcome State Fault Refusal :=
  .next (s.request p .wrFinal r)
/-- ACC (R85 to R87). -/
def execAcc (p : Nat) (r : PortReq) (s : State) : Host.Outcome State Fault Refusal := .next (s.request p .acc r)
/-- ATOM (R174). -/
def execAtom (p : Nat) (r : PortReq) (s : State) : Host.Outcome State Fault Refusal := .next (s.request p .atom r)
/-- RNDRD (R275). -/
def execRndrd (p : Nat) (r : PortReq) (s : State) : Host.Outcome State Fault Refusal :=
  .next (s.request p .rndrd r)
/-- DOOR (R115). -/
def execDoor (p : Nat) (r : PortReq) (s : State) : Host.Outcome State Fault Refusal := .next (s.request p .door r)

/-! ## Held requests -/

/-- Is some earlier write of a WR_FINAL's port and group still to land (R176)? -/
def State.groupWaits (s : State) (q : Req) : Bool :=
  let mine := fun (x : Req) => x.port == q.port && x.r.hdr.og == q.r.hdr.og && decide (x.seq < q.seq) && x.kind != .rd
  s.ports.waits.any (fun w => mine w.req) ||
    (Tab.keys s.mem.chans).any fun n => (s.chan n).retry.any fun d => mine d.req

/-- Try one held request: served, or held for another reason. -/
def State.tryHeld (s : State) (w : Wait) : State :=
  let rest := s.ports.waits.filter fun x => x.req.seq != w.req.seq
  match (s.setWaits rest).serve w.req with
  | .done s => s.settle
  | .hold why => s.setWaits (s.ports.waits.map fun x => if x.req.seq = w.req.seq then { x with why := why } else x)

/-- WR_FINAL_LAND (R176): the data of a WR_FINAL land once every earlier write of its group has. -/
def execWrFinalLand (p : Nat) (tag : BitVec 10) (s : State) : Host.Outcome State Fault Refusal :=
  match s.ports.waits.find? fun w => w.why == .final && w.req.port == p && w.req.r.hdr.tag == tag with
  | some w => .next (if s.groupWaits w.req then s else s.tryHeld w)
  | none => .next s

/-- HELD_REQUEST_RELEASE (R223): a request held for a clean way proceeds, in arrival order at its set. -/
def execHeldRequestRelease (p : Nat) (tag : BitVec 10) (s : State) : Host.Outcome State Fault Refusal :=
  match s.ports.waits.find? fun w => w.why == .cleanWay && w.req.port == p && w.req.r.hdr.tag == tag with
  | some w => .next (if s.wayTaken w.req then s else s.tryHeld w)
  | none => .next s

/-! ## Block writes (R177) -/

/-- Does a status leave the causing command's record alone (R177)? -/
def plainStatus (st : Status) : Bool := st == .ok || st == .okCorrected || st == .okClamped

/-- The first bad status of a command's block writes. -/
def State.portStatus (s : State) (d pos : Nat) (st : Status) : State :=
  if plainStatus st then s
  else match s.cmd d pos with
    | some c => s.setCmd d { c with portStatus := some (c.portStatus.getD st) }
    | none => s

/-- A header in FAULT or while headers are dropped: none is taken (R182, R321). -/
def State.dropHeader (s : State) (p : Nat) : Option State :=
  if !s.life.porstN then some s
  else if s.flag F.PT_STAT_FAULT p then some (s.protoErr p)
  else none

/-- R182: an inbound header that no request or block tag answers to. -/
def State.badType (s : State) (p : Nat) : State := (s.protoErr p).portFlag F.PT_FLAGS_BAD_TYPE p

/-- R172 step 1: a header whose HCRC fails. -/
def State.badHcrc (s : State) (p : Nat) : State :=
  ((s.protoErr p).portFlag F.PT_FLAGS_HCRC_ERR p).put F.PT_STAT_FAULT p 1

/-- RSP (R177): the partner answers a block write. -/
def execRsp (p : Nat) (h : RspHdr) (s : State) : Host.Outcome State Fault Refusal :=
  if 32 ≤ p then .next s
  else match s.dropHeader p with
    | some s => .next s
    | none =>
      if !h.good then .next (s.badHcrc p)
      else match Tab.get (fun _ => none) (s.port p).btags h.tag.toNat with
        | some b =>
          if b.abandoned then .next (s.badType p)
          else
            let s := s.setPort p { s.port p with
              btags := Tab.set (fun _ => none) (s.port p).btags h.tag.toNat none }
            .next (s.portStatus b.drawer b.pos ((Status.ofCode h.status.toNat).getD .internal))
        | none => .next (s.badType p)

/-- RSP_DATA and undefined types (R172 steps 1 to 4, R182): `code` is the TYPE.  An RSP_DATA carries the sectors that its LEN_M1
(Table 7-4) counts, which stands where a request has bits [13:9] of its address; it is dropped and its credits return. -/
def execRspData (p : Nat) (code : BitVec 4) (r : PortReq) (s : State) : Host.Outcome State Fault Refusal :=
  let h := r.hdr
  if 32 ≤ p ∨ (1 ≤ code.toNat ∧ code.toNat ≤ 8) then .next s
  else if code = 9 then
    let n := h.addr.toNat / 2 ^ 9 % 32 + 1
    match s.entry p code h n with
    | (false, s) => .next s
    | (true, s) => .next ((s.badType p).returnCredit p h.p h.tc.toNat 1 n)
  else match s.ingress p code h 0 with
    | (false, s) => .next s
    | (true, s) => .next (s.refuse p .rd h .badOpcode false 0)

/-- CRD (R177): the partner grants the block credits. -/
def execCrd (p : Nat) (hdr : BitVec 10) (sect : BitVec 12) (s : State) : Host.Outcome State Fault Refusal :=
  if 32 ≤ p ∨ !s.life.porstN then .next s
  else .next ((s.countSat F.PT_STAT_OUT_HDR p hdr.toNat).countSat F.PT_STAT_OUT_SECT p sect.toNat)

/-- The lowest block tag that is free. -/
def Port.freeTag (x : Port) : Option Nat := (List.range 64).find? fun k => (Tab.get (fun _ => none) x.btags k).isNone

/-- R126: RESULT of a RECALL_ACT is the GTC of its first write, which goes to DEST. -/
def State.recallSent (s : State) (d pos a : Nat) : State :=
  match s.cmd d pos with
  | some c => if c.opcode = Op.recallAct.code ∧ c.arg 2 0 44 = a then s.setCmd d { c with result := s.gtc } else s
  | none => s

/-- BLOCK_WRITE_SEND (R177, R168): the next block write of a port goes out when it has credit and a tag. -/
def execBlockWriteSend (p : Nat) (s : State) : Host.Outcome State Fault Refusal :=
  if 32 ≤ p ∨ s.flag F.PT_STAT_FAULT p ∨ s.life.drain.isSome then .next s
  else match (s.port p).outq, (s.port p).freeTag with
    | w :: rest, some k =>
      let n := w.secs.length
      if s.fld F.PT_STAT_OUT_HDR p < 1 ∨ s.fld F.PT_STAT_OUT_SECT p < n then .next s
      else
        let s := s.when (w.secs.any fun x => !x.good) (·.portFlag F.PT_FLAGS_HM_OUT p)
        let s := (s.put F.PT_STAT_OUT_HDR p (s.fld F.PT_STAT_OUT_HDR p - 1)).put F.PT_STAT_OUT_SECT p
          (s.fld F.PT_STAT_OUT_SECT p - n)
        let b : BlockTag := ⟨w.drawer, w.pos, w.final, s.power.cycles, false⟩
        let s := s.setPort p { s.port p with
          outq := rest, btags := Tab.set (fun _ => none) (s.port p).btags k (some b) }
        .next (((s.emit (.blockWrite p k (w.header k n) { w with secs := w.secs.map egress })).traffic w.part n false).recallSent
          w.drawer w.pos w.addr |>.firstAction w.drawer w.pos)
    | _, _ => .next s

/-- Abandon a block tag (R177). -/
def State.abandon (s : State) (p k : Nat) (b : BlockTag) : State :=
  let s := s.setPort p { s.port p with
    btags := Tab.set (fun _ => none) (s.port p).btags k (some { b with abandoned := true }) }
  (s.portFlag F.PT_FLAGS_RSP_TMO p).portStatus b.drawer b.pos .degraded

/-- RSP_TMO (R177): a block write without an RSP is abandoned. -/
def execRspTmo (p tag : Nat) (s : State) : Host.Outcome State Fault Refusal :=
  if 32 ≤ p then .next s
  else match Tab.get (fun _ => none) (s.port p).btags tag with
    | some b =>
      .next (if !b.abandoned ∧ b.sent + 2 ^ s.fld F.PT_CTL_RSP_TMO_LOG2 p ≤ s.power.cycles
        then s.abandon p tag b else s)
    | none => .next s

/-! ## Port state -/

/-- STARVE (R181): the levels of the partner's STARVE lines; PT_STARVEp counts their CKCORE cycles. -/
def execStarve (p : Nat) (tc0 tc1 : Bool) (s : State) : Host.Outcome State Fault Refusal :=
  if 32 ≤ p then .next s else .next (s.setPort p { s.port p with starve0 := tc0, starve1 := tc1 })

/-- REGULATOR_RESUME (R224): the held credit returns of a partition are released. -/
def execRegulatorResume (part : Nat) (s : State) : Host.Outcome State Fault Refusal :=
  if 64 ≤ part ∨ s.dry part then .next s
  else .next ((List.range 32).foldl (fun s p =>
    if (s.port p).returns.isEmpty then s else s.releaseReturns p) s)

/-- PORT_RESET (R182), by a write of PT_CTLp. -/
def execPortReset (p : Nat) (s : State) : Host.Outcome State Fault Refusal :=
  if 32 ≤ p ∨ !s.csrOpen then .next s else .next (s.portReset p)

/-- PORT_RESET_DONE (R182): every partner tag is answered. -/
def execPortResetDone (p : Nat) (s : State) : Host.Outcome State Fault Refusal :=
  if 32 ≤ p ∨ !s.flag F.PT_STAT_RESETTING p ∨ (s.port p).busyTags ≠ 0 then .next s
  else
    let s := (s.port p).btags.foldl (fun s e => match e.2 with
      | some b => if b.abandoned then s else s.abandon p e.1 b
      | none => s) s
    let s := s.setPort p { s.port p with btags := [] }
    let s := ((s.put F.PT_STAT_RESETTING p 0).put F.PT_STAT_FAULT p 0).grantPort p
    .next (s.raise .port)

/-! ## MGT (R184 to R186) -/

/-- R185: the CRC over words 0 to 3 of a packet. -/
def mgtCrc (kind : BitVec 4) (m : MgtPkt) : BitVec 16 :=
  let w0 : BitVec 32 := m.w0hi ++ m.tag ++ m.bid ++ kind
  let w1 : BitVec 32 := m.w1hi ++ m.offset
  crc16 0xFFFF (bytesOf 16 (m.dataHi ++ m.dataLo ++ w1 ++ w0))

/-- Does a packet pass its CRC? -/
def mgtGood (kind : BitVec 4) (m : MgtPkt) : Bool := mgtCrc kind m == m.w4.setWidth 16

/-- The packet with its CRC generated. -/
def mgtSeal (kind : BitVec 4) (m : MgtPkt) : MgtPkt := { m with w4 := (mgtCrc kind m).setWidth 32 }

/-- R315: does MGT answer at all?  Not before the Smiths have booted. -/
def State.mgtUp (s : State) : Bool := s.life.porstN && s.lc != lcPll && s.lc != lcBoot

/-- Is the block the last of its chain? -/
def State.lastBlock (s : State) : Bool := !s.life.dnPresent

/-- A dropped packet counts (R185). -/
def State.mgtDrop (s : State) : State := s.countSat F.PT_MGT_STAT_CRC_DROPS 0 1

/-- Answer a packet: the BID is this block's, and the data word is `v`. -/
def State.mgtAnswer (s : State) (m : MgtPkt) (st : Status) (v : Word) : State :=
  let a : MgtPkt := { m with
    bid := BitVec.ofNat 6 (s.fld F.PT_MGT_ID_BLOCK_ID 0)
    w0hi := BitVec.ofNat 14 st.code
    dataLo := v.setWidth 32
    dataHi := (v >>> 32).setWidth 32 }
  s.emit (.mgtUp 9 (mgtSeal 9 a))

/-- Answer with a status only: the data words are open (log 32). -/
def State.mgtStatus (s : State) (m : MgtPkt) (st : Status) : State := s.draw.2.mgtAnswer m st s.draw.1

/-- R186: route a READ, a WRITE or a malformed packet: for this block, onward, or refused by the last one. -/
def State.mgtRoute (s : State) (kind : BitVec 4) (m : MgtPkt) (own : State → State) : State :=
  if !s.mgtUp then s
  else if !mgtGood kind m then s.mgtDrop
  else if s.flag F.PT_MGT_ID_ASSIGNED 0 && s.fld F.PT_MGT_ID_BLOCK_ID 0 == m.bid.toNat then own s
  else if s.lastBlock then (s.countSat F.PT_MGT_STAT_BAD_BID 0 1).mgtStatus m .badArg
  else s.emit (.mgtDown kind (mgtSeal kind m))

/-- R19, R315: may a register be reached now? -/
def State.mgtMay (s : State) (off : Nat) : Bool := s.csrOpen || off == Reg.LC_STAT.base

/-- R186, R329: is an offset no place of CSR space: not a multiple of 8, or beyond its end? -/
def badOffset (o : BitVec 24) : Bool := o.toNat % 8 != 0 || decide (0x400000 ≤ o.toNat)

/-- READ (R186, R329); `kind` is 1, or an undefined KIND, which is routed in the same way. -/
def execRead (kind : BitVec 4) (m : MgtPkt) (s : State) : Host.Outcome State Fault Refusal :=
  if kind = 2 ∨ kind = 3 then .next s
  else .next (s.mgtRoute kind m fun s =>
    if kind ≠ 1 ∨ badOffset m.offset then s.mgtStatus m .badArg
    else if !s.mgtMay m.offset.toNat then s.mgtStatus m .notPermitted
    else
      let r := s.csrRead m.offset.toNat
      r.2.mgtAnswer m .ok r.1)

/-- WRITE (R186, R329). -/
def execWrite (m : MgtPkt) (s : State) : Host.Outcome State Fault Refusal :=
  .next (s.mgtRoute 2 m fun s =>
    if badOffset m.offset then s.mgtStatus m .badArg
    else if !s.mgtMay m.offset.toNat then s.mgtStatus m .notPermitted
    else
      let r := s.csrWrite m.offset.toNat (m.dataHi ++ m.dataLo)
      r.2.mgtStatus m r.1)

/-- ENUM (R186).  A block that loses its ID shows 0 in BLOCK_ID, its reset value, and answers under it (DESIGN CHOICE, log 56). -/
def execEnum (m : MgtPkt) (s : State) : Host.Outcome State Fault Refusal :=
  if !s.mgtUp then .next s
  else if !mgtGood 3 m then .next s.mgtDrop
  else
    let v := m.dataLo.toNat
    let s := if v < 64 then (s.put F.PT_MGT_ID_BLOCK_ID 0 v).put F.PT_MGT_ID_ASSIGNED 0 1
      else (s.put F.PT_MGT_ID_BLOCK_ID 0 0).put F.PT_MGT_ID_ASSIGNED 0 0
    if s.lastBlock then
      .next (s.mgtAnswer m .ok (if 64 < v + 1 then BitVec.ofNat 64 (64 + 2 ^ 40) else BitVec.ofNat 64 (v + 1)))
    else .next (s.emit (.mgtDown 3 (mgtSeal 3 { m with dataLo := m.dataLo + 1 })))

/-- MGT_RESPONSE (R184): a response of the downstream block goes upstream. -/
def execMgtResponse (m : MgtPkt) (s : State) : Host.Outcome State Fault Refusal :=
  if !s.mgtUp then .next s
  else .next (if mgtGood 9 m then s.emit (.mgtUp 9 (mgtSeal 9 m)) else s.mgtDrop)

end Sys2Proof.Machine
end

