-- ==== Sys2Proof/Machine/PlMath.lean ====
section
/-!
DEFINITION. The arithmetic of the near-bank units, and PLANISH and SAMPLE as their arguments give them (R141 to R145, R152).
-/

namespace Sys2Proof.Machine

open Sys2Proof.Num

/-! ## Rows and segments (R141) -/

/-- Bytes of a segment. -/
def segBytes : Nat := 2048

/-- Bytes of an element in memory, for the formats of R142. -/
def cellBytes (f : Fmt) : Nat := if f.lane = 32 then 4 else if f.lane = 16 then 2 else 1

/-- Elements of a segment. -/
def segElems (f : Fmt) : Nat := segBytes / cellBytes f

/-- Segments of a row, and its pitch. -/
def rowSegs (f : Fmt) (n : Nat) : Nat := (n + segElems f - 1) / segElems f
def rowPitch (f : Fmt) (n : Nat) : Nat := rowSegs f n * segBytes

/-- A row-shaped destination row: the elements, and zeros to the end of its last segment. -/
def rowImage (f : Fmt) (vs : List Val) : List Byte :=
  let body := vs.flatMap fun v => bytesOf (cellBytes f) (BitVec.ofNat 32 (toLane f (encode f false .nearest v).code))
  body ++ List.replicate (rowPitch f vs.length - body.length) 0

/-! ## Arithmetic (R44, R143 to R145) -/

/-- Round an exact operation to a format, Fault propagating, overflow saturating. -/
def op1 (f : Fmt) (g : Dy → Dy) (a : Val) : Val := decode f (lift1 f false g a).code
def op2 (f : Fmt) (g : Dy → Dy → Dy) (a b : Val) : Val := decode f (lift2 f false g a b).code
def add24 : Val → Val → Val := op2 .df24 Dy.add
def mul24 : Val → Val → Val := op2 .df24 Dy.mul
def sub24 : Val → Val → Val := op2 .df24 Dy.sub
def add32 : Val → Val → Val := op2 .df32 Dy.add
def mul32 : Val → Val → Val := op2 .df32 Dy.mul
def sub32 : Val → Val → Val := op2 .df32 Dy.sub

/-- A quotient rounded once. -/
def divIn (f : Fmt) (a b : Val) : Val := match a, b with
  | .dy x, .dy y => decode f (divRound f false x y).code
  | _, _ => .fault

/-- A count as a DF32 value. -/
def natVal (n : Nat) : Val := op1 .df32 id (.dy ⟨n, 0⟩)

/-- A row cut into segments of `w` elements. -/
def segments {α : Type} (w : Nat) (l : List α) : List (List α) :=
  (List.range ((l.length + w - 1) / Nat.max 1 w)).map fun j => (l.drop (j * w)).take w

/-- R144: a sum in ascending order in DF24. -/
def sum24 (vs : List Val) : Val := vs.foldl add24 (.dy .zero)

/-- R144: a segment's sum of squares; a row's, in DF32 over its segments. -/
def segSsq (vs : List Val) : Val := sum24 (vs.map fun v => mul24 v v)
def rowSsq (w : Nat) (vs : List Val) : Val := match (segments w vs).map segSsq with
  | [] => .dy .zero
  | x :: xs => xs.foldl add32 x

/-- The running statistics of R144. -/
structure Stats where
  n : Nat
  mean : Val
  m2 : Val
  deriving DecidableEq, Repr

/-- A segment's statistics. -/
def segStats (vs : List Val) : Stats :=
  let mean := divIn .df24 (sum24 vs) (.dy ⟨vs.length, 0⟩)
  ⟨vs.length, mean, sum24 (vs.map fun v => let d := sub24 v mean; mul24 d d)⟩

/-- R144: the pairwise update, each operation rounded in DF32. -/
def mergeStats (a b : Stats) : Stats :=
  let delta := sub32 b.mean a.mean
  let n := a.n + b.n
  let mean := add32 a.mean (mul32 delta (divIn .df32 (natVal b.n) (natVal n)))
  let t := divIn .df32 (mul32 (natVal a.n) (natVal b.n)) (natVal n)
  ⟨n, mean, add32 (add32 a.m2 b.m2) (mul32 (mul32 delta delta) t)⟩

def rowStats (w : Nat) (vs : List Val) : Stats := match (segments w vs).map segStats with
  | [] => ⟨0, .fault, .fault⟩
  | x :: xs => xs.foldl mergeStats x

/-- Population variance. -/
def Stats.variance (x : Stats) : Val := divIn .df32 x.m2 (natVal x.n)

/-- RSQ of the block, bounded by 1 ulp (R145). -/
def rsqVal (v : Val) : Val := decode .df32 (Num.rsq (Config.rsq (canon32 v)).toNat false v).code

/-- R145: the second pass over one element. -/
def normElem (c s : Val) (x g : Val) : Val := mul24 (mul24 (sub24 x c) s) g

/-! ## Weights (R152) -/

/-- The largest non-Fault value. -/
def largest (vs : List Val) : Dy := match vs.filterMap fun v => (match v with
    | .dy x => some x
    | _ => none) with
  | [] => .zero
  | x :: xs => xs.foldl maxDy x

/-- The DF32 value nearest to log2(e). -/
def log2e : Val := decode .df32 0x3FB8AA3B

/-- `l` of R152. -/
def tempScale (temp : Val) : Val := op1 .df24 id (divIn .df32 log2e temp)

/-- A DF24 value's own code. -/
def canon24 (v : Val) : BitVec 24 := BitVec.ofNat 24 (encode .df24 false .nearest v).code

/-- R152: the weight q of an element. -/
def weight (m : Dy) (l x : Val) : Nat :=
  let z := mul24 (sub24 x (.dy m)) l
  match z with
  | .dy d =>
    if d.isZero then 2 ^ 40
    else match decode .df24 (exp2DF .df24 (Config.planisherExp2 (canon24 z)).toNat false z).code with
      | .dy w => Nat.min (2 ^ 40) ((w.scaleBy 40).toIntRne.toNat)
      | _ => 0
  | _ => 0

/-- ln 2 lies between this many units of 2^-64 and one more. -/
def ln2Units : Int := 12786308645202655659

/-- R152: m × ln 2 × l + ln(S × 2^-40), as bounds: `ln2Units` times the exact sum of its logarithms to base 2. -/
def lseIval (m l : Dy) (sum : Nat) : Dy × Dy :=
  let t := Dy.sub (Dy.mul m l) ⟨40, 0⟩
  let k := log2Fix ⟨sum, 0⟩
  let lo := Dy.add t ⟨k, -60⟩
  let hi := Dy.add t ⟨k + 1, -60⟩
  (Dy.mul lo ⟨ln2Units + (if lo.isNeg then 1 else 0), -64⟩, Dy.mul hi ⟨ln2Units + (if hi.isNeg then 0 else 1), -64⟩)

/-- R152: ROW_LSE.  R152 gives its value and DF32, and no bound for the logarithm: the model leaves open which DF32 value
within 1 ulp it is (log 12). -/
def rowLse (vs : List Val) : Val :=
  let m := largest vs
  let l := tempScale (.dy ⟨1, 0⟩)
  let sum := (vs.map (weight m l)).foldl (· + ·) 0
  match l with
  | .dy d =>
    let i := lseIval m d sum
    decode .df32 (pick .df32 (Config.rowLse (canon32 (.dy m)) (canon24 l) sum).toNat (nearIval .df32 1 i.1 i.2)
      (fin .df32 false i.1)).code
  | _ => .fault

/-! ## Operations (Table 6-4) -/

inductive PlOp
  | gatherSum | add | mul | fma | scale | cvt | rowStats | rowSsq | normCentred | normRms | rowMax | rowLse
  deriving DecidableEq, Repr

def PlOp.ofCode : Nat → Option PlOp
  | 0x01 => some .gatherSum | 0x10 => some .add | 0x11 => some .mul | 0x12 => some .fma | 0x13 => some .scale
  | 0x14 => some .cvt | 0x20 => some .rowStats | 0x21 => some .rowSsq | 0x22 => some .normCentred
  | 0x23 => some .normRms | 0x30 => some .rowMax | 0x31 => some .rowLse
  | _ => none

def PlOp.code : PlOp → Nat
  | .gatherSum => 0x01 | .add => 0x10 | .mul => 0x11 | .fma => 0x12 | .scale => 0x13 | .cvt => 0x14 | .rowStats => 0x20
  | .rowSsq => 0x21 | .normCentred => 0x22 | .normRms => 0x23 | .rowMax => 0x30 | .rowLse => 0x31

/-- Bytes of a row's result that is not row-shaped; 0 for the others. -/
def PlOp.small : PlOp → Nat
  | .rowStats => 8
  | .rowSsq | .rowMax | .rowLse => 4
  | _ => 0

/-- Does an operation read B element by element, or as the gain row? -/
def PlOp.pairs : PlOp → Bool
  | .add | .mul | .fma => true
  | _ => false
def PlOp.gains : PlOp → Bool
  | .normCentred | .normRms => true
  | _ => false

/-- A PLANISH as its arguments give it. -/
structure Plan where
  op : PlOp
  fa : Fmt
  fb : Fmt
  fd : Fmt
  nrows : Nat
  a : Nat
  b : Nat
  d : Nat
  idx : Nat
  elems : Nat
  scalar : BitVec 32
  deriving DecidableEq, Repr

/-- R142: the formats a PLANISH takes. -/
def plFormat (c : Nat) : Option Fmt := if [0, 1, 2, 3, 5, 6].contains c then Fmt.ofCode c else none

/-- The codes of those formats (Table 3-4). -/
def plCode : Fmt → Nat
  | .df24 => 1 | .df16w => 2 | .df16p => 3 | .df8w => 5 | .df8p => 6 | _ => 0

/-- The plan of a command; none where an operation or a format is not defined, or an unused base is not 0. -/
def planOf (c : Cmd) : Option Plan :=
  match PlOp.ofCode (c.arg 1 0 8), plFormat (c.arg 1 8 4) with
  | some op, some fa =>
    let b := c.arg 3 0 44
    let usesB := op.pairs || op.gains && b != 0
    let fd := plFormat (c.arg 1 16 4)
    match (if usesB then plFormat (c.arg 1 12 4) else some fa), fd with
    | some fb, some fd =>
      if (b != 0 && !op.pairs && !op.gains) || (c.arg 5 0 44 != 0 && op != .gatherSum)
          || (op == .gatherSum && fd != .df32 && fd != .df16w) || (op.small != 0 && fd != .df32) then none
      else some ⟨op, fa, fb, fd, c.arg 1 20 32, c.arg 2 0 44, b, c.arg 4 0 44, c.arg 5 0 44, c.arg 6 0 32,
        BitVec.ofNat 32 (c.arg 6 32 32)⟩
    | _, _ => none
  | _, _ => none

def Plan.pitchA (p : Plan) : Nat := rowPitch p.fa p.elems
def Plan.pitchB (p : Plan) : Nat := rowPitch p.fb p.elems
def Plan.pitchD (p : Plan) : Nat := if p.op.small = 0 then rowPitch p.fd p.elems else p.op.small
def Plan.usesB (p : Plan) : Bool := p.op.pairs || p.op.gains && p.b != 0

/-- The operand ranges, but for a gather's table, and the destination. -/
def Plan.dest (p : Plan) : Nat × Nat := (p.d, p.nrows * p.pitchD)
def Plan.reads (p : Plan) : List (Nat × Nat) :=
  (if p.op = .gatherSum then [] else [(p.a, p.nrows * p.pitchA)])
    ++ (if p.op.pairs then [(p.b, p.nrows * p.pitchB)] else if p.usesB then [(p.b, p.pitchB)] else [])

/-! ## SAMPLE (R152) -/

/-- A SAMPLE as its arguments give it. -/
structure Sampling where
  fmt : Fmt
  logits : Nat
  nrows : Nat
  vocab : Nat
  temp : Val
  topP : Dy
  topK : Nat
  rstream : BitVec 32
  draw : BitVec 32
  row0 : Nat
  tokens : Nat
  deriving DecidableEq, Repr

/-- R126, R152: the arguments, where they are in range. -/
def samplingOf (c : Cmd) : Option Sampling :=
  let f := match c.arg 1 44 4 with
    | 0 => some Fmt.df32
    | 2 => some Fmt.df16w
    | 3 => some Fmt.df16p
    | _ => none
  match f, decode .df32 (c.arg 3 0 32), decode .df32 (c.arg 3 32 32) with
  | some f, .dy t, .dy p =>
    let vocab := c.arg 2 32 32
    if 2 ≤ vocab ∧ vocab ≤ 1048576 ∧ c.arg 4 32 11 ≤ 1024 ∧ Dy.lt .zero t ∧ Dy.lt .zero p ∧ Dy.le p ⟨1, 0⟩ then
      some ⟨f, c.arg 1 0 44, c.arg 2 0 32, vocab, .dy t, p, c.arg 4 32 11, BitVec.ofNat 32 (c.arg 4 0 32),
        BitVec.ofNat 32 (c.arg 5 0 32), c.arg 5 32 32, c.arg 6 0 44⟩
    else none
  | _, _, _ => none

def Sampling.pitch (p : Sampling) : Nat := rowPitch p.fmt p.vocab
def Sampling.range (p : Sampling) : Nat × Nat := (p.logits, p.nrows * p.pitch)
def Sampling.dest (p : Sampling) : Nat × Nat := if p.tokens = 0 then (0, 0) else (p.tokens, 4 * p.nrows)

end Sys2Proof.Machine
end

