-- ==== Sys2Proof/Machine/PlUnits.lean ====
section
/-!
DEFINITION. Planisher mode, the Planisher window and operand accesses: what the channel engine and a stack's units do
at the pins (R137 to R140, R149, R150).
-/

namespace Sys2Proof.Machine

open Sys2Proof.Num

/-! ## Mode (R138, R149, R150) -/

/-- PLANISHER_MODE_ENTRY (R138). -/
def execPlanisherModeEntry (n : Nat) (bgs : BitVec 8) (clear : Bool) (s : State) : Host.Outcome State Fault Refusal :=
  .next (if 256 ≤ n ∨ s.chanState n ≠ 0 ∨ s.stalled then s
    else (List.range 8).foldl (fun s k => if bgs.getLsbD k then s.enterMode n k clear else s) s)

/-- PLANISHER_MODE_EXIT (R138, R149): the bank group's work has ended. -/
def execPlanisherModeExit (n : Nat) (bg : Fin 8) (s : State) : Host.Outcome State Fault Refusal :=
  .next (if (s.inMode n bg.val ∨ (s.chan n).plBack.contains bg.val) ∧ n < 256 then s.leaveMode n bg.val else s)

/-- PLANISHER_PREEMPT (R149). -/
def execPlanisherPreempt (n : Nat) (bg : Fin 8) (s : State) : Host.Outcome State Fault Refusal :=
  .next (if n < 256 then s.preempt n bg.val else s)

/-! ## The window (R139, R140) -/

/-- A window address (Table 6-2): its channel engine, bank group and offset. -/
def windowUnit (addr : BitVec 44) : Option (Nat × Nat × Nat) :=
  let a := addr.toNat
  if a / 2 ^ 40 = 0xC ∧ a / 2 ^ 14 % 2 ^ 15 = 0 then
    some (a / 2 ^ 37 % 8 * 32 + a / 2 ^ 32 % 32, a / 2 ^ 31 % 2 * 4 + a / 2 ^ 29 % 4, a % 2 ^ 14)
  else none

/-- A sector of a unit's buffer: what was written, 0 in a cleared unit, or open contents (log 58). -/
def PUnit.sec (u : PUnit) (t : Tab SectorBits) (i : Nat) : SectorBits :=
  match t.find? fun e => e.1 == i with
  | some e => e.2
  | none =>
    if u.openAt = 0 then 0
    else BitVec.ofNat 512 (ofBytes ((List.range 64).map fun j => Config.openByte (u.openAt * 2 ^ 42 + 64 * i + j)))

/-- The 64 bits of the four ECC lanes in a window transfer's 16 beats, lane 0 of beat 0 first (R140): the Hallmark, then zeros. -/
def eccLanes (d : SectorBits) : BitVec 64 := (hallmark d).setWidth 64

/-- A window transfer that fails its check: the first is tried again, the second ends the work of a running PLANISH or SAMPLE on
the unit (R140). -/
def State.windowFail (s : State) (n u : Nat) : State :=
  let x := s.unit u
  let twice := decide (2 ≤ x.fails + 1)
  let runs := s.anyCmd fun _ c => (c.opcode == Op.planish.code || c.opcode == Op.sample.code) && c.phase != .done
  let s := (s.put F.CE_PL_STAT_WIN_ERR n 1).setUnit u { x with fails := x.fails + 1, lost := x.lost || twice && runs }
  s.when twice (·.put F.CE_PL_STAT_WIN_FAIL n 1)

/-- The contents of a window write: the four control registers in one transfer, with which a pass begins, or 64 B of the payload
buffer. -/
def PUnit.write (x : PUnit) (off : Nat) (d : SectorBits) : PUnit :=
  if off = 0 then
    { x with pctl := sectorWord d 0, param0 := sectorWord d 1, param1 := sectorWord d 2, param2 := sectorWord d 3, fails := 0,
             step := 0, seen := [] }
  else if 0x800 ≤ off ∧ off < 0x1000 then
    { x with payload := Tab.insert x.payload ((off - 0x800) / 64) d, fails := 0 }
  else x

/-- PLANISHER_WINDOW_WRITE (R139, R140): the unit checks the Hallmark and the zeros on the ECC lanes.  A write to a reserved offset
is never issued. -/
def execPlanisherWindowWrite (addr : BitVec 44) (data : SectorBits) (lanes : BitVec 64) (s : State) :
    Host.Outcome State Fault Refusal :=
  match windowUnit addr with
  | some (n, k, off) =>
    .next (if !s.inMode n k || off % 64 != 0 || !(off == 0 || decide (0x800 ≤ off ∧ off < 0x1000)) then s
      else
        let u := 8 * n + k
        if eccLanes data = lanes then s.setUnit u ((s.unit u).write off data)
        else
          let s := s.windowFail n u
          s.setUnit u { s.unit u with err := true })
  | none => .next s

/-- What a window read returns: results and bins, the accumulator file, and 0 elsewhere (Table 6-3). -/
def PUnit.read (x : PUnit) (off : Nat) : SectorBits :=
  if 0x100 ≤ off ∧ off < 0x500 then x.sec x.res ((off - 0x100) / 64)
  else if 0x2000 ≤ off then x.sec x.acc ((off - 0x2000) / 64)
  else 0

/-- PLANISHER_WINDOW_READ (R140): the channel engine checks what it received on the ECC lanes against the unit's 64 B. -/
def execPlanisherWindowRead (addr : BitVec 44) (lanes : BitVec 64) (s : State) : Host.Outcome State Fault Refusal :=
  match windowUnit addr with
  | some (n, k, off) =>
    .next (if !s.inMode n k || off % 64 != 0 then s
      else
        let u := 8 * n + k
        let x := s.unit u
        if eccLanes (x.read off) = lanes then s.setUnit u { x with fails := 0 } else s.windowFail n u)
  | none => .next s

/-! ## What a unit does with operand columns (R138, R143 to R146, R152)

The spec gives each operation's arithmetic by segments and the unit's buffers.  It does not say in which order a unit takes its
operands, nor where in the result area a segment's result stands: the model's choices are in log 58. -/

/-- Lane `i` of `w` bits of a sector. -/
def secLane (w : Nat) (d : SectorBits) (i : Nat) : Nat := d.toNat / 2 ^ (w * i) % 2 ^ w
def setSecLane (w : Nat) (d : SectorBits) (i v : Nat) : SectorBits :=
  BitVec.ofNat 512 (d.toNat - secLane w d i * 2 ^ (w * i) + v % 2 ^ w * 2 ^ (w * i))

/-- The elements of a 64 B column, and element `i` of a segment held in a buffer. -/
def cellVals (f : Fmt) (d : SectorBits) : List Val :=
  (List.range (64 / cellBytes f)).map fun i => decode f (ofLane f (secLane (8 * cellBytes f) d i))
def PUnit.elem (x : PUnit) (t : Tab SectorBits) (f : Fmt) (i : Nat) : Val :=
  let per := 64 / cellBytes f
  decode f (ofLane f (secLane (8 * cellBytes f) (x.sec t (i / per)) (i % per)))

/-- Lane `i` of the accumulator file, as integers or as containers of DF24 values. -/
def PUnit.accLane (x : PUnit) (w i : Nat) : Nat := secLane w (x.sec x.acc (i * w / 512)) (i % (512 / w))
def PUnit.setAcc (x : PUnit) (w i v : Nat) : PUnit :=
  { x with acc := Tab.insert x.acc (i * w / 512) (setSecLane w (x.sec x.acc (i * w / 512)) (i % (512 / w)) v) }
def PUnit.accVal (x : PUnit) (i : Nat) : Val := decode .df24 (ofLane .df24 (x.accLane 32 i))
def PUnit.setAccVal (x : PUnit) (i : Nat) (v : Val) : PUnit := x.setAcc 32 i (toLane .df24 (canon24 v).toNat)

/-- The control registers, as they name an operation (Table 6-3). -/
def PUnit.op (x : PUnit) : Option PlOp := PlOp.ofCode (bits x.pctl 0 8)
def PUnit.fmtA (x : PUnit) : Option Fmt := plFormat (bits x.pctl 8 4)
def PUnit.fmtB (x : PUnit) : Option Fmt := plFormat (bits x.pctl 12 4)
def PUnit.fmtD (x : PUnit) : Option Fmt := plFormat (bits x.pctl 16 4)
def PUnit.count (x : PUnit) : Nat := bits x.pctl 20 32

/-- Operand segments of an operation: A, then B, then D. -/
def PlOp.operands : PlOp → Nat
  | .fma => 3
  | .add | .mul => 2
  | _ => 1

/-- The format of the operand that a unit reads now. -/
def PUnit.operandFmt (x : PUnit) (o : PlOp) : Option Fmt :=
  if x.step % o.operands = 0 then x.fmtA else if x.step % o.operands = 1 then x.fmtB else x.fmtD

/-- One element of an operand column joins what the unit has: a gather adds it to its lane (R146), and the later operands of an
operation on pairs are combined with the earlier ones (R143). -/
def PUnit.elemIn (x : PUnit) (o : PlOp) (fa : Fmt) (i : Nat) (v : Val) : PUnit :=
  match o, x.step % o.operands with
  | .gatherSum, _ =>
    if i < 1024 then
      x.setAcc 64 i (dxAdd (BitVec.ofNat 64 (x.accLane 64 i)) (toWindow (bits x.param0 0 8) v).1).toNat
    else x
  | .add, 1 => x.setAccVal i (add24 (x.elem x.seg fa i) v)
  | .mul, 1 | .fma, 1 => x.setAccVal i (mul24 (x.elem x.seg fa i) v)
  | .fma, 2 => x.setAccVal i (add24 (x.accVal i) v)
  | _, _ => x

/-- R144, R152: the result of a whole segment: the mean and M2, the sum of squares, the largest element, or the sum of q with m in
PARAM1 and l in PARAM0. -/
def PUnit.segResult (x : PUnit) (o : PlOp) (f : Fmt) : Option Nat :=
  let vs := (List.range x.count).map fun i => x.elem x.seg f i
  let bad := vs.any (· == .fault)
  let two := fun (a b : Val) => (if bad then Fmt.df32.faultCode else (canon32 a).toNat) +
    (if bad then Fmt.df32.faultCode else (canon32 b).toNat) * 2 ^ 32
  match o with
  | .rowStats | .normCentred => some (two (segStats vs).mean (segStats vs).m2)
  | .rowSsq | .normRms => some (two (segSsq vs) (.dy .zero))
  | .rowMax => some (two (.dy (largest vs)) (.dy .zero))
  | .rowLse => if bad then some (two .fault .fault) else match decode .df24 (bits x.param1 8 24), decode .df32 (bits x.param0 0 32) with
    | .dy m, l => some ((vs.map (weight m l)).foldl (· + ·) 0)
    | _, _ => none
  | _ => none

/-- The unit takes column `k` of its operand segment. -/
def PUnit.take (x : PUnit) (k : Nat) (d : SectorBits) : PUnit :=
  match x.op with
  | none => { x with seg := Tab.insert x.seg k d }
  | some o => match x.operandFmt o, x.fmtA with
    | some f, some fa =>
      let per := 64 / cellBytes f
      let y := if x.step % o.operands = 0 then { x with seg := Tab.insert x.seg k d } else x
      let y := (cellVals f d).zipIdx.foldl (fun y e =>
        if k * per + e.2 < x.count then y.elemIn o fa (k * per + e.2) e.1 else y) y
      let seen := if x.seen.contains k then x.seen else k :: x.seen
      if (seen.filter fun j => decide (j * per < x.count)).length < (x.count + per - 1) / per then { y with seen := seen }
      else
        let y := { y with seen := [], step := x.step + 1 }
        match y.segResult o fa with
        | some v =>
          let i := x.results % 32
          { y with res := Tab.insert y.res (i / 8) (setSecLane 64 (y.sec y.res (i / 8)) (i % 8) v), results := x.results + 1 }
        | none => y
    | _, _ => { x with seg := Tab.insert x.seg k d }

/-- The value of element `i` of a destination segment, in DF24 or exact; none where the unit has none. -/
def PUnit.result (x : PUnit) (o : PlOp) (fa : Fmt) (i : Nat) : Option Val :=
  if segElems fa ≤ i then none
  else match o with
    | .add | .mul | .fma => some (x.accVal i)
    | .scale => some (mul24 (x.elem x.seg fa i) (decode .df32 (bits x.param0 0 32)))
    | .cvt => some (x.elem x.seg fa i)
    | .normCentred | .normRms =>
      let g := match x.fmtB with
        | some fb => decode fb (ofLane fb (secLane (8 * cellBytes fb)
            (x.sec x.payload (i / (64 / cellBytes fb))) (i % (64 / cellBytes fb))))
        | none => .dy ⟨1, 0⟩
      some (normElem (decode .df24 (bits x.param1 8 24)) (decode .df32 (bits x.param0 0 32)) (x.elem x.seg fa i) g)
    | _ => none

/-- R138, R141, R143: the 64 B that the unit presents for column `k` of a destination segment: elements past the count are zero. -/
def PUnit.present (x : PUnit) (k : Nat) : Option SectorBits :=
  match x.op, x.fmtA, x.fmtD with
  | some o, some fa, some fd =>
    let per := 64 / cellBytes fd
    let es := (List.range per).map fun j =>
      if x.count ≤ k * per + j then some (Val.dy .zero) else x.result o fa (k * per + j)
    if o.small != 0 || o == .gatherSum || es.any (·.isNone) then none
    else some (es.zipIdx.foldl (fun d e =>
      setSecLane (8 * cellBytes fd) d e.2 (toLane fd (encode fd false .nearest (e.1.getD .fault)).code)) 0)
  | _, _, _ => none

/-! ## Operand accesses (R138) -/

/-- Eight open words. -/
def State.drawSector (s : State) : SectorBits × State :=
  let r := (List.range 8).foldl (fun (acc : List Word × State) _ =>
    let w := acc.2.draw
    (acc.1 ++ [w.1], w.2)) ([], s)
  (ofWords r.1, r.2)

/-- PLANISHER_OPERAND_ACCESS (R138): a RD delivers its 64 B to the unit; a WR writes what the unit presents, an open value where the
operation gives it none, with check byte 0x00 in every word; ACT and PRE open and close rows.  Only Plain positions are reached
(R19), and ordinary requests that can be served go first (R151). -/
def execPlanisherOperandAccess (n : Nat) (bg : Fin 8) (acc : PlAccess) (m sector : Nat) (s : State) :
    Host.Outcome State Fault Refusal :=
  let l : Loc := ⟨n, 32 * m + sector⟩
  if !s.inMode n bg.val || decide (256 ≤ n ∨ 32 ≤ sector ∨ s.positions n ≤ m) || s.bankOf l != bg.val || !s.locPlainClass l
      || !(s.servables n [] (s.chan n).retry).isEmpty then .next s
  else
    match acc with
    | .act | .pre => .next s
    | .rd =>
      let u := 8 * n + bg.val
      .next (s.setUnit u ((s.unit u).take sector (s.rawSector l)))
    | .wr =>
      let d := match (s.unit (8 * n + bg.val)).present sector with
        | some d => (d, s)
        | none => s.drawSector
      let s := d.2.writeRaw l d.1 (List.replicate 8 0)
      .next (match s.addrOf l with
        | some a => s.touch a
        | none => s)

end Sys2Proof.Machine
end

