-- ==== Sys2Proof/Machine/Power.lean ====
section
/-!
DEFINITION. Clocks, droop, the monitor grid, the cap governor, stack temperature and operating points (R289 to R306), and
the refresh of a bank group (R207).
-/

namespace Sys2Proof.Machine

/-! ## Operating points (R291, R294, R295) -/

/-- Divider of CKCORE at an operating point (Table 12-1). -/
def coreDiv (op : Nat) : Nat := if op = 2 then 4 else if op = 1 then 6 else 8

/-- An operating point comes into force. -/
def State.enterOp (s : State) (op : Nat) : State :=
  (s.put F.PW_OP_CTL_CUR_OP 0 op).put F.PW_CLK_STAT_CORE_DIV 0 (coreDiv op)

/-- TARGET_OP (R294), with the supply that is sensed at the write. -/
def execTargetOp (v : BitVec 2) (senseMv : Nat) (s : State) : Host.Outcome State Fault Refusal :=
  .next (if s.csrOpen then ((s.put F.PW_DOM_STAT_SENSE_MV 0 senseMv).targetOp v.toNat).2 else s)

/-- Ticks of 100 CKSLOW cycles. -/
def clearTicks : Nat := 1600

/-- R295: has no monitor been below its threshold for 100 CKSLOW cycles? -/
def State.droopClear (s : State) : Bool :=
  !s.flag F.PW_MON_STAT_STRETCHING 0 && match s.power.lastLow with
    | some t => decide (t + clearTicks ≤ s.tick)
    | none => true

/-- R295: is a droop response active, or a monitor line under classification? -/
def State.unsettled (s : State) : Bool := s.flag F.PW_MON_STAT_STRETCHING 0 || s.fld F.PW_MON_STAT_SUSPECT 0 != 0

/-- R295: may a change of operating point that is due switch the divider?  One that waits goes on after 100 CKSLOW cycles without a
reading below a threshold, counted from the beginning of its wait at the earliest (DEDUCED, log 55). -/
def State.opGoes (s : State) : Bool := match s.power.opWait with
  | some t => s.droopClear && decide (t + clearTicks ≤ s.tick)
  | none => !s.unsettled

/-- OP_SWITCH (R294, R295): the change is due: the divider switches, or the change begins to wait. -/
def execOpSwitch (s : State) : Host.Outcome State Fault Refusal :=
  .next (if !s.flag F.PW_OP_CTL_BUSY 0 then s
    else if s.opGoes then
      let s := { s with power := { s.power with opWait := none } }
      (s.enterOp (Nat.min (s.fld F.PW_OP_CTL_TARGET_OP 0) (s.fld F.PW_OP_CTL_OP_MAX 0))).put F.PW_OP_CTL_BUSY 0 0
    else if s.power.opWait.isSome then s
    else { s with power := { s.power with opWait := some s.tick } })

/-! ## Droop (R296) and the monitor grid (R300) -/

def State.lineFailed (s : State) (r : Nat) : Bool := s.bit F.PW_MON_STAT_FAILED 0 r

/-- The lines that have failed. -/
def State.failedLines (s : State) : List Nat := (List.range 8).filter s.lineFailed

/-- Is a neighbour of a line failed? -/
def State.besideFailed (s : State) (r : Nat) : Bool :=
  (decide (0 < r) && s.lineFailed (r - 1)) || s.lineFailed (r + 1)

/-- DROOP_TH at the operating point in force. -/
def State.droopTh (s : State) : Nat := s.fld F.PW_FUSE_OP_DROOP_TH (s.fld F.PW_OP_CTL_CUR_OP 0)

/-- R300: the threshold of the monitors of a line. -/
def State.lineTh (s : State) (r : Nat) : Nat :=
  if decide (2 ≤ s.failedLines.length) || s.besideFailed r then
    s.droopTh - s.fld F.PW_FUSE_OP_GUARD (s.fld F.PW_OP_CTL_CUR_OP 0)
  else s.droopTh

/-- R296: a trusted monitor reads at or below its threshold: the stretch begins, or deepens. -/
def State.droop (s : State) (m below : Nat) : State :=
  let fresh := !s.flag F.PW_MON_STAT_STRETCHING 0
  let k := if 2 * s.droopTh ≤ below then 4 else 2
  let worst := fresh || decide (s.power.worstMv < below)
  let s := (s.put F.PW_MON_STAT_STRETCHING 0 1).when worst (·.put F.PW_MON_STAT_WORST_MON 0 m)
  { s with power := { s.power with
      stretch := if fresh then k else Nat.max s.power.stretch k
      worstMv := if worst then below else s.power.worstMv
      lastLow := some s.tick
      lastNear := some s.tick } }

/-- DROOP_DETECT (R296, R300): a monitor reads `below` mV below its line's reference.  A reading that is not
more than 10 mV above the threshold keeps a stretch up. -/
def execDroopDetect (m below : Nat) (s : State) : Host.Outcome State Fault Refusal :=
  .next (if 64 ≤ m ∨ !s.flag F.PW_CLK_STAT_FUSE_DONE 0 ∨ s.lineFailed (m / 8) then s
    else if s.lineTh (m / 8) ≤ below then s.droop m below
    else if s.lineTh (m / 8) ≤ below + 10 then { s with power := { s.power with lastNear := some s.tick } }
    else s)

/-- STRETCH_END (R296): every trusted monitor has read clear for 16 ticks. -/
def execStretchEnd (s : State) : Host.Outcome State Fault Refusal :=
  .next (if s.flag F.PW_MON_STAT_STRETCHING 0 && (match s.power.lastNear with
        | some t => decide (t + 16 ≤ s.tick)
        | none => true) then
      let s := s.put F.PW_MON_STAT_STRETCHING 0 0
      { s with power := { s.power with
          stretch := 1
          worstMv := 0 } }
    else s)

/-- Readings of the eight monitors of a line, in steps of 2 mV. -/
def lineReadings (ms : List Int) (r : Nat) : List Int := (ms.drop (8 * r)).take 8

/-- Table 12-3: all eight shifted alike, within 4 mV of one another, or all saturated. -/
def shiftedAlike (xs : List Int) : Bool :=
  xs.all (fun x => x == 127 || x == -128) || xs.all fun x => xs.all fun y => decide (2 * (x - y) ≤ 4)

/-- Are the monitors of the neighbouring lines within their thresholds? -/
def State.besideClear (s : State) (ms : List Int) (r : Nat) : Bool :=
  (List.range 8).all fun k => (k + 1 != r && k != r + 1) || s.lineFailed k ||
    (lineReadings ms k).all fun x => decide (-2 * x < (s.lineTh k : Int))

/-- Table 12-3: the verdict on one line. -/
inductive LineVerdict | trusted | failed | suspect
  deriving DecidableEq, Repr

def State.lineVerdict (s : State) (off : List Int) (ms : List Int) (r : Nat) : LineVerdict :=
  if (off.getD r 0).natAbs ≤ 40 then .trusted
  else if shiftedAlike (lineReadings ms r) && s.besideClear ms r then .failed
  else .suspect

/-- R300: with two or more lines failed, OP2 is out of reach. -/
def State.limitOp (s : State) : State :=
  if s.failedLines.length < 2 then s
  else
    let s := s.put F.PW_OP_CTL_OP_MAX 0 (Nat.min 1 (s.fld F.PW_OP_CTL_OP_MAX 0))
    if s.fld F.PW_OP_CTL_CUR_OP 0 = 2 then (s.put F.PW_OP_CTL_TARGET_OP 0 1).put F.PW_OP_CTL_BUSY 0 1 else s

/-- One line takes its verdict; a failed line stays failed. -/
def State.classify (s : State) (r : Nat) (v : LineVerdict) : State :=
  if s.lineFailed r then s
  else match v with
    | .trusted => s.putBit F.PW_MON_STAT_SUSPECT 0 r false
    | .suspect => s.putBit F.PW_MON_STAT_SUSPECT 0 r true
    | .failed => ((s.putBit F.PW_MON_STAT_SUSPECT 0 r false).putBit F.PW_MON_STAT_FAILED 0 r true).raise .power

/-- LINE_CLASSIFY (R300): readings that have persisted: the offset of each line's reference from LR in mV, and the 64
monitors' codes. -/
def execLineClassify (off ms : List Int) (s : State) : Host.Outcome State Fault Refusal :=
  .next (if !s.flag F.PW_CLK_STAT_FUSE_DONE 0 then s
    else if (List.range 8).all (fun r => decide (40 < off.getD r 0)) || (List.range 8).all fun r => decide (off.getD r 0 < -40)
    then (s.when (!s.flag F.PW_MON_STAT_LR_FAIL 0) fun s => (s.put F.PW_MON_STAT_LR_FAIL 0 1).raise .power).put F.PW_MON_STAT_SUSPECT 0 0
    else ((List.range 8).foldl (fun t r => t.classify r (s.lineVerdict off ms r)) s).limitOp)

/-! ## The cap governor (R301, R302, R305, R306) -/

/-- The actuators of Table 12-4, with their top levels. -/
inductive Actuator | act | pl | av | phy
  deriving DecidableEq, Repr

def Actuator.ofCode (c : Nat) : Actuator := if c = 0 then .act else if c = 1 then .pl else if c = 2 then .av else .phy
def Actuator.top : Actuator → Nat
  | .act => 4 | .pl => 1 | .av => 4 | .phy => 2
def Actuator.level (p : Power) : Actuator → Nat
  | .act => p.govAct | .pl => p.govPl | .av => p.govAv | .phy => p.govPhy
def Actuator.setLevel (p : Power) (v : Nat) : Actuator → Power
  | .act => { p with govAct := v }
  | .pl => { p with govPl := v }
  | .av => { p with govAv := v }
  | .phy => { p with govPhy := v }

/-- PRIO, the actuator that is applied first at the head. -/
def State.prio (s : State) : List Actuator :=
  (List.range 4).map fun i => Actuator.ofCode (s.fld F.PW_GOV_CFG_PRIO 0 / 2 ^ (4 * i) % 16)

/-- Energy in 2^−16 pJ that an eighth of a watt gives in one interval of 10 µs. -/
def unitEnergy : Nat := 65536 * 10000000 / 8

/-- All energy charged so far. -/
def State.blockEnergy (s : State) : Nat := (s.power.energy.map (·.2)).foldl (· + ·) 0

/-- Intervals in the averaging window. -/
def State.windowLen (s : State) : Nat := 100 * s.fld F.PW_GOV_CFG_WINDOW 0

/-- R302: raise an actuator, or thr_budget with every actuator at its top. -/
def State.governUp (s : State) : State :=
  match s.prio.find? fun a => decide (a.level s.power < a.top) with
  | some a => { s with power := a.setLevel s.power (a.level s.power + 1) }
  | none => (s.put F.PW_GOV_STAT_THR_BUDGET 0 (Nat.min 15 (s.fld F.PW_GOV_STAT_THR_BUDGET 0 + 1))).put F.PW_GOV_STAT_AT_FLOOR 0 1

/-- R302: lower thr_budget, or the last actuator above level 0. -/
def State.governDown (s : State) : State :=
  let b := s.fld F.PW_GOV_STAT_THR_BUDGET 0
  let s := if b ≠ 0 then s.put F.PW_GOV_STAT_THR_BUDGET 0 (b - 1)
    else match s.prio.reverse.find? fun a => decide (0 < a.level s.power) with
      | some a => { s with power := a.setLevel s.power (a.level s.power - 1) }
      | none => s
  s.put F.PW_GOV_STAT_AT_FLOOR 0 0

/-- R302: the decision, on the energy `e` of the last interval and `w` of the window's `k`, compared exactly. -/
def State.govern (s : State) (e w k : Nat) : State :=
  let cap := s.fld F.PW_GOV_CFG_CAP 0
  let sum := e * k + w
  if 2 * cap * unitEnergy * k < sum then s.governUp
  else if 100 * sum < 199 * cap * unitEnergy * k then s.governDown
  else s

/-- The longest window: 10,000 ms. -/
def maxIntervals : Nat := 1000000

/-- GOVERNOR_INTERVAL (R302, R306). -/
def execGovernorInterval (s : State) : Host.Outcome State Fault Refusal :=
  if !s.flag F.PW_CLK_STAT_PLL_LOCK 0 then .next s
  else
    let total := s.blockEnergy
    let e := total - s.power.lastEnergy
    let es := (e :: s.power.intervals).take maxIntervals
    let idle := (s.power.idleTicks :: s.power.idle).take maxIntervals
    let k := s.windowLen
    let w := (es.take k).foldl (· + ·) 0
    let s := { s with power := { s.power with
      lastEnergy := total
      intervals := es
      idle := idle
      idleTicks := 0 } }
    let s := s.govern e w k
    let s := s.put F.PW_GOV_STAT_P_LAST 0 (Nat.min 65535 (e / unitEnergy))
    let s := s.put F.PW_GOV_STAT_P_AVG 0 (Nat.min 65535 (w / (unitEnergy * k)))
    let s := s.put F.PW_SLACK_IDLE 0 (Nat.min 1023 ((idle.take k).foldl (· + ·) 0 * 1024 / (16000 * k)))
    .next s.applyLevels

/-! ## Stack temperature (R303) -/

/-- T and the first site that has it. -/
def hottest (l : List (Nat × Nat)) : Nat × Nat := l.foldl (fun m e => if m.1 < e.2 then (e.2, e.1) else m) (match l with
  | (t, v) :: _ => (v, t)
  | [] => (0, 0))

/-- R303: ACT's thermal level after a reading of `t`. -/
def Power.thermLevel (p : Power) (start t : Nat) : Nat :=
  if start ≤ t then
    (match p.prevTemp with
    | some v => if v ≤ t then Nat.min 4 (p.thermAct + 1) else p.thermAct
    | none => Nat.min 4 (p.thermAct + 1))
  else if t + 3 < start then p.thermAct - 1
  else p.thermAct

/-- STACK_TEMP_READ (R303, R315): a temperature of every site; those of unused sites read 0. -/
def execStackTempRead (temps : List Nat) (s : State) : Host.Outcome State Fault Refusal :=
  if s.usedSites.isEmpty then .next s
  else
    let l := s.usedSites.map fun t => (t, Nat.min 255 (temps.getD t 0))
    let h := hottest l
    let start := s.fld F.PW_THERM_TH_START 0
    let critAt := s.fld F.PW_THERM_TH_CRIT 0
    let crit := decide (critAt ≤ h.1) || s.power.crit && decide (critAt ≤ h.1 + 3)
    let reached := decide (critAt ≤ h.1) && decide (s.fld F.PW_THERM_MAX_TEMP 0 < critAt)
    let s := s.setReg .PW_STACK_TEMP 0 (BitVec.ofNat 64 ((l.map fun e => e.2 * 2 ^ (8 * e.1)).foldl (· + ·) 0))
    let s := (s.put F.PW_THERM_MAX_TEMP 0 h.1).put F.PW_THERM_HOT_SITE 0 h.2
    let s := s.put F.PW_GOV_STAT_THR_THERM 0
      (if h.1 < start then 0 else Nat.min 15 (1 + (h.1 - start) / s.fld F.PW_THERM_TH_STEP 0))
    let s := { s with
      power := { s.power with
        thermAct := if crit then 4 else s.power.thermLevel start h.1
        thermPl := if start ≤ h.1 then 1 else 0
        prevTemp := some h.1
        crit := crit }
      life := { s.life with firstTemp := true } }
    .next ((s.when reached (·.raise .power)).applyLevels)

/-! ## Refresh (R207, R149) -/

/-- REFRESH (R207): a per-bank refresh goes to the stack.  A bank group in Planisher mode leaves it for the refresh and
enters again with its unit's state kept (R149). -/
def execRefresh (n pc bg : Nat) (s : State) : Host.Outcome State Fault Refusal :=
  if 256 ≤ n ∨ 2 ≤ pc ∨ 4 ≤ bg ∨ s.chanState n ≠ 0 ∨ (s.chan n).selfRefresh then .next s
  else
    let k := 4 * pc + bg
    let was := s.inMode n k
    let s := ((s.preempt n k).emit (.refresh n pc bg)).charge 0 6 1
    .next (s.when was (·.enterMode n k false))

end Sys2Proof.Machine
end

