-- ==== Sys2Proof/Machine/PowerUp.lean ====
section
/-!
DEFINITION. Cold power-up, step by step, and port release (R289, R290, R292, R293, R297 to R299, R309 to R315, R208,
R257, R274).
-/

namespace Sys2Proof.Machine

/-! ## Small steps -/

def State.setState (s : State) (st : Nat) : State := s.put F.LC_STAT_STATE 0 st

def State.setLife (s : State) (l : Life) : State := { s with life := l }

/-- R312: the block holds before release. -/
def State.holdAt (s : State) (cause : Nat) : State :=
  ((s.putBit F.LC_STAT_HOLD_CAUSE 0 cause true).setState lcHeld).raise .lifeCycle

/-- What the pins and the model's own records are, over a reset of everything else. -/
def State.cleared (s : State) : State :=
  { State.reset with
    pending := s.pending
    sent := s.sent
    freeCtr := s.freeCtr
    life := { Life.reset with
      wrstN := s.life.wrstN
      pwrFailN := s.life.pwrFailN
      coolantOk := s.life.coolantOk
      dnPresent := s.life.dnPresent } }

/-- PORST_N_FALL (R309, R326): everything stops, and memory contents are not kept (log 7). -/
def execPorstNFall (s : State) : Host.Outcome State Fault Refusal := .next s.cleared

/-! ## Staging (R298, R299) -/

/-- The staging of a domain starts with no segment on. -/
def State.startStaging (s : State) (d : Nat) : State :=
  let s := s.put F.PW_DOM_STAT_STAGING d 1
  { s with power := { s.power with staging := some ⟨d, 0⟩ } }

/-- Both halves of step 4 have ended: the identity read begins. -/
def State.joinIdentity (s : State) : State :=
  if s.lc == lcBureau && s.life.bureauDone && s.power.staging.isNone then s.setState lcIdentity else s

/-- R298: the site domains follow one another, from `d` on; one with HDR_FAULT is never staged. -/
def State.stageFrom (s : State) (d : Nat) : State :=
  let s := { s with power := { s.power with staging := none } }
  match (List.range 9).find? fun k => decide (1 ≤ d ∧ d ≤ k) && !s.flag F.PW_DOM_STAT_HDR_FAULT k with
  | some k => s.startStaging k
  | none => s.joinIdentity

/-- R299: staging aborts over the rail of `fail`. -/
def State.abortStaging (s : State) (dom fail sense : Nat) : State :=
  let s := (s.put F.PW_DOM_STAT_STAGING dom 0).countSat F.PW_DOM_STAT_STAGE_ABORTS dom 1
  let s := (s.put F.PW_DOM_STAT_SENSE_MV fail sense).put F.PW_DOM_STAT_HDR_FAULT fail 1
  let s := s.raise .power
  if fail ≠ dom then s.startStaging dom
  else if dom = 0 then { s with power := { s.power with staging := none } }
  else s.stageFrom (dom + 1)

/-- R298: is a rail within 3 % of VNOM of the point in force?  Before the fuse read VNOM is not known. -/
def State.railOk (s : State) (sense : Nat) : Bool :=
  let v := s.fld F.PW_FUSE_OP_VNOM_MV (s.fld F.PW_OP_CTL_CUR_OP 0)
  !s.flag F.PW_CLK_STAT_FUSE_DONE 0 || decide (100 * sense ≤ 103 * v ∧ 97 * v ≤ 100 * sense)

/-- STAGE_SEGMENT (R298): the next segment is on and its settle window holds; after the sixteenth the domain is on, where
its rail has reached VNOM. -/
def execStageSegment (sense : Nat) (s : State) : Host.Outcome State Fault Refusal :=
  match s.power.staging with
  | none => .next s
  | some g =>
    let s := s.put F.PW_DOM_STAT_SENSE_MV g.dom sense
    .next (if g.seg + 1 < 16 then { s with power := { s.power with staging := some ⟨g.dom, g.seg + 1⟩ } }
      else if !s.railOk sense then s.abortStaging g.dom g.dom sense
      else
        let s := (s.put F.PW_DOM_STAT_STAGING g.dom 0).put F.PW_DOM_STAT_ON g.dom 1
        if g.dom = 0 then { s with power := { s.power with staging := none } } else s.stageFrom (g.dom + 1))

/-- R297: is `b` a neighbour of domain `a`? -/
def neighbour (a b : Nat) : Bool := a != b && (a == 0 || b == 0 || a + 1 == b || b + 1 == a)

/-- R298: does the rail of a domain that is off stay below 10 % of VNOM?  Before the fuse read VNOM is not known. -/
def State.offOk (s : State) (sense : Nat) : Bool :=
  s.flag F.PW_CLK_STAT_FUSE_DONE 0 && decide (10 * sense < s.fld F.PW_FUSE_OP_VNOM_MV (s.fld F.PW_OP_CTL_CUR_OP 0))

/-- STAGE_ABORT (R299): the rail of the staging domain, or of an off neighbour, is outside its window. -/
def execStageAbort (fail sense : Nat) (s : State) : Host.Outcome State Fault Refusal :=
  match s.power.staging with
  | none => .next s
  | some g =>
    .next (if fail == g.dom || decide (fail < 9) && neighbour g.dom fail && !s.flag F.PW_DOM_STAT_ON fail
          && !s.flag F.PW_DOM_STAT_HDR_FAULT fail && !s.offOk sense then s.abortStaging g.dom fail sense
      else s)

/-! ## Steps 1 to 3 -/

/-- COLD_POWER_UP (R310): PORST_N rises, and DCORE is staged.  An input that is low then owes its full time (R313). -/
def execColdPowerUp (s : State) : Host.Outcome State Fault Refusal :=
  if s.life.porstN then .next s
  else
    let s := s.setLife { s.life with porstN := true, coolTicks := 0, pfTicks := 0, coolFell := !s.life.coolantOk, pfFell := !s.life.pwrFailN, startTick := 0 }
    .next (((s.setState lcPll).put F.LC_STAT_START_CAUSE 0 0).startStaging 0)

/-- PLL_LOCK (R289, R310): GTC starts at 0. -/
def execPllLock (s : State) : Host.Outcome State Fault Refusal :=
  if !s.life.porstN || s.lc != lcPll || s.flag F.PW_CLK_STAT_PLL_LOCK 0 || !s.flag F.PW_DOM_STAT_ON 0 then .next s
  else
    .next (((s.put F.PW_CLK_STAT_PLL_LOCK 0 1).put F.GT_TIME_GTC 0 0).setState lcBoot)

/-- PLL_LOCK_LOSS (R290): the block is in reset until lock returns; what stands until PORST_N stands.  R21 fixes MW_CONFIG until
the next PORST_N, and R290 runs the full power-up with its identity read: the model clears MW_CONFIG here and the identity read
sets it anew (DESIGN CHOICE, log 53). -/
def execPllLockLoss (s : State) : Host.Outcome State Fault Refusal :=
  if !s.flag F.PW_CLK_STAT_PLL_LOCK 0 || s.lc == lcHeld then .next s
  else
    let c := s.cleared
    let c := c.setLife { c.life with
      porstN := true
      coolTicks := s.life.coolTicks
      pfTicks := s.life.pfTicks
      coolFell := s.life.coolFell
      pfFell := s.life.pfFell }
    let c := (List.range 9).foldl (fun c d =>
      (c.put F.PW_DOM_STAT_HDR_FAULT d (s.fld F.PW_DOM_STAT_HDR_FAULT d)).put F.PW_DOM_STAT_ON d
        (if d = 0 then s.fld F.PW_DOM_STAT_ON 0 else 0)) c
    let c := (c.put F.PW_MON_STAT_FAILED 0 (s.fld F.PW_MON_STAT_FAILED 0)).put F.PW_MON_STAT_LR_FAIL 0 (s.fld F.PW_MON_STAT_LR_FAIL 0)
    let c := (c.put F.PW_COOL_STOPS 0 (s.fld F.PW_COOL_STOPS 0)).limitOp
    .next (c.put F.LC_STAT_START_CAUSE 0 1)

/-- May the power-up step with STATE `st` end: with no drain under way, or after a warning the one that was running? -/
def State.stepEnds (s : State) (st : Nat) : Bool := s.lc == st && match s.life.drain with
  | some x => x.kind == .pfEarly && x.from_ == st
  | none => true

/-- BOOT (R310 step 2, R312). -/
def execBoot (romOk : Bool) (s : State) : Host.Outcome State Fault Refusal :=
  .next (if !s.stepEnds lcBoot then s else if romOk then s.setState lcFuse else s.holdAt 0)

/-- R292: does a fuse image pass its CRC?  Its words are taken lowest byte first. -/
def fuseOk (ws : List (BitVec 32)) : Bool :=
  ws.length == 64 && crc32 ((ws.take 63).flatMap fun w => bytesOf 4 w) == ws.getD 63 0

/-- R293: the built-in values of an operating point: 0.90 V, 60 mV, 30 mV. -/
def builtinOp : BitVec 40 := 30#8 ++ 60#8 ++ 900#12 ++ 900#12

/-- R292: the words of the image that are the coefficients: 16 places before the CRC, in image order (log 17). -/
def coefficientPlaces : List Nat :=
  let l := Config.fuseCoefficientPlaces
  if l.length == 16 && l.all (fun i => decide (i < 63)) && (List.range 15).all (fun i => decide (l.getD i 0 < l.getD (i + 1) 0)) then l
  else List.range 16

/-- R292, R293: the fuse values in force: from the image that passed, or built in. -/
def State.loadFuse (s : State) (img : Option (List (BitVec 32))) : State :=
  let op := fun k => match img with
    | some ws => Config.fuseOp ws k
    | none => builtinOp
  let coef := fun c => match img with
    | some ws => ws.getD (coefficientPlaces.getD c 0) 0
    | none => Config.builtinCoefficient c
  let s := (List.range 3).foldl (fun s k => s.setReg .PW_FUSE_OP k ((op k).setWidth 64)) s
  { s with power := { s.power with
      fuse := img.getD []
      coef := (List.range 16).foldl (fun t c => Tab.set (fun _ => 0#32) t c (coef c)) [] } }

/-- R294: is the supply at least `v` on every monitor that is trusted? -/
def State.supplyOk (s : State) (v : Nat) (ms : List Nat) : Bool :=
  (List.range 64).all fun m => s.bit F.PW_MON_STAT_FAILED 0 (m / 8) || decide (v ≤ ms.getD m 0)

/-- R294: the boot point is entered, where every trusted monitor reads its VMIN at least; an image's code 3 names no point. -/
def State.bootOp (s : State) (op : Nat) (ms : List Nat) : State :=
  let s := (s.put F.PW_CLK_STAT_BOOT_OP 0 op).put F.PW_OP_CTL_TARGET_OP 0 op
  if op < 3 ∧ s.supplyOk (s.fld F.PW_FUSE_OP_VMIN_MV op) ms then s.enterOp (Nat.min op (s.fld F.PW_OP_CTL_OP_MAX 0))
  else ((s.enterOp 0).put F.PW_OP_CTL_OP_ERR 0 1).raise .power

/-- FUSE (R292 to R294): the image's two reads, the supply that is sensed, and the supply at each of the 64 monitors. -/
def execFuse (first second : List (BitVec 32)) (v : SupplySense) (s : State) : Host.Outcome State Fault Refusal :=
  if !s.stepEnds lcFuse then .next s
  else
    let img := if fuseOk first then some first else if fuseOk second then some second else none
    let s := ((s.loadFuse img).put F.PW_CLK_STAT_FUSE_DONE 0 1).put F.PW_DOM_STAT_SENSE_MV 0 v.domain
    let s := s.when img.isNone fun s =>
      ((s.put F.PW_CLK_STAT_FUSE_BAD 0 1).put F.PW_OP_CTL_OP_MAX 0 0).raise .power
    let s := s.bootOp (match img with
      | some ws => (Config.fuseBootOp ws).toNat
      | none => 0) v.monitors
    .next ((s.setState lcBureau).stageFrom 1)

/-! ## Steps 4 and 5 -/

/-- BUREAU_READ (R316, R319). -/
def execBureauRead (sfdpOk slow : Bool) (b0 b1 : List Byte) (s : State) : Host.Outcome State Fault Refusal :=
  if !s.stepEnds lcBureau || s.life.bureauDone then .next s
  else
    let s := s.readBureau sfdpOk slow b0 b1
    .next ((s.setLife { s.life with bureauDone := true }).joinIdentity)

/-- Table 9-2: the capacity code of a stack. -/
def stackCap (height density : Nat) : Option Nat :=
  match height, density with
  | 8, 24 => some 3 | 8, 32 => some 4 | 8, 48 => some 6 | 12, 32 => some 6 | 12, 48 => some 9
  | 16, 24 => some 6 | 16, 32 => some 8 | 16, 48 => some 0xC
  | _, _ => none

/-- R208: why a site is unused, or 0 (Table 9-15). -/
def SiteIdent.reason (x : SiteIdent) (powered : Bool) : Nat :=
  if !x.answers || !powered then 1
  else if !x.identOk then 2
  else if x.extLevel != 1#4 then 3
  else if x.speed.toNat < 128 then 4
  else if (stackCap x.height.toNat x.density.toNat).isNone then 5
  else 0

/-- R208, R227: one site's answers into its registers; an unused site's domain stays off (R11, R297). -/
def State.identify (s : State) (t : Nat) (x : SiteIdent) : State :=
  let why := SiteIdent.reason x (s.flag F.PW_DOM_STAT_ON (t + 1))
  let s := (s.put F.SS_IDENT_REASON t why).put F.SS_IDENT_ANSWERED t (if why = 1 then 0 else 1)
  let s := s.when (why != 1) (·.putBit F.MW_CONFIG_STACK_DETECTED 0 t true)
  let s := s.when (why != 1 && why != 2) fun s =>
    (((s.put F.SS_IDENT_DENSITY t x.density.toNat).put F.SS_IDENT_HEIGHT t x.height.toNat).put F.SS_IDENT_SPEED t
      x.speed.toNat).put F.SS_IDENT_EXT_LEVEL t x.extLevel.toNat
  if why != 0 then s.put F.PW_DOM_STAT_ON (t + 1) 0
  else
    let cap := (stackCap x.height.toNat x.density.toNat).getD 0
    let s := (s.put F.SS_IDENT_USED t 1).putBit F.MW_CONFIG_SITES_POPULATED 0 t true
    let s := s.put F.MW_CONFIG_SITE_CAP 0 (s.fld F.MW_CONFIG_SITE_CAP 0 + cap * 2 ^ (4 * t))
    let s := (List.range 32).foldl (fun s c => s.put F.CE_STATE_STATE (32 * t + c) 0) s
    (List.range 16).foldl (fun s j => s.put F.AV_ENG_POWERED (16 * t + j) 1) s

/-- R218, R219: the granules of the memory window are valid, each in its tier. -/
def State.validGranules (s : State) : State :=
  s.tiers.zipIdx.foldl (fun s t => (List.range (t.1.size / gib)).foldl (fun s k =>
    (s.put F.RG_GRAN_VALID (t.1.base / gib + k) 1).put F.RG_GRAN_TIER (t.1.base / gib + k) t.2) s) s

/-- R250, R311: channels that the Bureau records as retired are in state 3, with no new retirement logged. -/
def State.recordedRetired (s : State) : State :=
  ((List.range 256).filter fun n => s.life.bureau.retired.getLsbD n && s.chanState n == 0).foldl
    (fun s n => (s.put F.CE_STATE_STATE n 3).putRetired n true) s

/-- The block trains when nothing is to be waited for (R313). -/
def State.afterIdentity (s : State) : State :=
  if s.coolReady && s.pfReady then s.setState lcTraining else s.setState lcWait

/-- IDENTITY_READ (R208, R21, R311, R313). -/
def execIdentityRead (sites : List SiteIdent) (s : State) : Host.Outcome State Fault Refusal :=
  if !s.stepEnds lcIdentity then .next s
  else
    let s := (List.range 8).foldl (fun s t => s.identify t (sites.getD t ⟨false, false, 0, 0, 0, 0⟩)) s
    let s := s.put F.MW_CONFIG_EXT_LEVEL 0 1
    let s := s.put F.MW_CONFIG_MEND_SITES 0 (s.usedSites.length - 1)
    let s := s.validGranules.recordedRetired.loadCal
    .next (if s.usedSites.isEmpty then s.holdAt 1 else s.afterIdentity)

/-- Is a cold power-up that a warning interrupted ready to go on (R326)? -/
def State.earlyStopped (s : State) : Bool := s.lc == lcPfDone && match s.life.drain with
  | some x => x.kind == .pfEarly && x.from_ != lcWarm
  | none => false

/-- Channels in service leave self-refresh. -/
def State.wake (s : State) : State :=
  ((Tab.keys s.mem.chans).filter fun n => s.chanState n == 0).foldl
    (fun s n => s.setChan n { s.chan n with selfRefresh := false }) s

/-- POWER_UP_WAIT_END (R313); after a warning in steps 6 to 8 the power-up goes on at step 6 (R326). -/
def execPowerUpWaitEnd (s : State) : Host.Outcome State Fault Refusal :=
  .next (if s.stepEnds lcWait && s.coolReady && s.pfReady then s.setState lcTraining
    else if s.earlyStopped && s.pfReady then
      (s.wake.setLife { s.wake.life with drain := none, closing := false, ready := false }).setState lcTraining
    else s)

/-! ## Steps 6 to 9 -/

/-- R311: channels that failed training twice are retired, with class PHY logged. -/
def State.trainFailed (s : State) (ns : List Nat) : State :=
  (ns.filter fun n => s.chanState n == 0).foldl (fun s n => (s.log .phy { chan := some n }).retire n true) s

/-- TRAINING (R311). -/
def execTraining (failed : List Nat) (s : State) : Host.Outcome State Fault Refusal :=
  .next (if s.stepEnds lcTraining then (s.trainFailed failed).setState lcBist else s)

/-- R257: channels that failed BIST are retired. -/
def State.bistFailed (s : State) (ns : List Nat) : State :=
  (ns.filter fun n => s.chanState n == 0).foldl (fun s n =>
    ((s.log .bistFail { chan := some n }).put F.CE_STATE_BIST_FAIL n 1).retire n true) s

/-- R257, R274, R312: failed checkers and pipelines hold the block; true when it is held. -/
def State.selfTest (s : State) (failed : List Nat) (checkersOk : Bool) (badPipes : List Nat) : Bool × State :=
  let s := s.bistFailed failed
  let s := s.when (!checkersOk) fun s => (s.inStat (some F.IN_STAT_BIST_FAIL)).holdAt 2
  let s := s.when (!badPipes.isEmpty) fun s => ((s.put F.CR_NS_STAT_PIPE_FAIL 0 1).raise .crucible).holdAt 3
  (!checkersOk || !badPipes.isEmpty, s)

/-- BIST (R257, R274). -/
def execBist (failed : List Nat) (checkersOk : Bool) (badPipes : List Nat) (s : State) : Host.Outcome State Fault Refusal :=
  if !s.stepEnds lcBist then .next s
  else
    let r := s.selfTest failed checkersOk badPipes
    .next (if r.1 then r.2 else r.2.setState lcFill)

/-- The parts of a stretch of ground on channel engines that fail `p`. -/
def Ground.outside (p : Nat → Bool) (g : Ground) : List Ground :=
  (List.range 256).filterMap fun n =>
    let lo := Nat.max g.lo (n * 2 ^ 26)
    let hi := Nat.min g.hi ((n + 1) * 2 ^ 26)
    if lo < hi && !p n then some { g with lo := lo, hi := hi } else none

/-- R310 step 8: zero data and valid check bits on every channel in service. -/
def State.fillChannels (s : State) : State :=
  let live := fun (n : Nat) => s.chanState n == 0
  { s with mem := { s.mem.reground (fun i => live (i / 2 ^ 26)) (s.mem.ground.flatMap (Ground.outside live)) with touched := [] } }

/-- Bursts of the channels in service. -/
def State.liveBursts (s : State) : Nat :=
  (((List.range 256).filter fun n => s.chanState n == 0).map s.positions).foldl (· + ·) 0

/-- FILL (R310); its writes have no command (Table 12-5). -/
def execFill (s : State) : Host.Outcome State Fault Refusal :=
  .next (if s.stepEnds lcFill then
      let t := s.fillChannels.chargeBursts 0 4 s.liveBursts
      t.setLife { t.life with ready := true }
    else s)

/-- R314: a port grants its shares. -/
def State.releasePort (s : State) (p : Nat) : State := (s.put F.PT_STAT_RELEASED p 1).grantPort p

/-- PORT_RELEASE (R314): at the end of step 8, or of a warm start's steps with the waits of R313. -/
def execPortRelease (s : State) : Host.Outcome State Fault Refusal :=
  .next (if s.life.ready && s.life.drain.isNone && (s.lc == lcFill || s.lc == lcWarm && s.coolReady && s.pfReady && !s.life.paused)
    then
      let s := (List.range 32).foldl State.releasePort s
      ((s.setState lcReleased).put F.LC_RELEASE_RELEASE_GTC 0 s.gtc).raise .lifeCycle
    else s)

end Sys2Proof.Machine
end

