-- ==== Sys2Proof/Machine/LifeCycle.lean ====
section
/-!
DEFINITION. Warm reset, power fail, coolant loss and warm start (R307, R313, R321 to R326).
-/

namespace Sys2Proof.Machine

/-! ## Drains -/

/-- Does an admitted request wait only for a channel out of service, or behind one that does (R326)?  With `held` one that waits
for a command's record does not count either. -/
def State.waitsOut (s : State) (held : Bool) (w : Wait) : Bool := match w.why with
  | .behind => true
  | .final => s.groupWaits w.req
  | .range | .region => held || s.someOut
  | .buffer | .cleanWay => s.someOut

/-- Are the admitted requests answered, but for those that a channel out of service keeps (R321, R325, R326)? -/
def State.requestsDone (s : State) (held : Bool) : Bool :=
  (Tab.keys s.mem.chans).all (fun n => s.chanState n != 0 || (s.chan n).retry.isEmpty) && s.ports.waits.all (s.waitsOut held)

/-- R321, R325: dirty lines go to DRAM, and the channels in service leave Planisher mode and enter self-refresh. -/
def State.settleStacks (s : State) : State :=
  let live := (List.range 256).filter fun n => s.chanState n == 0
  let s := live.foldl (fun s n => (s.put F.CE_PL_STAT_BG_MODE n 0).setChan n { s.chan n with plOrder := [], plBack := [] }) s
  let s := s.slicesHeld.foldl (fun s n => ((s.flushSlice n).settleLate n).flushSlice n) s
  live.foldl (fun s n => s.setChan n { s.chan n with selfRefresh := true }) s

/-- R321, R325: headers are dropped and credit returns held from now on; a stopped block wakes its channels for what
is still to be answered and written back (R326).  Before release R315 goes on to hold: requests are dropped and counted under
R183. -/
def State.startDrain (s : State) (k : DrainKind) (h : Option (List Byte)) : State :=
  let s := s.wake
  s.setLife { s.life with closing := k != .pfEarly, drain := some ⟨k, s.tick, false, h, s.lc⟩ }

/-- Change the drain under way. -/
def State.setDrain (s : State) (x : Drain) : State := s.setLife { s.life with drain := some x }

/-! ## WRST_N (R325) -/

/-- R325: a Mend unit drops its partial rows; whole ones are still written. -/
def State.dropPartial (s : State) : State :=
  (Tab.keys s.mem.mends).foldl (fun s c => s.setMend c { s.mend c with rows := (s.mend c).rows.filter s.rowWhole }) s

/-- R244, R322, R325: whole stripe rows are written, partial ones dropped. -/
def State.drainMends (s : State) : State :=
  (Tab.keys s.mem.mends).foldl (fun s c =>
    let s := (List.range (s.mend c).rows.length).foldl (fun s _ => s.issueNext c) s
    s.setMend c { s.mend c with rows := [] }) s

/-- R124, R84, R79: every command is discarded without a record, buckets are FREE, the kernel store is empty; Mend units
drop their partial rows; no block write is sent any more. -/
def State.discardAll (s : State) : State :=
  let s := (List.range 64).foldl (fun s d =>
    ((((((s.put F.DR_CTL_ENABLE d 0).setSqHead d 0).setCqTail d 0).setSqTail d 0).setCqHead d 0).put F.DR_STAT_RING_LOST d 0)) s
  let s := s.put F.MW_IRQ_DRAWER_PENDING 0 0
  let s := (List.range 16).foldl (fun s k => s.setReg .AV_KSLOT k 0) s
  let s := s.anvilsHeld.foldl (fun s a => (s.put F.AV_ENG_BUSY a 0).put F.AV_ENG_ITER_LEFT a 0) s
  let s := s.setBusy ((List.range 768).filter fun g => s.flag F.RG_GRAN_BUSY g) 0
  let s := ((List.range 256).filter fun n => s.flag F.CE_STATE_REBUILDING n).foldl
    (fun s n => s.put F.CE_STATE_REBUILDING n 0) s
  let s := s.dropPartial
  let s := (Tab.keys s.ports.port).foldl (fun s p => s.setPort p { s.port p with outq := [] }) s
  { s with
    draws := .reset
    anv := .reset }.settle

/-- May a WRST_N fall start a drain: the block's clocks run, it is not held (R312), and no drain runs?  R309 makes no exception for
a cold power-up: R325 runs then too, and the warm start follows with what the power-up has reached (DEDUCED, log 54). -/
def State.wrstActs (s : State) : Bool :=
  s.life.porstN && s.flag F.PW_CLK_STAT_PLL_LOCK 0 && s.life.drain.isNone && s.lc != lcHeld

/-- WRST_N_FALL (R309, R325).  During a power-fail sequence only the level counts (R326). -/
def execWrstNFall (s : State) : Host.Outcome State Fault Refusal :=
  if !s.life.wrstN then .next s
  else
    let acts := s.wrstActs
    let s := s.setLife { s.life with wrstN := false }
    .next (if acts then (s.startDrain .wrst none).discardAll else s)

/-- WRST_DRAIN_DONE (R325). -/
def execWrstDrainDone (s : State) : Host.Outcome State Fault Refusal :=
  match s.life.drain with
  | some x =>
    .next (if x.kind == .wrst && !x.drained && s.requestsDone false then
        (s.drainMends.settleStacks.setDrain { x with drained := true }).setState lcWrstDrain
      else s)
  | none => .next s

/-- WRST_N_RISE (R325). -/
def execWrstNRise (s : State) : Host.Outcome State Fault Refusal := .next (s.setLife { s.life with wrstN := true })

/-! ## PWR_FAIL_N (R321, R326) -/

/-- R321: block writes that were not sent are not sent; their commands' records say ABORTED_RESET. -/
def State.dropUnsent (s : State) : State :=
  (Tab.keys s.ports.port).foldl (fun s p =>
    let s := (s.port p).outq.foldl (fun s w => match s.cmd w.drawer w.pos with
      | some c => s.setCmd w.drawer { c with portStatus := some .abortedReset }
      | none => s) s
    s.setPort p { s.port p with outq := [] }) s

/-- R320, R326: a Bureau write that runs is abandoned; the committed bank stands. -/
def State.abandonBureau (s : State) : State :=
  if s.life.bureau.writing.isNone then s else s.bureauEnd

/-- R321: no shutdown header is written. -/
def State.skipHeader (s : State) : State :=
  ((s.put F.LC_BUREAU_PF_WRITTEN 0 0).put F.LC_BUREAU_PF_SKIPPED 0 1).raise .lifeCycle

/-- R321: may the shutdown header be written? -/
def State.headerDue (s : State) : Bool := s.flag F.LC_BUREAU_PREPARED 0 && !s.flag F.LC_BUREAU_SLOW_FLASH 0

/-- R321: the power-fail sequence begins, with its header where one can be written; `x` is a WRST_N drain that it
overtakes. -/
def State.startPowerFail (s : State) (x : Option Drain) : State :=
  let s := s.abandonBureau
  let h := if s.headerDue then some s.shutHeader else none
  let s := s.when h.isNone State.skipHeader
  let s := s.when h.isSome (·.put F.LC_BUREAU_PF_WRITTEN 0 0)
  match x with
  | some x =>
    (s.setDrain { x with kind := .pf, header := h }).setState (if x.drained && h.isNone then lcPfDone else lcPfDrain)
  | none => (((s.startDrain .pf h).setState lcPfDrain).dropUnsent).cutAll

/-- PWR_FAIL_N_FALL (R321, R313, R326). -/
def execPwrFailNFall (s : State) : Host.Outcome State Fault Refusal :=
  if !s.life.pwrFailN then .next s
  else
    let s := s.setLife { s.life with pwrFailN := false, pfTicks := 0, pfFell := s.life.porstN }
    .next (if !s.life.porstN then s
      else match s.life.drain with
        | some x => if x.kind = .wrst then s.startPowerFail (some x) else s
        | none =>
          if s.lc == lcReleased then s.startPowerFail none
          else if s.lc == lcTraining || s.lc == lcBist || s.lc == lcFill || s.lc == lcWarm then
            (s.startDrain .pfEarly none).skipHeader
          else s)

/-- A state that an outcome goes on with. -/
def nextOr (s : State) (o : Host.Outcome State Fault Refusal) : State := match o with
  | .next t => t
  | _ => s

/-- R321: block writes that wait for an RSP are abandoned. -/
def State.abandonWrites (s : State) : State :=
  (Tab.keys s.ports.port).foldl (fun s p =>
    let s := (s.port p).btags.foldl (fun s e => match e.2 with
      | some b => if b.abandoned then s else match s.cmd b.drawer b.pos with
        | some c => s.setCmd b.drawer { c with portStatus := some .abortedReset }
        | none => s
      | none => s) s
    s.setPort p { s.port p with btags := (s.port p).btags.map fun e => (e.1, e.2.map fun b => { b with abandoned := true }) }) s

/-- One command whose end is still to come, once the cut runs are over: a load leaves its slot empty, a REGION_SET its granules as
they are, a FENCE completes behind what has completed; the others end with ABORTED_RESET. -/
def State.endRest (s : State) (d : Nat) (c : Cmd) : State :=
  if c.phase == .done then s
  else match Op.ofCode c.opcode with
    | some .loadKernel => s.cutLoad d c
    | some .regionSet => s.cutRegion d c
    | some .fence => s.finish d c (if c.argBit 1 0 && d != 0 then .notPermitted else .ok) 0 0
    | _ => s.abort d c 0

/-- Commands whose end is still to come end now. -/
def State.abortRest (s : State) : State :=
  s.busyDrawers.foldl (fun s d => (s.drawer d).cmds.foldl (fun s c => match s.cmd d c.pos with
    | some c => s.endRest d c
    | none => s) s) s

/-- Every command writes its record. -/
def State.completeAll (s : State) : State :=
  s.busyDrawers.foldl (fun s d => (s.drawer d).cmds.foldl (fun s c => nextOr s (execCommandComplete d c.pos s)) s) s

/-- Does an Anvil wait for a stream that a channel out of service holds up? -/
def State.anvilOut (s : State) (a : Nat) : Bool := s.someOut && match (s.anvil a).work with
  | some w => match s.runOf w.drawer w.pos with
    | some r => match s.kernel r.slot with
      | some k => w.part == .drain || s.anvilWaits a k w
      | none => true
    | none => true
  | none => true

/-- Does work go on that no channel out of service holds up: an iteration in a body, or a command that Table 13-7 lets
complete? -/
def State.workLeft (s : State) : Bool :=
  s.anvilsHeld.any (fun a => (s.anvil a).work.isSome && !s.anvilOut a) ||
    s.anyCmd fun d c => c.phase != .done && !s.cuts c && !s.heldUp d c

/-- R321, R322: the commands of a power-fail sequence are over: whole stripe rows are written, block writes abandoned, what
remains ends, and every command writes its record. -/
def State.drainWork (s : State) : State :=
  ((s.drainMends.dropUnsent.abandonWrites.endCutRuns true).abortRest).completeAll

/-- PF_DRAIN_DONE (R321): requests and commands have drained, and dirty lines are in DRAM.  Requests that waited for a command's
record are answered first (R206).  A block that holds meanwhile stays HELD (R312). -/
def execPfDrainDone (s : State) : Host.Outcome State Fault Refusal :=
  match s.life.drain with
  | none => .next s
  | some x =>
    if x.drained || x.kind == .wrst || !s.requestsDone true || x.kind == .pf && s.workLeft then .next s
    else
      let s := s.drainWork
      if !s.requestsDone false then .next s
      else
        let s := s.settleStacks.setDrain { x with drained := true }
        .next (if x.header.isNone && s.lc != lcHeld then s.setState lcPfDone else s)

/-- PF_HEADER_WRITTEN (R321): the shutdown header stands in the prepared bank, which is current. -/
def execPfHeaderWritten (s : State) : Host.Outcome State Fault Refusal :=
  match s.life.drain with
  | none => .next s
  | some x => match x.header with
    | none => .next s
    | some h =>
      let k := 1 - s.fld F.LC_BUREAU_CUR_BANK 0
      let q := s.nextSeq
      let s := s.emit (.flash k h [])
      let s := ((s.put F.LC_BUREAU_CUR_BANK 0 k).put F.LC_BUREAU_SEQ 0 q).put F.LC_BUREAU_PREPARED 0 0
      let s := (s.put F.LC_BUREAU_PF_WRITTEN 0 1).setDrain { x with header := none }
      .next (if x.drained then s.setState lcPfDone else s)

/-- PWR_FAIL_N_RISE (R323): the count of 1 ms starts. -/
def execPwrFailNRise (s : State) : Host.Outcome State Fault Refusal :=
  .next (if s.life.pwrFailN then s else s.setLife { s.life with pwrFailN := true, pfTicks := 0 })

/-! ## Coolant (R307) -/

/-- STOPPED rises. -/
def State.stopped (s : State) : State :=
  if s.flag F.PW_COOL_STOPPED 0 then s
  else ((s.put F.PW_COOL_STOPPED 0 1).countSat F.PW_COOL_STOPS 0 1).raise .power

/-- COOLANT_OK_FALL (R307): THROTTLE_REQ is 15, credits are held and the engines pause. -/
def execCoolantOkFall (s : State) : Host.Outcome State Fault Refusal :=
  if !s.life.coolantOk then .next s
  else
    let s := s.setLife { s.life with coolantOk := false, coolTicks := 0, coolFell := s.life.porstN }
    .next (if !s.flag F.PW_CLK_STAT_PLL_LOCK 0 then s
      else
        let s := (s.setLife { s.life with paused := true }).applyLevels
        s.when s.life.drain.isSome State.stopped)

/-- COOLANT_STOPPED (R307): the channels are in self-refresh; dirty lines stay in the Sideboard, and Planisher units keep
their state. -/
def execCoolantStopped (s : State) : Host.Outcome State Fault Refusal :=
  .next (if !s.life.paused || s.flag F.PW_COOL_STOPPED 0 then s
    else
      let s := ((List.range 256).filter fun n => s.chanState n == 0).foldl (fun s n =>
        (s.put F.CE_PL_STAT_BG_MODE n 0).setChan n { s.chan n with selfRefresh := true, plOrder := [], plBack := (s.chan n).plBack ++ (s.chan n).plOrder }) s
      s.stopped)

/-- COOLANT_OK_RISE (R307): the COOL_HOLD count starts. -/
def execCoolantOkRise (s : State) : Host.Outcome State Fault Refusal :=
  .next (if s.life.coolantOk then s else s.setLife { s.life with coolantOk := true, coolTicks := 0 })

/-- COOLANT_RESUME (R307): the channels leave self-refresh, unless a drain keeps them there, and work resumes. -/
def execCoolantResume (s : State) : Host.Outcome State Fault Refusal :=
  .next (if !s.life.paused || !s.coolReady then s
    else
      let s := s.when s.life.drain.isNone State.wake
      let s := ((s.setLife { s.life with paused := false }).put F.PW_COOL_STOPPED 0 0).applyLevels
      (List.range 32).foldl (fun s p => if (s.port p).returns.isEmpty then s else s.releaseReturns p) s)

/-! ## Warm start (R323, R324) -/

/-- Bits of a register that a warm start keeps. -/
def Reg.keepMask (r : Reg) : Word :=
  (Reg.fields r).foldl (fun m f => if f.keep then m ||| BitVec.ofNat 64 ((2 ^ f.fld.w - 1) * 2 ^ f.fld.lo) else m) 0

/-- R323: a register over a warm start. -/
def warmWord (o : Nat) (w : Word) : Word := match Reg.ofOffset o with
  | some (r, i) => (w &&& Reg.keepMask r) ||| (r.resetWord i &&& ~~~Reg.keepMask r)
  | none => w

/-- Does channel engine `n` go on with a reset or an admission over a warm start (R324)? -/
def State.goesOn (s : State) (n : Nat) : Bool := s.chanState n == 1 || s.chanState n == 2

/-- R323: what of memory a warm start keeps: its contents, the state of integrity, and what a channel out of service
holds. -/
def State.warmMem (s : State) : Mem :=
  { s.mem with
    slices := Tab.restrict s.goesOn s.mem.slices
    chans := s.mem.chans.map fun e => (e.1, if s.goesOn e.1 then { e.2 with plOrder := [], plBack := [] }
      else { Chan.empty with rowCorr := e.2.rowCorr, repairs := e.2.repairs, limits := e.2.limits })
    mends := s.mem.mends.map fun e => (e.1, { e.2 with rows := [] }) }

/-- R323, R324: the ports start anew, but for the tags of requests that a channel out of service holds. -/
def State.warmPorts (s : State) : Ports :=
  let reqs := s.ports.waits.map (·.req) ++ (Tab.keys s.mem.chans).flatMap fun n => (s.chan n).retry.map (·.req)
  { Ports.reset with
    waits := s.ports.waits
    nextSeq := s.ports.nextSeq
    tokens := s.ports.tokens
    port := reqs.foldl (fun t q =>
      let x := Tab.get (fun _ => .empty) t q.port
      Tab.set (fun _ => .empty) t q.port { x with tags := Tab.set (fun _ => false) x.tags q.r.hdr.tag.toNat true }) [] }

/-- R323: the state over a warm start: everything but what is kept is as at reset. -/
def State.warmed (s : State) : State :=
  let regs := s.regs.foldl (fun t e =>
    Tab.set (fun _ => Reg.resetAt e.1) t e.1 (warmWord e.1 e.2)) []
  { State.reset with
    pending := s.pending
    sent := s.sent
    freeCtr := s.freeCtr
    tick := s.tick
    regs := regs
    mem := s.warmMem
    ports := s.warmPorts
    power := { Power.reset with
      fuse := s.power.fuse
      coef := s.power.coef
      cycles := s.power.cycles
      energy := s.power.energy
      lastEnergy := s.power.lastEnergy }
    life := { s.life with
      drain := none
      closing := false
      ready := false
      startTick := s.tick }
    time := { s.time with
      osc := []
      seedBits := none
      arrivals := []
      repeats := []
      released := [] }
    pl := s.pl }

/-- May the warm start begin (R323, R325, R326): the drain has ended and the inputs allow it? -/
def State.warmReady (s : State) : Bool :=
  s.life.wrstN && match s.life.drain with
    | some x => x.drained && match x.kind with
      | .wrst => s.life.pwrFailN && s.lc == lcWrstDrain
      | .pf => s.pfReady && s.lc == lcPfDone
      | .pfEarly => s.pfReady && s.lc == lcPfDone && x.from_ == lcWarm
    | none => false

/-- R326: a coolant stop goes on over a warm start: the channels stay in self-refresh until R307 releases it. -/
def State.keepStopped (s : State) : State :=
  if !s.flag F.PW_COOL_STOPPED 0 then s
  else ((List.range 256).filter fun n => s.chanState n == 0).foldl (fun s n =>
    s.setChan n { s.chan n with selfRefresh := true }) s

/-- WARM_START (R323, R324): steps W1 to W3: the channels in service retrain, those that fail twice are retired, and
BIST stages 1 and 2 run with the check of the pipelines. -/
def execWarmStart (trainFailed bistFailed : List Nat) (checkersOk : Bool) (badPipes : List Nat) (s : State) :
    Host.Outcome State Fault Refusal :=
  if !s.warmReady then .next s
  else
    let cause := match s.life.drain with
      | some x => if x.kind = .wrst then 2 else 3
      | none => 2
    let s := ((s.warmed.setState lcWarm).put F.LC_STAT_START_CAUSE 0 cause).applyLevels.keepStopped
    let r := (s.trainFailed trainFailed).selfTest bistFailed checkersOk badPipes
    .next (if r.1 then r.2 else r.2.setLife { r.2.life with ready := true })

end Sys2Proof.Machine
end

