-- ==== Sys2Proof/Machine/Planish.lean ====
section
/-!
DEFINITION. PLANISH (R136 to R147): the work of the near-bank units on rows of Plain memory, as one command.
-/

namespace Sys2Proof.Machine

open Sys2Proof.Num

/-! ## The array as a unit sees it (R138) -/

/-- Raw bytes of the array. -/
def State.rawBytes (s : State) (a n : Nat) : List Byte :=
  let secs := (List.range ((a % 64 + n + 63) / 64)).flatMap fun i => match s.locate (a / 64 * 64 + 64 * i) with
    | some l => bytesOf 64 (s.rawSector l)
    | none => bytesOf 64 allOnes
  (secs.drop (a % 64)).take n

/-- Bytes written past the Sideboard, with check byte 0x00 in every word of a sector written. -/
def State.putRaw (s : State) (a : Nat) (bs : List Byte) : State :=
  let lo := a / 64 * 64
  let arr := bs.toArray
  (List.range ((a % 64 + bs.length + 63) / 64)).foldl (fun s i => match s.locate (lo + 64 * i) with
    | some l =>
      let old := (bytesOf 64 (s.rawSector l)).toArray
      let new := (List.range 64).map fun j =>
        let x := lo + 64 * i + j
        if a ≤ x ∧ x < a + bs.length then arr.getD (x - a) 0 else old.getD j 0
      (s.writeRaw l (BitVec.ofNat 512 (ofBytes new)) (List.replicate 8 0)).touch (lo + 64 * i)
    | none => s) s

/-- The codes of a row, and their values. -/
def State.rowCodes (s : State) (f : Fmt) (a n : Nat) : List Nat :=
  let w := cellBytes f
  let bs := (s.rawBytes a (n * w)).toArray
  (List.range n).map fun i => ofLane f (ofBytes ((List.range w).map fun j => bs.getD (i * w + j) 0))
def State.rowVals (s : State) (f : Fmt) (a n : Nat) : List Val := (s.rowCodes f a n).map (decode f)

/-- The unit of an address: 8 for each channel engine, 4 for each pseudo-channel (R136, R211, R212). -/
def State.unitOf (s : State) (a : Nat) : Option Nat := (s.locPlain a).map fun l =>
  let c := cellOf true (s.sids (l.n / 32)) l.m l.sector
  8 * l.n + 4 * c.pc + c.bg

/-- Does a segment lie in one unit, and which? -/
def State.segUnit (s : State) (a : Nat) : Option Nat := match s.unitOf a with
  | some u => if s.unitOf (a + segBytes - 1) = some u then some u else none
  | none => none

/-- R141: an operation that pairs elements of several operands needs A, B and the destination co-resident, segment by segment. -/
def State.coResident (s : State) (p : Plan) : Bool :=
  !p.op.pairs ||
    (List.range p.nrows).all fun r => (List.range (rowSegs p.fa p.elems)).all fun j =>
      let u := s.segUnit (p.a + r * p.pitchA + j * segBytes)
      u.isSome
        && (decide (rowSegs p.fb p.elems ≤ j) || s.segUnit (p.b + r * p.pitchB + j * segBytes) == u)
        && (decide (rowSegs p.fd p.elems ≤ j) || s.segUnit (p.d + r * p.pitchD + j * segBytes) == u)

/-! ## The index list of GATHER_SUM (R146) -/

/-- The bags of a list: entries of the bag being read, newest first, and the bags before it. -/
structure Bags where
  cur : List Nat
  len : Nat
  done : List (List Nat)
  bad : Bool

/-- One entry. -/
def Bags.take (b : Bags) (n : Nat) (w : Nat) : Bags :=
  if n ≤ b.done.length || b.bad then b
  else
    let e := w % 2 ^ 31
    if 2 ^ 31 ≤ w then ⟨[], 0, b.done ++ [(e :: b.cur).reverse], false⟩
    else ⟨e :: b.cur, b.len + 1, b.done, decide (65536 ≤ b.len + 1)⟩

/-- What reading a list ends with; `wait` where a part of it cannot be read now (R16, Table 5-10). -/
inductive ListEnd
  | bags (l : List (List Nat))
  | fail (st : Status)
  | wait

/-- Read 64 B of the list at a time until `n` bags have ended; the status is the worst of the reads. -/
def State.readBags (d n : Nat) : Nat → Nat → Bags → Status → State → ListEnd × Status × State
  | 0, _, _, st, s => (.fail .badArg, st, s)
  | fuel + 1, a, b, st, s =>
    if n ≤ b.done.length then (.bags b.done, st, s)
    else match firstFail (s.rangeChecks d [(a, 4)]) with
      | some bad => (.fail bad, st, s)
      | none =>
        if !s.rangesFree [(a, 64)] then (.wait, st, s)
        else
          let r := s.readMem a 64 d
          let st := Status.worst st r.2.1
          if r.2.1 = .dataFault then (.fail .dataFault, st, r.2.2)
          else
            let ws := (List.range 16).map fun i => ofBytes ((r.1.drop (4 * i)).take 4)
            let b := ws.foldl (fun b w => b.take n w) b
            if b.bad then (.fail .badArg, st, r.2.2) else State.readBags d n fuel (a + 64) b st r.2.2

/-- The bags of a gather. -/
def State.bagsOf (s : State) (d : Nat) (p : Plan) : ListEnd × Status × State :=
  State.readBags d p.nrows (p.nrows * 4096 + 1) p.idx ⟨[], 0, [], false⟩ .ok s

/-! ## Rows -/

/-- Are all channels of a range in service? -/
def State.rangeServed (s : State) (a len : Nat) : Bool := (burstsOf a len).all fun b => match s.locPlain (b * 2048) with
  | some l => s.chanState l.n == 0
  | none => false

/-- R147: does a table row lie in the partition's Plain granules? -/
def State.tableRow (s : State) (d a len : Nat) : Bool :=
  !s.badWindow a len && !s.foreign d a len && (granulesOf a len).all fun g => s.granClass g == 0

/-- Does row `r` of a plan meet only channels in service (Table 5-10)? -/
def State.rowServed (s : State) (p : Plan) (r : Nat) (bag : List Nat) : Bool :=
  s.rangeServed (p.d + r * p.pitchD) p.pitchD
    && (if p.op = .gatherSum then
        bag.all fun i => !s.tableRow 0 (p.a + i * p.pitchA) p.pitchA || s.rangeServed (p.a + i * p.pitchA) p.pitchA
      else s.rangeServed (p.a + r * p.pitchA) p.pitchA)
    && (!p.op.pairs || s.rangeServed (p.b + r * p.pitchB) p.pitchB)
    && (!(p.op.gains && p.usesB) || s.rangeServed p.b p.pitchB)

/-- R146: a bag's sums, and whether a contribution clamped. -/
def State.gatherRow (s : State) (p : Plan) (bag : List Nat) : List Val × Bool :=
  let gx := p.scalar.toNat % 256
  let rows := bag.map fun i => (s.rowVals p.fa (p.a + i * p.pitchA) p.elems).map (toWindow gx)
  let sums := rows.foldl (fun acc r => acc.zipWith (fun x y => dxAdd x y.1) r) (List.replicate p.elems (0 : BitVec 64))
  (sums.map (windowVal gx), rows.any fun r => r.any (·.2))

/-- The bytes of a row's DF32 results. -/
def smallRow (vs : List Val) : List Byte := vs.flatMap fun v => bytesOf 4 (canon32 v)

/-- R145: a row's centre and scale, rounded to DF24. -/
def normParams (p : Plan) (x : List Val) : Val × Val :=
  let w := segElems p.fa
  let st := rowStats w x
  let c := if p.op = .normRms then .dy .zero else st.mean
  let v := if p.op = .normRms then divIn .df32 (rowSsq w x) (natVal p.elems) else st.variance
  (op1 .df24 id c, op1 .df24 id (rsqVal (add32 v (decode .df32 p.scalar.toNat))))

/-- The bytes of a row's results: a Fault element makes them Fault (R144), and a row without elements has no mean, maximum or
log-sum (log 57). -/
def statRow (p : Plan) (x : List Val) : List Byte :=
  let n := p.op.small / 4
  if x.any (· == .fault) then smallRow (List.replicate n .fault)
  else if p.elems = 0 ∧ p.op ≠ .rowSsq then bytesOf p.op.small (Config.emptyRow p.op.code)
  else
    let w := segElems p.fa
    smallRow (match p.op with
      | .rowStats => [(rowStats w x).mean, (rowStats w x).variance]
      | .rowSsq => [rowSsq w x]
      | .rowMax => [.dy (largest x)]
      | _ => [rowLse x])

/-- The destination row of an operation other than a gather. -/
def State.planRow (s : State) (p : Plan) (r : Nat) : List Byte :=
  let x := s.rowVals p.fa (p.a + r * p.pitchA) p.elems
  let y := if p.op.pairs then s.rowVals p.fb (p.b + r * p.pitchB) p.elems else []
  let shaped := fun (vs : List Val) => rowImage p.fd vs
  match p.op with
  | .add => shaped (x.zipWith add24 y)
  | .mul => shaped (x.zipWith mul24 y)
  | .fma => shaped ((x.zipWith mul24 y).zipWith add24 (s.rowVals p.fd (p.d + r * p.pitchD) p.elems))
  | .scale => shaped (x.map fun v => mul24 v (decode .df32 p.scalar.toNat))
  | .cvt => shaped x
  | .normCentred | .normRms =>
    let k := normParams p x
    let g := if p.usesB then s.rowVals p.fb p.b p.elems else List.replicate p.elems (.dy ⟨1, 0⟩)
    shaped (x.zipWith (normElem k.1 k.2) g)
  | .rowStats | .rowSsq | .rowMax | .rowLse => statRow p x
  | .gatherSum => []

/-- A row of Fault results (R147). -/
def faultRow (p : Plan) : List Byte :=
  if p.op.small = 0 then rowImage p.fd (List.replicate p.elems .fault) else smallRow (List.replicate (p.op.small / 4) .fault)

/-! ## What a unit is left with (R139, R145) -/

/-- Contents of the segment buffer, the accumulator file and the result area after a command's work are not given (log 58). -/
def State.openBuffers (s : State) (u : Nat) : State :=
  let k := s.freeCtr + 1
  { s with freeCtr := k }.setUnit u { s.unit u with seg := [], acc := [], res := [], openAt := k, step := 0, seen := [], results := 0 }

/-- PCTL of a segment of `n` elements (Table 6-3). -/
def Plan.pctl (p : Plan) (n : Nat) : Word :=
  BitVec.ofNat 64 (p.op.code + plCode p.fa * 2 ^ 8 + (if p.usesB then plCode p.fb else 15) * 2 ^ 12 + plCode p.fd * 2 ^ 16 + n * 2 ^ 20)

/-- The units of a row's segments take their control registers, and for a normalising operation `c` and `s` and their segment of
G: operand row at `a`, with its values `x`. -/
def State.loadUnits (s : State) (p : Plan) (a : Nat) (x : List Val) : State :=
  let w := segElems p.fa
  let k := normParams p x
  (List.range (rowSegs p.fa p.elems)).foldl (fun s j => match s.unitOf (a + j * segBytes) with
    | some u =>
      let s := s.openBuffers u
      let v := s.unit u
      let v := { v with pctl := p.pctl (Nat.min w (p.elems - j * w)), param0 := p.scalar.setWidth 64 }
      let v := if !p.op.gains then v else
        { v with param0 := (canon32 k.2).setWidth 64, param1 := BitVec.ofNat 64 ((canon24 k.1).toNat * 256) }
      let v := if !(p.op.gains && p.usesB) then v else
        { v with payload := (List.range 32).map fun i =>
          (i, BitVec.ofNat 512 (ofBytes (s.rawBytes (p.b + j * segBytes + 64 * i) 64))) }
      s.setUnit u v
    | none => s) s

/-- The units of the segments of a range, and those of them that a second window failure has ended (R147). -/
def State.unitsIn (s : State) (a len : Nat) : List Nat := ((burstsOf a len).filterMap fun b => s.unitOf (b * 2048)).dedup
def State.lostIn (s : State) (rs : List (Nat × Nat)) : Bool := rs.any fun r => (s.unitsIn r.1 r.2).any fun u => (s.unit u).lost

/-- The operand ranges of row `r`. -/
def Plan.rowReads (p : Plan) (r : Nat) (bag : List Nat) : List (Nat × Nat) :=
  if p.op = .gatherSum then bag.map fun i => (p.a + i * p.pitchA, p.pitchA)
  else (p.a + r * p.pitchA, p.pitchA) :: if p.op.pairs then [(p.b + r * p.pitchB, p.pitchB)] else []

/-- A row takes a number of commands that the spec does not give (R292 class 11, log 15). -/
def State.chargeRow (s : State) (d : Nat) : State :=
  { s with freeCtr := s.freeCtr + 1 }.charge d 11 (Config.planisherCommands s.freeCtr)

/-- What has been done so far. -/
structure Done where
  rows : Nat
  status : Status
  stop : Bool

/-- One row of a PLANISH; the first row that meets a channel out of service ends the work (Table 5-10). -/
def State.doRow (s : State) (d : Nat) (p : Plan) (r : Nat) (bag : List Nat) (x : Done) : Done × State :=
  if x.stop || !s.rowServed p r bag then ({ x with stop := true }, s)
  else
    let s := s.chargeRow d
    let at_ := p.d + r * p.pitchD
    let bad := s.lostIn ((at_, p.pitchD) :: p.rowReads r bag)
      || p.op == .gatherSum && !bag.all fun i => s.tableRow d (p.a + i * p.pitchA) p.pitchA
    if bad then (⟨x.rows + 1, .dataFault, false⟩, s.putRaw at_ (faultRow p))
    else if p.op = .gatherSum then
      let g := s.gatherRow p bag
      let s := bag.foldl (fun s i => s.loadUnits p (p.a + i * p.pitchA) []) s
      (⟨x.rows + 1, Status.worst x.status (if g.2 then .okClamped else .ok), false⟩, s.putRaw at_ (rowImage p.fd g.1))
    else
      let row := s.planRow p r
      let s := s.loadUnits p (p.a + r * p.pitchA) (s.rowVals p.fa (p.a + r * p.pitchA) p.elems)
      (⟨x.rows + 1, x.status, false⟩, s.putRaw at_ row)

/-- Bytes `[a, a + len)` of one sector become open. -/
def State.openBytes (s : State) (k a len : Nat) : State := match s.locate (a / 64 * 64) with
  | some l =>
    let old := bytesOf 64 (s.rawSector l)
    let new := old.zipIdx.map fun e => if within (a % 64) len e.2 then Config.openByte (k * 2 ^ 42 + l.index * 72 + e.2) else e.1
    s.writeRaw l (BitVec.ofNat 512 (ofBytes new)) (s.rawChecks l)
  | none => s

/-- The bytes of a Plain range become open, and no byte beside it (Table 5-10). -/
def State.openRange (s : State) (a len : Nat) : State :=
  let k := s.freeCtr
  let s := { s with freeCtr := k + 1 }
  let lo := (a + 63) / 64 * 64
  let hi := (a + len) / 64 * 64
  if hi < lo then s.openBytes k a len
  else
    let new : List Ground := (burstsOf lo (hi - lo)).filterMap fun b =>
      let x := Nat.max lo (b * 2048)
      (s.locPlain x).map fun l => ⟨l.index, l.index + (Nat.min hi ((b + 1) * 2048) - x) / 64, some k⟩
    let mine := fun (i : Nat) => new.any fun g => decide (g.lo ≤ i ∧ i < g.hi)
    let old := s.mem.ground.filter fun g => !new.any fun h => decide (h.lo = g.lo ∧ h.hi = g.hi)
    let s := { s with mem := s.mem.reground mine (new ++ old) }
    (s.openBytes k a (lo - a)).openBytes k hi (a + len - hi)

/-- Is an address in one of some ranges? -/
def inRanges (rs : List (Nat × Nat)) (a : Nat) : Bool := rs.any fun r => within r.1 r.2 a

/-- Does a sector at an address lie in a range, wholly or in part? -/
def wholeIn (r : Nat × Nat) (a : Nat) : Bool := decide (r.1 ≤ a ∧ a + 64 ≤ r.1 + r.2)
def partIn (r : Nat × Nat) (a : Nat) : Bool := overlap a 64 r.1 r.2

/-- Must the start of R16 wait: for a record that holds a range, or for dirty lines of channels in service that cannot go to DRAM
now? -/
def State.openWaits (s : State) (rs : List (Nat × Nat)) : Bool :=
  rs.any (fun r => s.rangeHeld r.1 r.2) ||
    s.dirtyWaits fun a => rs.any (fun r => partIn r a) && s.rangeServed a 64

/-- R16: dirty lines of the operands are written back, the destination's lines invalidated.  Dirty lines that the destination
covers in part are written back first, so that bytes beside a row's result are kept; lines of a channel out of service stay
in its slice (R202). -/
def State.openRows (s : State) (reads : List (Nat × Nat)) (dest : Nat × Nat) (d : Nat) : State :=
  (s.writeBackWhere (fun a => (dest :: reads).any fun r => partIn r a) d).dropWhere fun a =>
    wholeIn dest a || partIn dest a && s.rangeServed a 64

/-! ## The queue (R121) -/

/-- The channels of ranges. -/
def State.chansOf (s : State) (rs : List (Nat × Nat)) : List Nat :=
  (rs.flatMap fun r => (burstsOf r.1 r.2).filterMap fun b => (s.locPlain (b * 2048)).map (·.n)).dedup

/-- The channels in whose Planisher queues a command stands: those it waits in, and before it has come to wait those of its
ranges; a gather whose list is not read stands in every one. -/
def State.queueOf (s : State) (c : Cmd) : List Nat :=
  if !c.queuedOn.isEmpty then c.queuedOn
  else if c.opcode = Op.sample.code then match samplingOf c with
    | some p => s.chansOf [p.range]
    | none => []
  else match planOf c with
    | some p => if p.op = .gatherSum then List.range 256 else s.chansOf (p.dest :: p.reads)
    | none => []

/-- R121: a channel's Planisher queue serves its commands in order of start; an armed command takes its place when its gate has
opened. -/
def State.planTurn (s : State) (c : Cmd) (mine : List Nat) : Bool :=
  !s.busyCmds.any fun x => (x.2.opcode == Op.planish.code || x.2.opcode == Op.sample.code) && decide (x.2.order < c.order)
    && (x.2.phase == .checked || x.2.phase == .running || x.2.phase == .started && !s.isArmed x.1 x.2.pos)
    && (s.queueOf x.2).any mine.contains

/-- The command waits in the queues of its channels. -/
def State.planWaits (s : State) (d : Nat) (c : Cmd) (mine : List Nat) : State :=
  s.setCmd d { c with phase := .running, queuedOn := mine }

/-- The units that a command's work used are free for the next one's. -/
def State.unitsDone (s : State) (rs : List (Nat × Nat)) : State :=
  (rs.flatMap fun r => s.unitsIn r.1 r.2).dedup.foldl (fun s u =>
    if (s.unit u).lost then s.setUnit u { s.unit u with lost := false } else s) s

/-- The table rows that a gather reads. -/
def Plan.table (p : Plan) (bags : List (List Nat)) : List (Nat × Nat) :=
  if p.op = .gatherSum then bags.flatten.dedup.map fun i => (p.a + i * p.pitchA, p.pitchA) else []

/-- The whole work. -/
def State.planWork (s : State) (d : Nat) (c : Cmd) (p : Plan) (bags : List (List Nat)) : State :=
  let reads := p.reads ++ p.table bags
  let mine := s.chansOf (p.dest :: reads)
  if !s.planTurn c mine || s.openWaits (p.dest :: reads) then s.planWaits d c mine
  else
    let s := (s.firstAction d c.pos).openRows reads p.dest d
    let r := (List.range p.nrows).foldl (fun (acc : Done × State) i => acc.2.doRow d p i (bags.getD i []) acc.1)
      (⟨0, .ok, false⟩, s)
    let s := r.2.unitsDone (p.dest :: reads)
    let s := s.when r.1.stop (·.openRange (p.d + r.1.rows * p.pitchD) ((p.nrows - r.1.rows) * p.pitchD))
    s.finish d { c with holds := [⟨p.dest.1, p.dest.2⟩] } (Status.worst r.1.status (if r.1.stop then .abortedReset else .ok)) 0 r.1.rows

/-- The index list of a plan, where it has one. -/
def State.listOf (s : State) (d : Nat) (p : Plan) : ListEnd × Status × State :=
  if p.op = .gatherSum then s.bagsOf d p else (.bags [], .ok, s)

/-- R125, R141, R142: the checks, the index list read on the way. -/
def State.planCheck (s : State) (d : Nat) (c : Cmd) : Option Status × State :=
  match planOf c with
  | none => (some .badArg, s)
  | some p =>
    let l := s.listOf d p
    let s := l.2.2.hasRead d c.pos l.2.1
    match l.1 with
    | .fail st => (some st, s)
    | .bags _ | .wait =>
      let rs := p.dest :: p.reads
      (firstFail (s.rangeChecks d rs ++
        [(rs.any fun r => s.touchesClass 1 r.1 r.2 || s.touchesClass 2 r.1 r.2, .regionClass),
         (!s.coResident p, .badArg)]), s)

/-- Must a PLANISH wait before it can read its index list? -/
def State.listWaits (s : State) (d pos : Nat) : Bool := match s.due d pos .planish true with
  | some c => match planOf c with
    | some p => match (s.listOf d p).1 with
      | .wait => true
      | _ => false
    | none => false
  | none => false

/-- PLANISH (R16, R141 to R147). -/
def execPlanish (d pos : Nat) (s : State) : Host.Outcome State Fault Refusal :=
  if s.listWaits d pos then .next s
  else .next (s.runCmd d pos .planish true (fun s c => s.planCheck d c) fun s c => match planOf c with
    | none => s
    | some p =>
      let l := s.listOf d p
      let s := l.2.2.hasRead d pos l.2.1
      let c := (s.cmd d pos).getD c
      match l.1 with
      | .bags b => s.planWork d c p b
      | .fail st => s.finish d c st 0 0
      | .wait => s)

end Sys2Proof.Machine
end

