-- ==== Sys2Proof/Machine/RegRows.lean ====
section
/-!
DEFINITION. The register writes that have a row of their own (R113, R115, R124, R221, R222, R335), and the row for all
others (R341).
-/

namespace Sys2Proof.Machine

/-- DRAWER_ENABLE (R113). -/
def execDrawerEnable (n : Fin 64) (s : State) : Host.Outcome State Fault Refusal :=
  .next (if s.csrOpen then s.drawerEnable n.val else s)

/-- DRAWER_DISABLE (R124). -/
def execDrawerDisable (n : Fin 64) (s : State) : Host.Outcome State Fault Refusal :=
  .next (if s.csrOpen then s.drawerDisable n.val else s)

/-- DR_DB_WRITE (R115): a CSR write of DR_DBn, both doorbells. -/
def execDrDbWrite (n : Fin 64) (v : Word) (s : State) : Host.Outcome State Fault Refusal :=
  .next (if s.csrOpen then (s.doorBoth n.val v).2 else s)

/-- FLUSH (R221). -/
def execFlush (s : State) : Host.Outcome State Fault Refusal := .next (if s.csrOpen then s.flush else s)

/-- FLUSH_DONE (R221): every dirty line has been written back. -/
def execFlushDone (s : State) : Host.Outcome State Fault Refusal :=
  if !s.flag F.SB_STAT_FLUSHING 0 then .next s
  else if s.dirtyHeld then .next s
  else .next ((s.slicesHeld.foldl State.flushSlice s).put F.SB_STAT_FLUSHING 0 0)

/-- RES_WAYS (R222). -/
def execResWays (v : BitVec 4) (s : State) : Host.Outcome State Fault Refusal :=
  .next (if s.csrOpen then (s.resWays v.toNat).2 else s)

/-- RES_WAYS_DONE (R222): every set fits its ways. -/
def execResWaysDone (s : State) : Host.Outcome State Fault Refusal :=
  if !s.flag F.SB_STAT_RES_CHANGING 0 then .next s
  else
    let s := s.slicesHeld.foldl State.trimSlice s
    .next (if s.trimmed then s.put F.SB_STAT_RES_CHANGING 0 0 else s)

/-- BUREAU_SYNC (R320), by a write of LC_CTL. -/
def execBureauSync (s : State) : Host.Outcome State Fault Refusal := .next (if s.csrOpen then s.bureauEvent else s)

/-- MW_IRQ_SET (R335): cause bits as if their events had occurred. -/
def execMwIrqSet (v : BitVec 8) (s : State) : Host.Outcome State Fault Refusal :=
  .next (if s.csrOpen then s.put F.MW_IRQ_CAUSE_EVENT 0 (s.fld F.MW_IRQ_CAUSE_EVENT 0 ||| v.toNat) else s)

/-- REGISTER_WRITE (R341). -/
def execRegisterWrite (offset : BitVec 24) (v : Word) (s : State) : Host.Outcome State Fault Refusal :=
  .next (if s.csrOpen then (s.csrWrite offset.toNat v).2 else s)

end Sys2Proof.Machine
end

