-- ==== Sys2Proof/Machine/Sampler.lean ====
section
/-!
DEFINITION. SAMPLE (R152 to R156).
-/

namespace Sys2Proof.Machine

open Sys2Proof.Num

/-! ## One row -/

/-- R153: the key of a logit. -/
def logitKey (f : Fmt) (code : Nat) : Nat :=
  if code / 2 ^ (f.width - 1) % 2 = 0 then code + 2 ^ (f.width - 1) else 2 ^ f.width - 1 - code

/-- R153: the key of the k-th largest element. -/
def topKey (k : Nat) (keys : List Nat) : Nat := (keys.insertionSort (fun x y => y ≤ x)).getD (k - 1) 0

/-- R153: T_p, the smallest integer not below p × S. -/
def massLimit (p : Dy) (s : Nat) : Nat :=
  let m := p.m.natAbs * s
  if 0 ≤ p.e then m * 2 ^ p.e.toNat else (m + 2 ^ (-p.e).toNat - 1) / 2 ^ (-p.e).toNat

/-- R153: the largest key at which the mass reaches T_p. -/
def massKey (t : Nat) (l : List (Nat × Nat)) : Nat :=
  let keys := ((l.map (·.1)).insertionSort (fun x y => y ≤ x)).dedup
  (keys.find? fun v => decide (t ≤ ((l.filter fun e => decide (v ≤ e.1)).map (·.2)).foldl (· + ·) 0)).getD 0

/-- R153: key*, the larger of the keys that apply; 0 keeps every element. -/
def Sampling.cutoff (p : Sampling) (l : List (Nat × Nat)) : Nat :=
  let s := (l.map (·.2)).foldl (· + ·) 0
  let k := if 1 ≤ p.topK ∧ p.topK < p.vocab then topKey p.topK (l.map (·.1)) else 0
  let m := if Dy.lt p.topP ⟨1, 0⟩ then massKey (massLimit p.topP s) l else 0
  Nat.max k m

/-- R155 steps 2 to 4: the first element at which the running sum exceeds `t`. -/
def walk (t : Nat) : List Nat → Nat → Nat → Nat
  | [], i, _ => i
  | q :: qs, i, sum => if t < sum + q then i else walk t qs (i + 1) (sum + q)

/-- R152 to R155: the token of a row with the random bits `u`; none for a row that holds a Fault element (R156). -/
def Sampling.token (p : Sampling) (codes : List Nat) (u : Nat) : Option Nat :=
  let vs := codes.map (decode p.fmt)
  if vs.any (· == .fault) then none
  else
    let m := largest vs
    let l := tempScale p.temp
    let el := codes.zipWith (fun c v => (logitKey p.fmt c, weight m l v)) vs
    let cut := p.cutoff el
    let kept := el.map fun e => if cut ≤ e.1 then e.2 else 0
    some (walk (u * kept.foldl (· + ·) 0 / 2 ^ 32) kept 0 0)

/-! ## The command -/

/-- R164: write bytes at any address through the home slices, merging the sectors they do not fill. -/
def State.writeAt (s : State) (a : Nat) (bs : List Byte) (part : Nat) : Status × State :=
  let lo := a / 64 * 64
  let arr := bs.toArray
  (List.range ((a % 64 + bs.length + 63) / 64)).foldl (fun (acc : Status × State) i =>
    let b := lo + 64 * i
    let here := fun j => decide (a ≤ b + j ∧ b + j < a + bs.length)
    let new := BitVec.ofNat 512 (ofBytes ((List.range 64).map fun j => if here j then arr.getD (b + j - a) 0 else 0))
    if (List.range 64).all here then
      let r := acc.2.writeSec b (mkSec new) part
      (Status.worst acc.1 r.1, r.2)
    else
      let g := acc.2.readSec b part
      if g.1.sec.fault then (Status.worst acc.1 .dataFault, g.2)
      else
        let mask := BitVec.ofNat 64 ((List.range 64).foldl (fun v j => if here j then v + 2 ^ j else v) 0)
        let r := g.2.writeQuiet b (mkSec (mergeBytes g.1.sec.data new mask)) part
        (Status.worst (Status.worst acc.1 g.1.st) r.1, r.2)) (.ok, s)

/-- The rows up to the first that meets a channel out of service (Table 5-10): their tokens. -/
def State.sampleRows (s : State) (seed : BitVec 256) (p : Sampling) : List (Option Nat) :=
  ((List.range p.nrows).takeWhile fun r => s.rangeServed (p.logits + r * p.pitch) p.pitch).map fun r =>
    if s.lostIn [(p.logits + r * p.pitch, p.pitch)] then none
    else p.token (s.rowCodes p.fmt (p.logits + r * p.pitch) p.vocab) (Gen.bits seed 32 (p.row0 + r) p.rstream p.draw)

/-- R125, R126: the checks. -/
def State.sampleCheck (s : State) (d : Nat) (c : Cmd) : List (Bool × Status) :=
  match samplingOf c with
  | none => [(true, .badArg)]
  | some p =>
    s.rangeChecks d [p.range, p.dest] ++
      [([p.range, p.dest].any fun r => s.touchesClass 1 r.1 r.2 || s.touchesClass 2 r.1 r.2, .regionClass)]

/-- Values of rows that were not done (Table 5-10). -/
def State.openTokens (s : State) : Nat → List Byte × State
  | 0 => ([], s)
  | n + 1 =>
    let w := s.draw
    let r := w.2.openTokens n
    (bytesOf 4 w.1 ++ r.1, r.2)

/-- The units of a sampled row: the passes of R154 leave registers and buffers that the spec does not give (log 58). -/
def State.openUnits (s : State) (us : List Nat) : State :=
  us.foldl (fun s u =>
    let w0 := s.draw
    let w1 := w0.2.draw
    let w2 := w1.2.draw
    let w3 := w2.2.draw
    let s := w3.2.openBuffers u
    s.setUnit u { s.unit u with pctl := w0.1, param0 := w1.1, param1 := w2.1, param2 := w3.1 }) s

/-- R156: the tokens go to memory and to the port; a row that holds a Fault element, or that a failed unit holds a part of (R140),
counts as one. -/
def State.sampleWork (s : State) (d : Nat) (c : Cmd) (p : Sampling) : State :=
  let mine := s.chansOf [p.range]
  if !s.planTurn c mine || s.openWaits [p.range] || !s.rangesFree [p.dest] then s.planWaits d c mine
  else
    let s := (s.firstAction d c.pos).openRows [p.range] p.dest d
    let toks := s.sampleRows c.seed p
    let n := toks.length
    let bad := (toks.filter (·.isNone)).length
    let bytes := toks.flatMap fun t => bytesOf 4 (BitVec.ofNat 32 (t.getD 0xFFFFFFFF))
    let s := (s.openUnits (s.unitsIn p.range.1 p.range.2)).unitsDone [p.range]
    let s := (s.count F.CR_SMP_ROWS_COUNT F.CR_SMP_ROWS_OVF 0 n).countSat F.CR_SMP_STAT_FAULT_ROWS 0 bad
    let rest := s.openTokens (p.nrows - n)
    let w : Status × State := if p.tokens = 0 then (.ok, s) else rest.2.writeAt p.tokens (bytes ++ rest.1) d
    let s := w.2.when (c.argBit 6 49 && n != 0) fun s =>
      s.queueWrites (c.arg 6 44 5) d c.pos (c.arg 6 50 8) (c.arg 7 0 44) ((sectorsOfBytes bytes).map mkSec) true
    let st := Status.worst (if bad = 0 then .ok else .dataFault) (if n = p.nrows then .ok else .abortedReset)
    (((List.range n).foldl (fun s _ => s.chargeRow d) s).charge d 10 n).finish d { c with holds := [⟨p.dest.1, p.dest.2⟩] } (Status.worst st w.1) 0 n

/-- SAMPLE (R16, R152 to R156). -/
def execSample (d pos : Nat) (s : State) : Host.Outcome State Fault Refusal :=
  .next (s.runCmd d pos .sample true (pureCheck fun s c => s.sampleCheck d c) fun s c => match samplingOf c with
    | some p => s.sampleWork d c p
    | none => s)

end Sys2Proof.Machine
end

