-- ==== Sys2Proof/Machine/Sync.lean ====
section
/-!
DEFINITION. The commands of the SYNC ring and of global time (R268, R281 to R286).
-/

namespace Sys2Proof.Machine

/-- R282: take a frame: copied through where the block takes no part, dropped and counted where its CRC fails. -/
def State.onFrame (s : State) (type : BitVec 4) (f : SyncFrame) (act : State → State) : State :=
  if !s.life.porstN || s.lc == lcPll then s
  else if !s.flag F.GT_CTL_SYNC_EN 0 then s.emit (.sync type f)
  else if syncCrc type f.payload != f.crc then s.countSat F.GT_SYNC_STAT_CRC_DROPS 0 1
  else act s

/-- Field `[lo + n - 1 : lo]` of a payload. -/
def SyncField (f : SyncFrame) (lo n : Nat) : Nat := f.payload.toNat / 2 ^ lo % 2 ^ n

/-- Did this block send an ARRIVE or WITHDRAW? -/
def State.ownFrame (s : State) (f : SyncFrame) : Bool := SyncField f 4 6 == s.fld F.PT_MGT_ID_BLOCK_ID 0

/-- LAST_ALIGN_DELTA: two's complement, saturating (Table 11-10). -/
def alignDelta (d : Int) : Nat := ((max (-32767) (min 32767 d)) % 65536).toNat

/-- R283 step 4: what an applied ALIGN leaves, and the block's own ALIGN. -/
def State.aligned (s : State) (d : Int) : State :=
  let s := (s.put F.GT_CTL_ALIGNED 0 1).put F.GT_SYNC_STAT_LAST_ALIGN_DELTA 0 (alignDelta d)
  s.sendSync syncAlign s.gtc

/-- ALIGN (R283): `since` is GTC now less GTC at the frame's first bit. -/
def execAlign (f : SyncFrame) (since : Nat) (s : State) : Host.Outcome State Fault Refusal :=
  .next (s.onFrame syncAlign f fun s =>
    if s.flag F.GT_CTL_ROOT 0 then s
    else if !s.flag F.GT_CTL_ACCEPT_ALIGN 0 then s.emit (.sync syncAlign f)
    else
      let dly := s.fld F.GT_SYNC_DLY_DLY 0
      let v := (SyncField f 0 64 + since + dly / 16
        + (if dly % 16 ≠ 0 ∧ Config.delayRoundsUp dly then 1 else 0)) % 2 ^ 64
      let g := s.gtc
      if g ≤ v then
        let s := { s with time := { s.time with holdUntil := none } }
        (s.jump v).aligned ((v : Int) - g)
      else { s with time := { s.time with holdUntil := some (s.tick + (g - v)), holdBy := g - v } })

/-- ALIGN_HOLD_END (R283): the tick count has reached V. -/
def execAlignHoldEnd (s : State) : Host.Outcome State Fault Refusal :=
  match s.time.holdUntil with
  | some t =>
    .next (if s.tick < t then s
      else { s with time := { s.time with holdUntil := none } }.aligned (-(s.time.holdBy : Int)))
  | none => .next s

/-- Arrivals the root has counted for a BAR_ID. -/
def State.arrived (s : State) (bar : Nat) : Nat := Tab.get (fun _ => 0) s.time.arrivals bar
def State.setArrived (s : State) (bar n : Nat) : State :=
  { s with time := { s.time with arrivals := Tab.set (fun _ => 0) s.time.arrivals bar n } }

/-- R286: the root sends RELEASE, and will send it again 256 ticks later. -/
def State.sendRelease (s : State) (bar : Nat) : State :=
  let r := (s.gtc + s.fld F.GT_BAR_MARGIN_MARGIN 0) % 2 ^ 64
  let fr := syncFrame syncRelease (BitVec.ofNat 72 (bar + 16 * r))
  let s := (s.setArrived bar 0).emit (.sync syncRelease fr)
  { s with time := { s.time with
      repeats := s.time.repeats ++ [⟨bar, fr, s.tick + 256⟩], released := s.time.released ++ [fr] } }

/-- ARRIVE (R286). -/
def execArrive (f : SyncFrame) (s : State) : Host.Outcome State Fault Refusal :=
  .next (s.onFrame syncArrive f fun s =>
    let s := s.when (!s.ownFrame f) (·.emit (.sync syncArrive f))
    if !s.flag F.GT_CTL_ROOT 0 then s
    else
      let bar := SyncField f 0 4
      let n := s.arrived bar + 1
      if n = SyncField f 10 6 + 1 then s.sendRelease bar else s.setArrived bar n)

/-- WITHDRAW (R286). -/
def execWithdraw (f : SyncFrame) (s : State) : Host.Outcome State Fault Refusal :=
  .next (s.onFrame syncWithdraw f fun s =>
    let s := s.when (!s.ownFrame f) (·.emit (.sync syncWithdraw f))
    let bar := SyncField f 0 4
    s.when (s.flag F.GT_CTL_ROOT 0) fun s => s.setArrived bar (s.arrived bar - 1))

/-- R286: the waiting BARRIER of a BAR_ID takes its first RELEASE. -/
def State.takeRelease (s : State) (bar r : Nat) : State :=
  (List.range 64).foldl (fun s d => match (s.drawer d).barrier with
    | some b =>
      if b.id = bar ∧ b.release.isNone then
        s.setDrawer d { s.drawer d with barrier := some { b with release := some r } }
      else s
    | none => s) s

/-- R282: a RELEASE goes on round the ring, but for one that this block has sent itself: it has come back, and is dropped. -/
def State.passRelease (s : State) (f : SyncFrame) : State :=
  if s.time.released.contains f then { s with time := { s.time with released := s.time.released.erase f } }
  else s.emit (.sync syncRelease f)

/-- RELEASE (R282, R286). -/
def execRelease (f : SyncFrame) (s : State) : Host.Outcome State Fault Refusal :=
  .next (s.onFrame syncRelease f fun s => (s.passRelease f).takeRelease (SyncField f 0 4) (SyncField f 4 64))

/-- RELEASE_REPEAT (R286): the second sending of a RELEASE. -/
def execReleaseRepeat (bar : Fin 16) (s : State) : Host.Outcome State Fault Refusal :=
  match s.time.repeats.find? fun r => r.bar == bar.val && decide (r.due ≤ s.tick) with
  | some r =>
    let s := { s with time := { s.time with repeats := s.time.repeats.erase r } }
    .next (if s.flag F.GT_CTL_SYNC_EN 0 then
        { s with time := { s.time with released := s.time.released ++ [r.frame] } }.emit (.sync syncRelease r.frame)
      else s)
  | none => .next s

/-- SEND_ALIGN (R283), by a write of GT_CTL. -/
def execSendAlign (s : State) : Host.Outcome State Fault Refusal :=
  .next (if s.csrOpen then s.sendAlign else s)

/-- ADVANCE (R268), by a write of GT_STEP. -/
def execAdvance (s : State) : Host.Outcome State Fault Refusal := .next (if s.csrOpen then s.advance else s)

end Sys2Proof.Machine
end

