-- ==== Sys2Proof/Machine/Dispatch.lean ====
section
/-!
DEFINITION. One arm per command: the table of opcode_table.json.
-/

namespace Sys2Proof.Machine

def exec (i : Instr) (s : State) : Host.Outcome State Fault Refusal :=
  match i with
  | .porstNFall => Sys2Proof.Machine.execPorstNFall s
  | .coldPowerUp => Sys2Proof.Machine.execColdPowerUp s
  | .pllLock => Sys2Proof.Machine.execPllLock s
  | .pllLockLoss => Sys2Proof.Machine.execPllLockLoss s
  | .boot romOk => Sys2Proof.Machine.execBoot romOk s
  | .fuse first second senseMv => Sys2Proof.Machine.execFuse first second senseMv s
  | .stageSegment senseMv => Sys2Proof.Machine.execStageSegment senseMv s
  | .stageAbort failDom senseMv => Sys2Proof.Machine.execStageAbort failDom senseMv s
  | .bureauRead sfdpOk slowFlash bank0 bank1 => Sys2Proof.Machine.execBureauRead sfdpOk slowFlash bank0 bank1 s
  | .identityRead sites => Sys2Proof.Machine.execIdentityRead sites s
  | .powerUpWaitEnd => Sys2Proof.Machine.execPowerUpWaitEnd s
  | .training failed => Sys2Proof.Machine.execTraining failed s
  | .bist failed checkersOk badPipes => Sys2Proof.Machine.execBist failed checkersOk badPipes s
  | .fill => Sys2Proof.Machine.execFill s
  | .portRelease => Sys2Proof.Machine.execPortRelease s
  | .wrstNFall => Sys2Proof.Machine.execWrstNFall s
  | .wrstDrainDone => Sys2Proof.Machine.execWrstDrainDone s
  | .warmStart trainFailed bistFailed checkersOk badPipes => Sys2Proof.Machine.execWarmStart trainFailed bistFailed checkersOk badPipes s
  | .pwrFailNFall => Sys2Proof.Machine.execPwrFailNFall s
  | .pfDrainDone => Sys2Proof.Machine.execPfDrainDone s
  | .pfHeaderWritten => Sys2Proof.Machine.execPfHeaderWritten s
  | .pwrFailNRise => Sys2Proof.Machine.execPwrFailNRise s
  | .coolantOkFall => Sys2Proof.Machine.execCoolantOkFall s
  | .coolantStopped => Sys2Proof.Machine.execCoolantStopped s
  | .coolantOkRise => Sys2Proof.Machine.execCoolantOkRise s
  | .coolantResume => Sys2Proof.Machine.execCoolantResume s
  | .droopDetect monitor belowMv => Sys2Proof.Machine.execDroopDetect monitor belowMv s
  | .stretchEnd => Sys2Proof.Machine.execStretchEnd s
  | .lineClassify lineOff monitors => Sys2Proof.Machine.execLineClassify lineOff monitors s
  | .governorInterval => Sys2Proof.Machine.execGovernorInterval s
  | .stackTempRead temps => Sys2Proof.Machine.execStackTempRead temps s
  | .refresh k pc bg => Sys2Proof.Machine.execRefresh k pc bg s
  | .targetOp v senseMv => Sys2Proof.Machine.execTargetOp v senseMv s
  | .opSwitch => Sys2Proof.Machine.execOpSwitch s
  | .nop d pos => Sys2Proof.Machine.execNop d pos s
  | .fence d pos => Sys2Proof.Machine.execFence d pos s
  | .bucketOpen d pos => Sys2Proof.Machine.execBucketOpen d pos s
  | .bucketClose d pos => Sys2Proof.Machine.execBucketClose d pos s
  | .bucketCloseSweepDone base => Sys2Proof.Machine.execBucketCloseSweepDone base s
  | .bucketDiscard d pos => Sys2Proof.Machine.execBucketDiscard d pos s
  | .update d pos => Sys2Proof.Machine.execUpdate d pos s
  | .emit d pos => Sys2Proof.Machine.execEmit d pos s
  | .entryStart d pos => Sys2Proof.Machine.execEntryStart d pos s
  | .loadKernel d pos => Sys2Proof.Machine.execLoadKernel d pos s
  | .copy d pos => Sys2Proof.Machine.execCopy d pos s
  | .fillCmd d pos => Sys2Proof.Machine.execFillCmd d pos s
  | .offloadAct d pos => Sys2Proof.Machine.execOffloadAct d pos s
  | .recallAct d pos => Sys2Proof.Machine.execRecallAct d pos s
  | .recallSend d pos => Sys2Proof.Machine.execRecallSend d pos s
  | .planish d pos => Sys2Proof.Machine.execPlanish d pos s
  | .sample d pos => Sys2Proof.Machine.execSample d pos s
  | .scrub d pos => Sys2Proof.Machine.execScrub d pos s
  | .rebuild d pos => Sys2Proof.Machine.execRebuild d pos s
  | .channelRetire d pos => Sys2Proof.Machine.execChannelRetire d pos s
  | .channelAdmit d pos => Sys2Proof.Machine.execChannelAdmit d pos s
  | .launchAt d pos => Sys2Proof.Machine.execLaunchAt d pos s
  | .launchGateOpen d => Sys2Proof.Machine.execLaunchGateOpen d s
  | .armedFirstAction d => Sys2Proof.Machine.execArmedFirstAction d s
  | .barrier d pos => Sys2Proof.Machine.execBarrier d pos s
  | .barrierGateOpen d => Sys2Proof.Machine.execBarrierGateOpen d s
  | .barrierTimeout d => Sys2Proof.Machine.execBarrierTimeout d s
  | .regionSet d pos => Sys2Proof.Machine.execRegionSet d pos s
  | .partitionSet d pos => Sys2Proof.Machine.execPartitionSet d pos s
  | .powerCap d pos => Sys2Proof.Machine.execPowerCap d pos s
  | .tinker d pos => Sys2Proof.Machine.execTinker d pos s
  | .query d pos => Sys2Proof.Machine.execQuery d pos s
  | .commandStart d => Sys2Proof.Machine.execCommandStart d s
  | .commandComplete d pos => Sys2Proof.Machine.execCommandComplete d pos s
  | .rd p r => Sys2Proof.Machine.execRd p r s
  | .wr p r => Sys2Proof.Machine.execWr p r s
  | .wrFinal p r => Sys2Proof.Machine.execWrFinal p r s
  | .wrFinalLand p tag => Sys2Proof.Machine.execWrFinalLand p tag s
  | .acc p r => Sys2Proof.Machine.execAcc p r s
  | .atom p r => Sys2Proof.Machine.execAtom p r s
  | .rndrd p r => Sys2Proof.Machine.execRndrd p r s
  | .door p r => Sys2Proof.Machine.execDoor p r s
  | .rsp p h => Sys2Proof.Machine.execRsp p h s
  | .rspData p code r => Sys2Proof.Machine.execRspData p code r s
  | .crd p hdr sect => Sys2Proof.Machine.execCrd p hdr sect s
  | .blockWriteSend p => Sys2Proof.Machine.execBlockWriteSend p s
  | .rspTmo p tag => Sys2Proof.Machine.execRspTmo p tag s
  | .starve p tc0 tc1 => Sys2Proof.Machine.execStarve p tc0 tc1 s
  | .regulatorResume part => Sys2Proof.Machine.execRegulatorResume part s
  | .portReset p => Sys2Proof.Machine.execPortReset p s
  | .portResetDone p => Sys2Proof.Machine.execPortResetDone p s
  | .read kind m => Sys2Proof.Machine.execRead kind m s
  | .write m => Sys2Proof.Machine.execWrite m s
  | .enum m => Sys2Proof.Machine.execEnum m s
  | .mgtResponse m => Sys2Proof.Machine.execMgtResponse m s
  | .align f sinceFirstBit => Sys2Proof.Machine.execAlign f sinceFirstBit s
  | .alignHoldEnd => Sys2Proof.Machine.execAlignHoldEnd s
  | .arrive f => Sys2Proof.Machine.execArrive f s
  | .release f => Sys2Proof.Machine.execRelease f s
  | .releaseRepeat bar => Sys2Proof.Machine.execReleaseRepeat bar s
  | .withdraw f => Sys2Proof.Machine.execWithdraw f s
  | .sendAlign => Sys2Proof.Machine.execSendAlign s
  | .advance => Sys2Proof.Machine.execAdvance s
  | .seedReq => Sys2Proof.Machine.execSeedReq s
  | .seedReady => Sys2Proof.Machine.execSeedReady s
  | .seedConsume => Sys2Proof.Machine.execSeedConsume s
  | .nsRestart => Sys2Proof.Machine.execNsRestart s
  | .nsEn on => Sys2Proof.Machine.execNsEn on s
  | .oscSample bits => Sys2Proof.Machine.execOscSample bits s
  | .seedStage k w key => Sys2Proof.Machine.execSeedStage k w key s
  | .seedCommit k key => Sys2Proof.Machine.execSeedCommit k key s
  | .drawerEnable k => Sys2Proof.Machine.execDrawerEnable k s
  | .drawerDisable k => Sys2Proof.Machine.execDrawerDisable k s
  | .drDbWrite k v => Sys2Proof.Machine.execDrDbWrite k v s
  | .flush => Sys2Proof.Machine.execFlush s
  | .flushDone => Sys2Proof.Machine.execFlushDone s
  | .resWays v => Sys2Proof.Machine.execResWays v s
  | .resWaysDone => Sys2Proof.Machine.execResWaysDone s
  | .bureauSync => Sys2Proof.Machine.execBureauSync s
  | .bureauWrite => Sys2Proof.Machine.execBureauWrite s
  | .bureauWriteDone o => Sys2Proof.Machine.execBureauWriteDone o s
  | .errsumRefresh => Sys2Proof.Machine.execErrsumRefresh s
  | .mwIrqSet v => Sys2Proof.Machine.execMwIrqSet v s
  | .registerWrite offset v => Sys2Proof.Machine.execRegisterWrite offset v s
  | .dramReadDone k errs gapParity => Sys2Proof.Machine.execDramReadDone k errs gapParity s
  | .correctWriteBack k => Sys2Proof.Machine.execCorrectWriteBack k s
  | .caPar k => Sys2Proof.Machine.execCaPar k s
  | .phy k => Sys2Proof.Machine.execPhy k s
  | .admission k o => Sys2Proof.Machine.execAdmission k o s
  | .admissionDeadline k => Sys2Proof.Machine.execAdmissionDeadline k s
  | .mendRowIssue c => Sys2Proof.Machine.execMendRowIssue c s
  | .heldRequestRelease p tag => Sys2Proof.Machine.execHeldRequestRelease p tag s
  | .planisherModeEntry k bgs clear => Sys2Proof.Machine.execPlanisherModeEntry k bgs clear s
  | .planisherModeExit k bg => Sys2Proof.Machine.execPlanisherModeExit k bg s
  | .planisherPreempt k bg => Sys2Proof.Machine.execPlanisherPreempt k bg s
  | .planisherWindowWrite addr data hallmark => Sys2Proof.Machine.execPlanisherWindowWrite addr data hallmark s
  | .planisherWindowRead addr received => Sys2Proof.Machine.execPlanisherWindowRead addr received s
  | .planisherOperandAccess k bg acc m sector => Sys2Proof.Machine.execPlanisherOperandAccess k bg acc m sector s
  | .mov ab x => Sys2Proof.Machine.execMov ab x s
  | .add ab x => Sys2Proof.Machine.execAdd ab x s
  | .sub ab x => Sys2Proof.Machine.execSub ab x s
  | .mul ab x => Sys2Proof.Machine.execMul ab x s
  | .fma ab x => Sys2Proof.Machine.execFma ab x s
  | .fms ab x => Sys2Proof.Machine.execFms ab x s
  | .min ab x => Sys2Proof.Machine.execMin ab x s
  | .max ab x => Sys2Proof.Machine.execMax ab x s
  | .abs ab x => Sys2Proof.Machine.execAbs ab x s
  | .neg ab x => Sys2Proof.Machine.execNeg ab x s
  | .sel ab x => Sys2Proof.Machine.execSel ab x s
  | .cmplt ab x => Sys2Proof.Machine.execCmplt ab x s
  | .cmpeq ab x => Sys2Proof.Machine.execCmpeq ab x s
  | .twosum ab x => Sys2Proof.Machine.execTwosum ab x s
  | .ftwosum ab x => Sys2Proof.Machine.execFtwosum ab x s
  | .scale ab x => Sys2Proof.Machine.execScale ab x s
  | .rcp x => Sys2Proof.Machine.execRcp x s
  | .rsq x => Sys2Proof.Machine.execRsq x s
  | .sqrt x => Sys2Proof.Machine.execSqrt x s
  | .exp2 x => Sys2Proof.Machine.execExp2 x s
  | .log2 x => Sys2Proof.Machine.execLog2 x s
  | .lmul x => Sys2Proof.Machine.execLmul x s
  | .ltof x => Sys2Proof.Machine.execLtof x s
  | .ftol x => Sys2Proof.Machine.execFtol x s
  | .ld x => Sys2Proof.Machine.execLd x s
  | .st x => Sys2Proof.Machine.execSt x s
  | .cvt x => Sys2Proof.Machine.execCvt x s
  | .rnd x => Sys2Proof.Machine.execRnd x s
  | .assay x => Sys2Proof.Machine.execAssay x s
  | .hist x => Sys2Proof.Machine.execHist x s
  | .maxacc x => Sys2Proof.Machine.execMaxacc x s
  | .end_ x => Sys2Proof.Machine.execEnd x s
  | .slotNop x => Sys2Proof.Machine.execSlotNop x s
  | .wrstNRise => Sys2Proof.Machine.execWrstNRise s

end Sys2Proof.Machine
end

