-- ==== Sys2Proof/Machine/Tick.lean ====
section
/-!
DEFINITION. What passes with time: one GTC tick, which is what a step does when no command waits (log 2).
-/

namespace Sys2Proof.Machine

/-! ## Clocks (R279, R283, R291, R296) -/

/-- Half ticks in a period of CKCORE: its divider over 2, times the stretch. -/
def State.corePeriod (s : State) : Nat := s.fld F.PW_CLK_STAT_CORE_DIV 0 / 2 * s.power.stretch

/-- R279, R283: GTC counts, unless it holds. -/
def State.gtcTick (s : State) : State :=
  let hold := match s.time.holdUntil with
    | some t => decide (s.tick < t)
    | none => false
  let s := if hold then s else s.put F.GT_TIME_GTC 0 (s.gtc + 1)
  { s with tick := s.tick + 1 }

/-- One CKCORE cycle: a stretched one counts (R296), a starving partner's too (R181), and the Anvils issue. -/
def State.coreCycle (s : State) : State :=
  let s := { s with power := { s.power with cycles := s.power.cycles + 1 } }
  let s := s.when (decide (1 < s.power.stretch)) (·.count F.PW_STRETCH_COUNT F.PW_STRETCH_OVF 0 1)
  let s := ((Tab.keys s.ports.port).filter fun p => (s.port p).starve0 || (s.port p).starve1).foldl
    (fun s p => s.count F.PT_STARVE_COUNT F.PT_STARVE_OVF p 1) s
  if s.anv.anvil.isEmpty && s.anv.runs.isEmpty then s else s.anvilsCycle.endCutRuns false

/-- The CKCORE cycle that ends in a tick, if one does: at OP2 each tick, at OP1 two in three, at OP0 every other. -/
def State.coreTick (s : State) : State :=
  let h := s.power.halfTicks + 2
  if h < s.corePeriod then { s with power := { s.power with halfTicks := h } }
  else { s with power := { s.power with halfTicks := h - s.corePeriod } }.coreCycle

/-! ## Regulators (R224) -/

/-- One partition's accrual in a tick, up to its ceiling. -/
def State.accrue (s : State) (n : Nat) : State :=
  let cap : Int := s.fld F.PA_REG_BURST n * 1024 * 16
  { s with ports := { s.ports with
      tokens := Tab.modify (fun _ => 0) s.ports.tokens n fun t => min cap (t + s.fld F.PA_REG_RATE n) } }

/-! ## Pins and channels (R240, R243, R307, R313) -/

/-- The inputs' high times. -/
def Life.countPins (l : Life) : Life :=
  { l with
    coolTicks := if l.coolantOk then l.coolTicks + 1 else 0
    pfTicks := if l.pwrFailN then l.pfTicks + 1 else 0 }

/-- Ticks from the detection of an error to the end of an engine's reset (R240). -/
def resetTicks : Nat := 3200

/-- R240, R307: an engine in reset goes into admission; stopped time is not counted against its second.  Bank groups that have
Planisher work to go on with enter again (R149, R150). -/
def State.chanTick (s : State) (n : Nat) : State :=
  let s := if (s.chan n).plBack.isEmpty || s.stalled then s else s.reenter n
  match (s.chan n).resetAt with
  | none => s
  | some t =>
    let s := if s.chanState n = 1 ∧ t + resetTicks ≤ s.tick then s.put F.CE_STATE_STATE n 2 else s
    if s.flag F.PW_COOL_STOPPED 0 then s.setChan n { s.chan n with stoppedTicks := (s.chan n).stoppedTicks + 1 } else s

/-! ## Energy and idleness (R292, R305, R306) -/

/-- Static power of the domains that are on, and idle PHY lanes (log 15). -/
def State.staticEnergy (s : State) : State :=
  let on := ((List.range 8).filter fun t => s.flag F.PW_DOM_STAT_ON (t + 1)).length
  ((s.charge 0 14 1).charge 0 15 on).charge 0 13 (Config.idleLanes s.tick)

/-- Has some Anvil, copy mover or Planisher queue work (R306)? -/
def State.hasWork (s : State) : Bool :=
  s.anvilsHeld.any (fun a => (s.anvil a).work.isSome) ||
    s.anyCmd fun _ c => c.phase != .done && [Op.update, .emit, .copy, .fill, .planish].any fun o => c.opcode == o.code

/-- Count an idle tick. -/
def State.idleTick (s : State) : State :=
  if s.hasWork then s else { s with power := { s.power with idleTicks := s.power.idleTicks + 1 } }

/-! ## The tick -/

/-- One tick of 625 ps; without PLL lock only REFCLK runs, and the inputs' high times go on (R289, R290, R313). -/
def State.timeTick (s : State) : State :=
  if !s.life.porstN then s
  else if !s.flag F.PW_CLK_STAT_PLL_LOCK 0 then { s.setLife s.life.countPins with tick := s.tick + 1 }
  else
    let s := ((List.range 64).filter fun n => s.fld F.PA_REG_RATE n != 0).foldl State.accrue s
    let s := s.setLife s.life.countPins
    let s := (Tab.keys s.mem.chans).foldl State.chanTick s
    s.staticEnergy.idleTick.coreTick.gtcTick

end Sys2Proof.Machine
end

