-- ==== Sys2Proof/Safety.lean ====
section
/-!
DEFINITION. What counts as a safe step, and the words in which statements say what a command leaves as it was.
-/

namespace Sys2Proof

/-- A step is safe when it answers a next state: neither a fault nor a refusal. -/
def Safe (s : Machine.State) : Prop := ∃ t, Machine.step s = .next t

namespace Machine

/-- The register words of `t` are those of `s`, but that each listed register reads the word listed with it.  What
an unlisted offset reads as plays no part. -/
def RegsAre (s t : State) (ws : List (Reg × Nat × Word)) : Prop :=
  (∀ e ∈ ws, t.reg e.1 e.2.1 = e.2.2) ∧
    ∀ d o, (∀ e ∈ ws, o ≠ e.1.offset e.2.1) → Tab.get d t.regs o = Tab.get d s.regs o

/-- The register words of `t` are those of `s` at every offset outside `p`. -/
def RegsBut (s t : State) (p : Nat → Prop) : Prop := ∀ d o, ¬p o → Tab.get d t.regs o = Tab.get d s.regs o

/-- A word with the listed fields replaced. -/
def fieldsInto (w : Word) (fs : List (Fld × Nat)) : Word := fs.foldl (fun w e => Fld.into e.1 w e.2) w

/-- MW_IRQ_CAUSE with the bits of the listed causes set (Table 14-7: EVENT begins at bit 4). -/
def State.raisedWord (s : State) (cs : List Cause) : Word :=
  cs.foldl (fun w c => w ||| BitVec.ofNat 64 (2 ^ (4 + c.bit))) (s.reg .MW_IRQ_CAUSE 0)

/-- No accepted request waits: none is held, and every channel's retry buffer is empty. -/
def State.noRequests (s : State) : Prop := s.ports.waits = [] ∧ ∀ n, (s.chan n).retry = []

/-! ## Commands of a Drawer -/

/-- A command of that opcode has started at a position, may run, and is not held armed by a LAUNCH_AT. -/
def State.fresh (s : State) (d pos : Nat) (o : Op) (c : Cmd) : Prop :=
  s.cmd d pos = some c ∧ c.phase = .started ∧ c.opcode = o.code ∧ d < 64 ∧ s.stalled = false ∧ s.isArmed d pos = false

/-- A command whose work has ended, with what its record will say; what it read to learn its work counts in the status (R126). -/
def Cmd.ended (c : Cmd) (st : Status) (detail result : Nat) : Cmd :=
  { c with phase := .done, status := Status.worst st c.soft, detail := detail, result := result, armedClose := false }

/-- Of the started commands only the one at `pos` of Drawer `d` has changed, into `c`; the Drawers' gates are as they
were. -/
def OnlyCmd (s t : State) (d pos : Nat) (c : Cmd) : Prop :=
  t.cmd d pos = some c ∧ (∀ p, p ≠ pos → t.cmd d p = s.cmd d p) ∧ (∀ e, e ≠ d → t.drawer e = s.drawer e) ∧
    t.drawer d = { s.drawer d with cmds := (t.drawer d).cmds }

/-- All parts of the state but the Drawers' commands are as they were. -/
def DrawersOnly (s t : State) : Prop := t = { s with draws := { s.draws with drawer := t.draws.drawer } }

/-! ## Memory -/

/-- The data that the block holds of a sector: in its slice, and in DRAM where the slice does not hold it. -/
def State.now (s : State) (l : Loc) : SectorBits := match s.sliceHas l with
  | some h => h.sec.data
  | none => s.rawSector l

/-- A write to a sector's slice finds its line there, or room for it. -/
def State.hasRoom (s : State) (l : Loc) : Prop :=
  (s.slice l.n).lines.any (fun y => y.unit == l.k / 8) = true ∨
    ((s.slice l.n).lines.filter fun y => y.set == l.k / 8 % 64).length < s.ways

/-- The slices hold the sectors from address `a` on, with these data and good Hallmarks. -/
def State.cached (s : State) (a : Nat) (ds : List SectorBits) : Prop :=
  ∀ i < ds.length, ∃ l, s.locate (a + 64 * i) = some l ∧ (s.sliceHas l).map (·.sec) = some (mkSec (ds.getD i 0))

/-- Only the 256 slices hold lines, and the lines of each name sectors of its channel, once each. -/
def State.linesFit (s : State) : Prop :=
  ∀ n, ((s.slice n).lines.map Line.unit).Nodup ∧ ∀ y ∈ (s.slice n).lines,
    n < 256 ∧ y.unit < 2 ^ 23 ∧ Tab.wf (fun _ => none) y.secs = true ∧ ∀ e ∈ y.secs, e.1 < 8

/-- What the slices hold can go to DRAM and stay what it is: every sector held is sound, no write-back store holds one, none is held for want of a way,
and no bit is about to flip in a gap. -/
def State.sound (s : State) : Prop :=
  s.linesFit ∧ (∀ n, ∀ y ∈ (s.slice n).lines, ∀ e ∈ y.heldSecs, e.2.sec.good = true ∧ e.2.sec.fault = false) ∧
    (∀ n, (s.slice n).store = [] ∧ (s.slice n).late = []) ∧ s.mem.upsets = []

/-- Every channel is in service and takes writes, or its stack is not there; no bank group computes. -/
def State.allServed (s : State) : Prop :=
  ∀ n < 256, (s.chanState n = 0 ∨ s.chanState n = 4) ∧ (s.chan n).selfRefresh = false ∧ s.fld F.CE_PL_STAT_BG_MODE n = 0

/-- Outside the sectors of `p` the array holds what it held, data and check bytes. -/
def State.arrayKept (s t : State) (p : Loc → Prop) : Prop :=
  ∀ l, (∀ x, p x → x.index ≠ l.index) → t.rawSector l = s.rawSector l ∧ t.rawChecks l = s.rawChecks l

/-! ## Ports -/

/-- The command of a request type. -/
def ReqType.instr : ReqType → Nat → PortReq → Instr
  | .rd => .rd | .wr => .wr | .wrFinal => .wrFinal | .acc => .acc | .atom => .atom | .rndrd => .rndrd | .door => .door

/-- R172 steps 1 to 3: the port takes the header, and the request keeps its tag and credits. -/
def State.taken (s : State) (p : Nat) (t : ReqType) (r : PortReq) : Prop :=
  p < 32 ∧ s.life.porstN = true ∧ s.life.closing = false ∧ s.flag F.PT_STAT_FAULT p = false ∧ r.hdr.good t.code = true ∧
    r.hdr.tc.toNat < 2 ∧ 1 ≤ ((s.port p).account r.hdr.p r.hdr.tc.toNat).held.hdr ∧
    carried t r.hdr ≤ ((s.port p).account r.hdr.p r.hdr.tc.toNat).held.sect ∧
    Tab.get (fun _ => false) (s.port p).tags r.hdr.tag.toNat = false

/-- R172 steps 1 to 9: nothing turns the request away or holds it up. -/
def State.accepts (s : State) (p : Nat) (t : ReqType) (r : PortReq) : Prop :=
  s.taken p t r ∧ s.partOk p r.hdr = true ∧ s.formOk t r.hdr = true ∧
    (windowOf r.hdr.a = .memory → s.regionHeld r.hdr.a = false) ∧ s.permitted t r.hdr = true ∧ s.classOk t r.hdr = true ∧
    failing (inbound t r) = 0

/-- A credit return. -/
def Sent.isCredit : Sent → Bool
  | .credit _ _ _ _ _ => true
  | _ => false

/-- Beside credit returns one response has gone out on the port, with these sectors, and its tag is free. -/
def State.answered (s t : State) (p : Nat) (h : ReqHdr) (st : Status) (hm : Bool) (xs : List Sec) : Prop :=
  t.sent.filter (fun o => !o.isCredit) = .rsp p h.tag h.part h.tc st hm xs :: s.sent.filter (fun o => !o.isCredit) ∧
    Tab.get (fun _ => false) (t.port p).tags h.tag.toNat = false

/-- The other ports are as they were. -/
def State.otherPorts (s t : State) (p : Nat) : Prop := ∀ q, q ≠ p → t.port q = s.port q

/-- A channel in service holds one descriptor, an RD of one sector of a Guarded granule that no slice holds, and the stored sector is sound. -/
def State.oneRead (s : State) (n : Nat) (d : Desc) (l : Loc) : Prop :=
  n < 256 ∧ s.chanState n = 0 ∧ (s.chan n).selfRefresh = false ∧ (s.chan n).retry = [d] ∧ s.ports.waits = [] ∧ d.req.kind = .rd ∧
    d.req.r.hdr.len = 1 ∧ s.locate d.req.r.hdr.a = some l ∧ l.n = n ∧ l.k < 32 * s.positions n ∧ s.draws.buckets = [] ∧
    s.sliceHas l = none ∧ s.locMended l = false ∧ s.locPlainClass l = false ∧ s.rawChecks l = sectorChecks (s.rawSector l) ∧
    isPoisoned (s.rawSector l) (s.rawChecks l) = false ∧ (s.slice n).lines = [] ∧ (s.slice n).late = [] ∧ (s.chan n).plBack = [] ∧
    s.fld F.CE_PL_STAT_BG_MODE n = 0 ∧ s.rangeStops d.req = none ∧ d.req.ue = false ∧ s.mem.upsets = [] ∧
    ∀ m, m ≠ n → (s.chan m).retry = []

/-- A unit's window transfer has failed (R140): the second in a row sets WIN_FAIL and ends the unit's work for a running PLANISH or SAMPLE. -/
def State.windowFailed (s t : State) (n u : Nat) : Prop :=
  (1 ≤ (s.unit u).fails → t.fld F.CE_PL_STAT_WIN_FAIL n = 1 ∧ ((t.unit u).lost = true ↔ (s.unit u).lost = true ∨
    (s.anyCmd fun _ c => (c.opcode == Op.planish.code || c.opcode == Op.sample.code) && c.phase != .done) = true)) ∧
  ((s.unit u).fails = 0 → t.fld F.CE_PL_STAT_WIN_FAIL n = s.fld F.CE_PL_STAT_WIN_FAIL n ∧ (t.unit u).lost = (s.unit u).lost) ∧
  ∀ v, v ≠ u → t.unit v = s.unit v

/-! ## Numbers -/

/-- The rational number that a dyadic stands for. -/
def ratOf (a : Num.Dy) : ℚ := a.m * (2 : ℚ) ^ a.e

/-! ## Glizo slots -/

/-- The command of an operation of slots A and B. -/
def AbOp.instr : AbOp → SlotAB → Issue → Instr
  | .mov => .mov | .add => .add | .sub => .sub | .mul => .mul | .fma => .fma | .fms => .fms
  | .min => .min | .max => .max | .abs => .abs | .neg => .neg | .sel => .sel | .cmplt => .cmplt
  | .cmpeq => .cmpeq | .twosum => .twosum | .ftwosum => .ftwosum | .scale => .scale

/-- The command of an operation of slot C. -/
def COp.instr : COp → Issue → Instr
  | .rcp => .rcp | .rsq => .rsq | .sqrt => .sqrt | .exp2 => .exp2 | .log2 => .log2 | .lmul => .lmul
  | .ltof => .ltof | .ftol => .ftol

/-- The command of an operation of slot D. -/
def DOp.instr : DOp → Issue → Instr
  | .ld => .ld | .st => .st | .cvt => .cvt | .rnd => .rnd | .assay => .assay | .hist => .hist
  | .maxacc => .maxacc | .end_ => .end_

/-- An Anvil in service issues a slot word there (R51, R55, R307): `x` is where, and what for. -/
def State.issuesAt (s : State) (i : Issue) (x : Site) : Prop :=
  i.anvil < 128 ∧ s.flag F.AV_ENG_POWERED i.anvil = true ∧ s.stalled = false ∧ s.slotSite i.anvil i.ctx = some x

/-- Only results on their way have come to one Anvil. -/
def State.landed (s t : State) (a : Nat) (ls : List Landing) : Prop :=
  t.anvil a = { s.anvil a with landing := (s.anvil a).landing ++ ls } ∧ (∀ b, b ≠ a → t.anvil b = s.anvil b) ∧
    t = { s with anv := { s.anv with anvil := t.anv.anvil } }

/-- Element `e` of a register as an operand in a format. -/
def Anvil.elem (x : Anvil) (f : Num.Fmt) (r : BitVec 5) (e : Nat) : Num.Val :=
  Num.decode f (Num.ofLane f (laneOf f.lane (x.rd r.toNat) e))

/-- The operands of a slot A or B word by element (R63): srcA, which under MOV with SB is the scalar; srcB, which under SB is the
scalar; srcC. -/
def State.argA (s : State) (o : AbOp) (i : Issue) (x : Site) (e : Nat) : Num.Val :=
  if o = .mov ∧ i.word.sb = true then
    Num.decode i.word.format (scalarCode i.word.format i.word.flt (x.scal.getD []) i.word.srcB.toNat)
  else (s.anvil i.anvil).elem i.word.format i.word.srcA e
def State.argB (s : State) (i : Issue) (x : Site) (e : Nat) : Num.Val :=
  if i.word.sb then Num.decode i.word.format (scalarCode i.word.format i.word.flt (x.scal.getD []) i.word.srcB.toNat)
  else (s.anvil i.anvil).elem i.word.format i.word.srcB e
def State.argC (s : State) (i : Issue) (e : Nat) : Num.Val := (s.anvil i.anvil).elem i.word.format i.word.srcC e

/-- Does an element of width `k` pass the guard of a word? -/
def State.passes (s : State) (i : Issue) (k e : Nat) : Bool := predBit ((s.anvil i.anvil).pred i.word.guardQ) k e

/-- The exact number that an operation of Table 3-5 rounds; none where an operand it uses is Fault. -/
def AbOp.exact : AbOp → Num.Val → Num.Val → Num.Val → Bool → Option Num.Dy
  | .mov, .dy u, _, _, _ => some u
  | .add, .dy u, .dy v, _, _ => some (u.add v)
  | .sub, .dy u, .dy v, _, _ => some (u.sub v)
  | .mul, .dy u, .dy v, _, _ => some (u.mul v)
  | .fma, .dy u, .dy v, .dy w, _ => some ((u.mul v).add w)
  | .fms, .dy u, .dy v, .dy w, _ => some ((u.mul v).sub w)
  | .min, .dy u, .dy v, _, _ => some (if v.lt u then v else u)
  | .max, .dy u, .dy v, _, _ => some (if u.lt v then v else u)
  | .abs, .dy u, _, _, _ => some u.abs
  | .neg, .dy u, _, _, _ => some u.neg
  | .sel, .dy u, _, _, true => some u
  | .sel, _, .dy v, _, false => some v
  | .scale, .dy u, .dy v, _, _ => some (u.scaleBy (Num.scaleExp v))
  | _, _, _, _, _ => none

/-- A slot A or B word issues: it is legal, keeps the width rule, and has its scalar (R55, R63, R77). -/
def State.runsAb (s : State) (o : AbOp) (i : Issue) (x : Site) : Prop :=
  s.issuesAt i x ∧ o.legal i.word = true ∧ x.fits (o.fits i.word) = true ∧ (i.word.sb = true → x.scal.isSome = true)

/-- One result is on its way to register `r` and is visible `lat` cycles on: the lanes of width `k` that `p` names take `f`. -/
def State.lanesLand (s t : State) (a lat r k n : Nat) (p : Nat → Bool) (f : Nat → Nat) : Prop :=
  ∃ l, s.landed t a [l] ∧ l.at_ = (s.anvil a).cyc + lat ∧ l.toQ = false ∧ l.r = r ∧ l.mask.toNat < 2 ^ (k * n) ∧
    ∀ e < n, laneOf k l.mask e = (if p e then 2 ^ k - 1 else 0) ∧ laneOf k l.val e = f e % 2 ^ k

/-- An entry of a run takes new contents; nothing else changes. -/
def State.entryNow (s t : State) (g : Target) (e : Entry) : Prop := t = s.setEntry g.run g.k e

end Machine

end Sys2Proof
end

