-- ==== Sys2Proof/Certificates/Slice0/Obligations.lean ====
section
/-!
DEFINITION. The statements for the provers, by family of commands.  Each says of one or more commands that they
answer a next state, and what that state holds and leaves as it was.
-/

open Sys2Proof Sys2Proof.Machine

/-! ## The queue -/

/-- A step runs the command at the front of the queue on the state with the queue's rest; on an empty queue one tick of 625 ps passes (log
1, log 2: the model's queue). Without PLL lock only the count of ticks and the inputs' high times go on, and with PORST_N low nothing does.
-/
def Obligations.StepTakesFront : Prop :=
  (∀ (c : Instr) (q : List Instr) (s : State), s.pending = c :: q →
      step s = exec c { s with pending := q }) ∧
  (∀ s : State, s.pending = [] → step s = .next s.timeTick) ∧
  (∀ s : State, s.pending = [] → s.life.porstN = true → s.fld F.PW_CLK_STAT_PLL_LOCK 0 = 0 →
    step s = .next { s with
      tick := s.tick + 1
      life := { s.life with
        coolTicks := if s.life.coolantOk then s.life.coolTicks + 1 else 0
        pfTicks := if s.life.pwrFailN then s.life.pfTicks + 1 else 0 } }) ∧
  ∀ s : State, s.pending = [] → s.life.porstN = false → step s = .next s

/-! ## Power-up (13) -/

/-- PORST_N_FALL (R309, R326): every register reads its Reset column, nothing is held or waiting, memory contents are not kept, and the
other pins keep their levels. While PORST_N stays low no port takes a request, MGT answers nothing, no other input starts anything, and time
does not pass (log 5: the pins at reset; log 7: what memory then reads as). -/
def Obligations.PorstResetsEverything : Prop :=
  ∀ s : State, ∃ t, exec .porstNFall s = .next t ∧
    (∀ r i, t.reg r i = r.resetWord i) ∧
    t.mem = .reset ∧ t.draws = .reset ∧ t.anv = .reset ∧ t.pl = [] ∧ t.ports = .reset ∧ t.power = .reset ∧
    t.time = .reset ∧
    t.life = { Life.reset with
      wrstN := s.life.wrstN
      pwrFailN := s.life.pwrFailN
      coolantOk := s.life.coolantOk
      dnPresent := s.life.dnPresent } ∧
    t.pending = s.pending ∧ t.sent = s.sent ∧ t.freeCtr = s.freeCtr ∧
    (∀ (k : ReqType) (p : Nat) (r : PortReq), exec (k.instr p r) t = .next t) ∧
    (∀ (kind : BitVec 4) (m : MgtPkt), exec (.read kind m) t = .next t ∧ exec (.write m) t = .next t ∧ exec (.enum m) t = .next t) ∧
    (∃ u, exec .wrstNFall t = .next u ∧ u = { t with life := { t.life with wrstN := false } }) ∧
    exec .pllLock t = .next t ∧ exec .portRelease t = .next t ∧ exec .porstNFall t = .next t

/-- COLD_POWER_UP, PLL_LOCK and BOOT (R289, R298, R309, R310, R312, R313, R326): with PORST_N low, its rise starts the staging of DCORE in
STATE PLL with START_CAUSE 0, and an input that is low then owes its full time; with DCORE on, the lock starts GTC at 0 and ends step 1; the
ROM check ends step 2, or holds the block with HOLD_CAUSE bit 0 and the life-cycle interrupt. Each leaves everything else. PLL_LOCK_LOSS
(R290, R309): the block is in reset until lock returns and then starts with START_CAUSE 1; memory contents are not kept; HDR_FAULT, which
stands until PORST_N, and DCORE's supply stand.
-/
def Obligations.FirstPowerUpSteps : Prop :=
  ((∀ s : State, s.life.porstN = false → ∃ t, exec .coldPowerUp s = .next t ∧
    RegsAre s t
      [(.LC_STAT, 0, fieldsInto (s.reg .LC_STAT 0) [(F.LC_STAT_STATE, lcPll), (F.LC_STAT_START_CAUSE, 0)]),
       (.PW_DOM_STAT, 0, fieldsInto (s.reg .PW_DOM_STAT 0) [(F.PW_DOM_STAT_STAGING, 1)])] ∧
    t = { s with
      regs := t.regs
      power := { s.power with staging := some ⟨0, 0⟩ }
      life := { s.life with
        porstN := true
        coolTicks := 0
        pfTicks := 0
        coolFell := !s.life.coolantOk
        pfFell := !s.life.pwrFailN
        startTick := 0 } }) ∧
  (∀ s : State, s.life.porstN = true → s.lc = lcPll → s.flag F.PW_CLK_STAT_PLL_LOCK 0 = false →
      s.flag F.PW_DOM_STAT_ON 0 = true → ∃ t, exec .pllLock s = .next t ∧
    RegsAre s t
      [(.PW_CLK_STAT, 0, fieldsInto (s.reg .PW_CLK_STAT 0) [(F.PW_CLK_STAT_PLL_LOCK, 1)]),
       (.GT_TIME, 0, 0#64),
       (.LC_STAT, 0, fieldsInto (s.reg .LC_STAT 0) [(F.LC_STAT_STATE, lcBoot)])] ∧
    t = { s with regs := t.regs }) ∧
  ∀ (ok : Bool) (s : State), s.lc = lcBoot → s.life.drain = none → ∃ t, exec (.boot ok) s = .next t ∧
    t = { s with regs := t.regs } ∧
    if ok then RegsAre s t [(.LC_STAT, 0, fieldsInto (s.reg .LC_STAT 0) [(F.LC_STAT_STATE, lcFuse)])]
    else RegsAre s t
      [(.LC_STAT, 0, fieldsInto (s.reg .LC_STAT 0 ||| 0x40#64) [(F.LC_STAT_STATE, lcHeld)]),
       (.MW_IRQ_CAUSE, 0, s.raisedWord [.lifeCycle])]) ∧
  ∀ s : State, s.flag F.PW_CLK_STAT_PLL_LOCK 0 = true → s.lc ≠ lcHeld → ∃ t, exec .pllLockLoss s = .next t ∧
    t.fld F.PW_CLK_STAT_PLL_LOCK 0 = 0 ∧ t.lc = lcPll ∧ t.fld F.LC_STAT_START_CAUSE 0 = 1 ∧
    (∀ d < 9, t.fld F.PW_DOM_STAT_HDR_FAULT d = s.fld F.PW_DOM_STAT_HDR_FAULT d) ∧
    (∀ d < 9, t.fld F.PW_DOM_STAT_ON d = if d = 0 then s.fld F.PW_DOM_STAT_ON 0 else 0) ∧
    (∀ d < 64, t.flag F.DR_CTL_ENABLE d = false) ∧
    t.mem = .reset ∧ t.draws = .reset ∧ t.anv = .reset ∧ t.ports = .reset ∧ t.pl = [] ∧ t.gtc = 0 ∧
    t.pending = s.pending ∧ t.sent = s.sent ∧ t.freeCtr = s.freeCtr ∧
    t.life.porstN = true

/-- FUSE (R292 to R294): the first image that passes its CRC gives PW_FUSE_OPk, the 16 energy coefficients, each one of its words before the
CRC and in image order, and BOOT_OP, which is entered where every trusted monitor reads its VMIN at least, up to OP_MAX, and otherwise leaves
OP0 with OP_ERR; with no image the built-in values of OP0 hold, FUSE_BAD is set and the power interrupt is raised. The staging of DST0 begins
(log 17: where the image has its fields). -/
def Obligations.FuseReadEntersBootOp : Prop :=
  (∀ (a b : List (BitVec 32)) (sense : Nat) (ms : List Nat) (s : State), s.lc = lcFuse → s.life.drain = none →
    s.flag F.PW_DOM_STAT_HDR_FAULT 1 = false →
    ∃ t, exec (.fuse a b ⟨sense, ms⟩) s = .next t ∧
      t.fld F.PW_CLK_STAT_FUSE_DONE 0 = 1 ∧ t.lc = lcBureau ∧
      t.fld F.PW_DOM_STAT_STAGING 1 = 1 ∧ t.power.staging = some ⟨1, 0⟩ ∧
      t = { s with regs := t.regs, power := { s.power with fuse := t.power.fuse, coef := t.power.coef, staging := t.power.staging } } ∧
      (∀ img, (fuseOk a = true ∧ img = a) ∨ (fuseOk a = false ∧ fuseOk b = true ∧ img = b) →
        (∀ k < 3, t.reg .PW_FUSE_OP k = (Config.fuseOp img k).setWidth 64) ∧
        (∀ c < 16, Tab.get (fun _ => 0#32) t.power.coef c = img.getD (coefficientPlaces.getD c 0) 0) ∧
        t.fld F.PW_CLK_STAT_BOOT_OP 0 = (Config.fuseBootOp img).toNat ∧
        t.fld F.PW_OP_CTL_OP_MAX 0 = s.fld F.PW_OP_CTL_OP_MAX 0 ∧
        ((Config.fuseBootOp img).toNat < 3 ∧ (∀ m < 64, s.bit F.PW_MON_STAT_FAILED 0 (m / 8) = false →
            t.fld F.PW_FUSE_OP_VMIN_MV (Config.fuseBootOp img).toNat ≤ ms.getD m 0) →
          t.fld F.PW_OP_CTL_CUR_OP 0 = Nat.min (Config.fuseBootOp img).toNat (s.fld F.PW_OP_CTL_OP_MAX 0) ∧
          t.reg .MW_IRQ_CAUSE 0 = s.reg .MW_IRQ_CAUSE 0) ∧
        (¬((Config.fuseBootOp img).toNat < 3 ∧ (∀ m < 64, s.bit F.PW_MON_STAT_FAILED 0 (m / 8) = false →
            t.fld F.PW_FUSE_OP_VMIN_MV (Config.fuseBootOp img).toNat ≤ ms.getD m 0)) →
          t.fld F.PW_OP_CTL_CUR_OP 0 = 0 ∧ t.fld F.PW_OP_CTL_OP_ERR 0 = 1 ∧
          t.reg .MW_IRQ_CAUSE 0 = s.raisedWord [.power])) ∧
      (fuseOk a = false → fuseOk b = false →
        t.fld F.PW_CLK_STAT_FUSE_BAD 0 = 1 ∧ t.fld F.PW_OP_CTL_OP_MAX 0 = 0 ∧ t.fld F.PW_OP_CTL_CUR_OP 0 = 0 ∧
        t.fld F.PW_CLK_STAT_CORE_DIV 0 = 8 ∧ t.reg .MW_IRQ_CAUSE 0 = s.raisedWord [.power] ∧
        ∀ k < 3, t.fld F.PW_FUSE_OP_VNOM_MV k = 900 ∧ t.fld F.PW_FUSE_OP_VMIN_MV k = 900 ∧
          t.fld F.PW_FUSE_OP_DROOP_TH k = 60 ∧ t.fld F.PW_FUSE_OP_GUARD k = 30)) ∧
  (∀ c < 16, coefficientPlaces.getD c 0 < 63) ∧
  ∀ c < 15, coefficientPlaces.getD c 0 < coefficientPlaces.getD (c + 1) 0

/-- STAGE_SEGMENT (R298): one more of the 16 segments is on; after the last one the domain is on, where FUSE_DONE is clear or its rail lies
within 3 % of VNOM of the point in force, and the next site domain without HDR_FAULT is staged; where its rail lies outside, staging aborts.
STAGE_ABORT (R299): over the rail of the staging domain, or of an off neighbour without HDR_FAULT that has reached 10 % of VNOM, staging
aborts: the failing domain has HDR_FAULT and its reading, STAGE_ABORTS advances, saturating, and the power interrupt is raised; where the
failing domain is not the staging one, that is staged anew from its first segment. An off neighbour below 10 % of VNOM aborts nothing. -/
def Obligations.StagingTurnsDomainsOn : Prop :=
  (∀ (sense dom seg : Nat) (s : State), s.power.staging = some ⟨dom, seg⟩ → dom < 9 →
    (seg + 1 < 16 → ∃ t, exec (.stageSegment sense) s = .next t ∧
      RegsAre s t [(.PW_DOM_STAT, dom, fieldsInto (s.reg .PW_DOM_STAT dom) [(F.PW_DOM_STAT_SENSE_MV, sense)])] ∧
      t = { s with regs := t.regs, power := { s.power with staging := some ⟨dom, seg + 1⟩ } }) ∧
    (16 ≤ seg + 1 →
      (s.flag F.PW_CLK_STAT_FUSE_DONE 0 = false ∨
        100 * sense ≤ 103 * s.fld F.PW_FUSE_OP_VNOM_MV (s.fld F.PW_OP_CTL_CUR_OP 0) ∧
        97 * s.fld F.PW_FUSE_OP_VNOM_MV (s.fld F.PW_OP_CTL_CUR_OP 0) ≤ 100 * sense) → s.fld F.PW_OP_CTL_CUR_OP 0 < 3 →
      ∃ t, exec (.stageSegment sense) s = .next t ∧
      t.fld F.PW_DOM_STAT_ON dom = 1 ∧ t.fld F.PW_DOM_STAT_STAGING dom = 0 ∧ t.fld F.PW_DOM_STAT_SENSE_MV dom = sense % 2 ^ 12 ∧
      RegsBut s t (fun o => (∃ k < 9, o = Reg.offset .PW_DOM_STAT k) ∨ o = Reg.offset .LC_STAT 0) ∧
      t = { s with regs := t.regs, power := { s.power with staging := t.power.staging } } ∧
      (dom = 0 → t.power.staging = none) ∧
      (∀ k, 1 ≤ dom → dom < k → k < 9 → s.flag F.PW_DOM_STAT_HDR_FAULT k = false →
        (∀ j, dom < j → j < k → s.flag F.PW_DOM_STAT_HDR_FAULT j = true) →
        t.power.staging = some ⟨k, 0⟩ ∧ t.fld F.PW_DOM_STAT_STAGING k = 1 ∧ t.lc = s.lc) ∧
      (1 ≤ dom → (∀ j, dom < j → j < 9 → s.flag F.PW_DOM_STAT_HDR_FAULT j = true) → t.power.staging = none ∧
        t.lc = if s.lc = lcBureau ∧ s.life.bureauDone = true then lcIdentity else s.lc)) ∧
    (16 ≤ seg + 1 → s.flag F.PW_CLK_STAT_FUSE_DONE 0 = true → s.fld F.PW_OP_CTL_CUR_OP 0 < 3 →
      103 * s.fld F.PW_FUSE_OP_VNOM_MV (s.fld F.PW_OP_CTL_CUR_OP 0) < 100 * sense ∨
        100 * sense < 97 * s.fld F.PW_FUSE_OP_VNOM_MV (s.fld F.PW_OP_CTL_CUR_OP 0) →
      ∃ t, exec (.stageSegment sense) s = .next t ∧
        t.fld F.PW_DOM_STAT_HDR_FAULT dom = 1 ∧ t.fld F.PW_DOM_STAT_STAGING dom = 0 ∧
        t.fld F.PW_DOM_STAT_ON dom = s.fld F.PW_DOM_STAT_ON dom ∧ t.fld F.PW_DOM_STAT_SENSE_MV dom = sense % 2 ^ 12 ∧
        t.reg .MW_IRQ_CAUSE 0 = s.raisedWord [.power] ∧
        t = { s with regs := t.regs, power := { s.power with staging := t.power.staging } })) ∧
  (∀ (fail sense dom seg : Nat) (s : State), s.power.staging = some ⟨dom, seg⟩ → dom < 9 → fail < 9 →
    fail = dom ∨ (fail ≠ dom ∧ (dom = 0 ∨ fail = 0 ∨ fail = dom + 1 ∨ dom = fail + 1) ∧
      s.flag F.PW_DOM_STAT_ON fail = false ∧ s.flag F.PW_DOM_STAT_HDR_FAULT fail = false ∧
      (s.flag F.PW_CLK_STAT_FUSE_DONE 0 = false ∨ s.fld F.PW_FUSE_OP_VNOM_MV (s.fld F.PW_OP_CTL_CUR_OP 0) ≤ 10 * sense)) →
    ∃ t, exec (.stageAbort fail sense) s = .next t ∧
      t.fld F.PW_DOM_STAT_HDR_FAULT fail = 1 ∧ t.fld F.PW_DOM_STAT_SENSE_MV fail = sense % 2 ^ 12 ∧
      t.fld F.PW_DOM_STAT_STAGE_ABORTS dom =
        Nat.min (s.fld F.PW_DOM_STAT_STAGE_ABORTS dom + 1) (2 ^ F.PW_DOM_STAT_STAGE_ABORTS.w - 1) ∧
      t.reg .MW_IRQ_CAUSE 0 = s.raisedWord [.power] ∧
      t = { s with regs := t.regs, power := { s.power with staging := t.power.staging } } ∧
      (fail ≠ dom → t.power.staging = some ⟨dom, 0⟩ ∧ t.fld F.PW_DOM_STAT_STAGING dom = 1) ∧
      (fail = dom → t.fld F.PW_DOM_STAT_STAGING dom = 0) ∧
      (fail = dom → dom = 0 → t.power.staging = none) ∧
      (fail = dom → 1 ≤ dom → ∀ k, dom < k → k < 9 → s.flag F.PW_DOM_STAT_HDR_FAULT k = false →
        (∀ j, dom < j → j < k → s.flag F.PW_DOM_STAT_HDR_FAULT j = true) → t.power.staging = some ⟨k, 0⟩)) ∧
  ∀ (fail sense dom seg : Nat) (s : State), s.power.staging = some ⟨dom, seg⟩ → fail ≠ dom →
    s.flag F.PW_CLK_STAT_FUSE_DONE 0 = true → 10 * sense < s.fld F.PW_FUSE_OP_VNOM_MV (s.fld F.PW_OP_CTL_CUR_OP 0) →
    exec (.stageAbort fail sense) s = .next s

/-- BUREAU_READ (R316, R319): without SFDP the Bureau is ABSENT and the life-cycle interrupt raised; of two valid banks the one newer by
serial arithmetic is selected, and bank 0 with ODD where neither is; one valid bank is selected; none sets EMPTY. The retired set is the
union of the RETIRED record and, with SHUT set, SHUT_RETIRED. IDENTITY_READ (R208, R312, R313): a site is used when its answers fail no
check of R208, and REASON names the first that fails; a used site's engines serve, or are retired where the Bureau records it; with no site
used the block holds with HOLD_CAUSE bit 1, and otherwise it trains, or waits where COOLANT_OK or PWR_FAIL_N has not been high long enough.
R311: a channel in service trains from the calibration of the CAL record where its entry is led by its site's identity word (log 18).
-/
def Obligations.BureauAndIdentityAreRead : Prop :=
  (∀ (ok slow : Bool) (b0 b1 : List Byte) (s : State), s.lc = lcBureau → s.life.drain = none → s.life.bureauDone = false →
    ∃ t, exec (.bureauRead ok slow b0 b1) s = .next t ∧ t.life.bureauDone = true ∧
      t = { s with
        regs := t.regs
        life := { s.life with
          bureauDone := true
          bureau := t.life.bureau } } ∧
      t.lc = (if s.power.staging = none then lcIdentity else lcBureau) ∧
      RegsBut s t (fun o => o = Reg.offset .LC_BUREAU 0 ∨ o = Reg.offset .LC_LAST_SHUT 0 ∨ o = Reg.offset .LC_STAT 0 ∨
        o = Reg.offset .MW_IRQ_CAUSE 0) ∧
      (ok = false → t.fld F.LC_BUREAU_ABSENT 0 = 1 ∧ t.reg .MW_IRQ_CAUSE 0 = s.raisedWord [.lifeCycle]) ∧
      (ok = true → t.reg .MW_IRQ_CAUSE 0 = s.reg .MW_IRQ_CAUSE 0 ∧ t.fld F.LC_BUREAU_SLOW_FLASH 0 = if slow then 1 else 0) ∧
      (ok = true → bankValid b0 = false → bankValid b1 = false → t.fld F.LC_BUREAU_EMPTY 0 = 1 ∧ t.life.bureau = s.life.bureau) ∧
      ∀ (k : Nat) (bank other : List Byte), ok = true → bankValid bank = true →
        (k = 0 ∧ bank = b0 ∧ other = b1) ∨ (k = 1 ∧ bank = b1 ∧ other = b0) →
        bankValid other = false ∨
          (1 ≤ (leNat bank 4 4 + 2 ^ 32 - leNat other 4 4) % 2 ^ 32 ∧
            (leNat bank 4 4 + 2 ^ 32 - leNat other 4 4) % 2 ^ 32 < 2 ^ 31) ∨
          (k = 0 ∧ ((leNat bank 4 4 + 2 ^ 32 - leNat other 4 4) % 2 ^ 32 = 0 ∨
            (leNat bank 4 4 + 2 ^ 32 - leNat other 4 4) % 2 ^ 32 = 2 ^ 31)) →
        t.fld F.LC_BUREAU_CUR_BANK 0 = k ∧ t.fld F.LC_BUREAU_SEQ 0 = leNat bank 4 4 % 2 ^ 32 ∧
        t.fld F.LC_BUREAU_ODD 0 = (if bankValid other = true ∧
          ((leNat bank 4 4 + 2 ^ 32 - leNat other 4 4) % 2 ^ 32 = 0 ∨
            (leNat bank 4 4 + 2 ^ 32 - leNat other 4 4) % 2 ^ 32 = 2 ^ 31) then 1 else 0) ∧
        t.fld F.LC_LAST_SHUT_SHUT_VALID 0 = leNat bank 0x12 2 % 2 ∧
        t.life.bureau.retired = (Bureau.decode (bankBody bank).length (bankBody bank) .empty).retired |||
          (if leNat bank 0x12 2 % 2 = 1 then BitVec.ofNat 256 (leNat bank 0x30 32) else 0)) ∧
  ∀ (l : List SiteIdent) (s : State), s.lc = lcIdentity → s.life.drain = none → l.length = 8 → ∃ t, exec (.identityRead l) s = .next t ∧
    t = { s with regs := t.regs, life := { s.life with calib := t.life.calib } } ∧
    (∀ n bs, (n, bs) ∈ t.life.calib ↔ n < 256 ∧ t.chanState n = 0 ∧ 128 * (n + 1) ≤ s.life.bureau.cal.length ∧
      leNat s.life.bureau.cal (128 * n) 4 = (t.reg .SS_IDENT (n / 32)).toNat % 2 ^ 32 ∧
      bs = (s.life.bureau.cal.drop (128 * n + 4)).take 124) ∧
    t.fld F.MW_CONFIG_EXT_LEVEL 0 = 1 ∧
    (∀ k < 8, ∀ x, l[k]? = some x →
      t.fld F.SS_IDENT_REASON k =
        (if x.answers = false ∨ s.flag F.PW_DOM_STAT_ON (k + 1) = false then 1
         else if x.identOk = false then 2
         else if x.extLevel ≠ 1 then 3
         else if x.speed.toNat < 128 then 4
         else if (x.height.toNat, x.density.toNat) ∉ [(8, 24), (8, 32), (8, 48), (12, 32), (12, 48), (16, 24), (16, 32), (16, 48)]
           then 5
         else 0) ∧
      (t.fld F.SS_IDENT_REASON k = 0 → t.fld F.SS_IDENT_USED k = 1 ∧
        t.bit F.MW_CONFIG_SITES_POPULATED 0 k = true ∧
        (∀ c < 32, t.chanState (32 * k + c) = if s.life.bureau.retired.getLsbD (32 * k + c) then 3 else 0) ∧
        ∀ j < 16, t.fld F.AV_ENG_POWERED (16 * k + j) = 1) ∧
      (t.fld F.SS_IDENT_REASON k ≠ 0 → t.fld F.SS_IDENT_USED k = s.fld F.SS_IDENT_USED k ∧
        t.bit F.MW_CONFIG_SITES_POPULATED 0 k = s.bit F.MW_CONFIG_SITES_POPULATED 0 k ∧
        t.fld F.PW_DOM_STAT_ON (k + 1) = 0)) ∧
    ((∀ k < 8, t.bit F.MW_CONFIG_SITES_POPULATED 0 k = false) → t.lc = lcHeld ∧
      t.fld F.LC_STAT_HOLD_CAUSE 0 = s.fld F.LC_STAT_HOLD_CAUSE 0 ||| 2 ∧ t.reg .MW_IRQ_CAUSE 0 = s.raisedWord [.lifeCycle]) ∧
    ((∃ k < 8, t.bit F.MW_CONFIG_SITES_POPULATED 0 k = true) → t.reg .MW_IRQ_CAUSE 0 = s.reg .MW_IRQ_CAUSE 0 ∧
      t.lc = if s.coolReady = true ∧ s.pfReady = true then lcTraining else lcWait)

/-- POWER_UP_WAIT_END, TRAINING, BIST and FILL (R310 to R313, R257, R274): the wait ends in TRAINING, and so does, with the channels awake
again, the stop of a power-up that a warning had interrupted, once PWR_FAIL_N has been high for 1 ms (R326); a step's channels that fail are
retired, and the others stay, where no request waits; failed checkers or pipelines hold the block with HOLD_CAUSE bit 2 or 3; the fill
leaves zero data and valid check bits in every sector of every channel in service. PORT_RELEASE (R314): in the same cycle every port is
RELEASED and holds its shares, STATE is RELEASED, RELEASE_GTC records GTC and the life-cycle interrupt is raised. Memory, Drawers and Anvils
are as before. -/
def Obligations.PowerUpEndsInRelease : Prop :=
  ((∀ s : State, s.lc = lcWait → s.life.drain = none → s.coolReady = true → s.pfReady = true →
    ∃ t, exec .powerUpWaitEnd s = .next t ∧
    RegsAre s t [(.LC_STAT, 0, fieldsInto (s.reg .LC_STAT 0) [(F.LC_STAT_STATE, lcTraining)])] ∧
    t = { s with regs := t.regs }) ∧
  (∀ (x : Drain) (s : State), s.lc = lcPfDone → s.life.drain = some x → x.kind = .pfEarly → x.from_ ≠ lcWarm → s.pfReady = true →
    ∃ t, exec .powerUpWaitEnd s = .next t ∧
    RegsAre s t [(.LC_STAT, 0, fieldsInto (s.reg .LC_STAT 0) [(F.LC_STAT_STATE, lcTraining)])] ∧
    t = { s with
      regs := t.regs
      mem := { s.mem with chans := t.mem.chans }
      life := { s.life with
        drain := none
        closing := false
        ready := false } } ∧
    ∀ n, s.chanState n = 0 → (t.chan n).selfRefresh = false) ∧
  (∀ (l : List Nat) (s : State), s.lc = lcTraining → s.life.drain = none → s.noRequests → (∀ n ∈ l, n < 256) →
    ∃ t, exec (.training l) s = .next t ∧ t.lc = lcBist ∧
      ∀ n < 256, t.chanState n = if n ∈ l ∧ s.chanState n = 0 then 3 else s.chanState n) ∧
  (∀ (l pipes : List Nat) (ok : Bool) (s : State), s.lc = lcBist → s.life.drain = none → s.noRequests →
      (∀ n ∈ l, n < 256) →
    ∃ t, exec (.bist l ok pipes) s = .next t ∧
      t.lc = (if ok = true ∧ pipes = [] then lcFill else lcHeld) ∧
      (ok = false → (t.fld F.LC_STAT_HOLD_CAUSE 0).testBit 2 = true) ∧
      (pipes ≠ [] → (t.fld F.LC_STAT_HOLD_CAUSE 0).testBit 3 = true ∧ t.fld F.CR_NS_STAT_PIPE_FAIL 0 = 1) ∧
      ∀ n < 256, t.chanState n = (if n ∈ l ∧ s.chanState n = 0 then 3 else s.chanState n) ∧
        (n ∈ l → s.chanState n = 0 → t.fld F.CE_STATE_BIST_FAIL n = 1)) ∧
  ∀ s : State, s.lc = lcFill → s.life.drain = none → ∃ t, exec .fill s = .next t ∧
    t = { s with
      mem := t.mem
      freeCtr := t.freeCtr
      power := { s.power with energy := t.power.energy }
      life := { s.life with ready := true } } ∧
    t.mem.slices = s.mem.slices ∧ t.mem.chans = s.mem.chans ∧ t.mem.mends = s.mem.mends ∧
    (∀ l : Loc, l.n < 256 → l.k < 2 ^ 26 → s.chanState l.n = 0 →
      t.rawSector l = 0 ∧ t.rawChecks l = List.replicate 8 0#8) ∧
    ∀ k < 8, verdict (syndrome (sectorWord 0 k) 0) = .clean) ∧
  ∀ s : State, s.life.ready = true → s.life.drain = none → s.lc = lcFill →
    ∃ t, exec .portRelease s = .next t ∧ t.lc = lcReleased ∧
      (∀ p < 32, t.fld F.PT_STAT_RELEASED p = 1) ∧
      t.fld F.LC_RELEASE_RELEASE_GTC 0 = s.gtc ∧
      t.reg .MW_IRQ_CAUSE 0 = s.raisedWord [.lifeCycle] ∧
      t = { s with
        regs := t.regs
        sent := t.sent
        ports := t.ports } ∧
      RegsBut s t (fun o => (∃ p < 32, o = Reg.offset .PT_STAT p) ∨ o = Reg.offset .LC_STAT 0 ∨
        o = Reg.offset .LC_RELEASE 0 ∨ o = Reg.offset .MW_IRQ_CAUSE 0)

/-- WRST_N_FALL, WRST_DRAIN_DONE and WRST_N_RISE (R309, R325, R326, R124): with the clocks running, no drain under way and the block not
held, in service or before it (log 54), the fall discards every command without a record, disables every
Drawer and stops Anvils, and headers are dropped and credit returns held from then on, while memory contents and GTC stand; during a drain, in the hold or with PORST_N low only the level counts; once the
requests are answered, no line of a channel in service is dirty, the channels are in self-refresh and STATE is WRST_DRAIN. -/
def Obligations.WarmResetDrains : Prop :=
  (∀ s : State, s.life.wrstN = true → s.life.porstN = true → s.flag F.PW_CLK_STAT_PLL_LOCK 0 = true → s.lc ≠ lcHeld →
    s.life.drain = none → s.noRequests → ∃ t, exec .wrstNFall s = .next t ∧
      t.life = { s.life with
        wrstN := false
        closing := true
        drain := some ⟨.wrst, s.tick, false, none, s.lc⟩ } ∧
      t.draws = .reset ∧ t.anv = .reset ∧ t.pl = s.pl ∧ t.power = s.power ∧ t.time = s.time ∧ t.sent = s.sent ∧
      (∀ d < 64, t.fld F.DR_CTL_ENABLE d = 0 ∧ t.sqHead d = 0 ∧ t.cqTail d = 0 ∧ t.sqTail d = 0 ∧ t.cqHead d = 0) ∧
      (∀ k < 16, t.reg .AV_KSLOT k = 0) ∧
      (∀ p ∈ Tab.keys s.ports.port, (t.port p).outq = []) ∧
      t.mem.dram = s.mem.dram ∧ t.mem.chk = s.mem.chk ∧ t.mem.ground = s.mem.ground ∧ t.mem.slices = s.mem.slices ∧
      t.gtc = s.gtc ∧ t.lc = s.lc) ∧
  (∀ s : State, s.life.drain ≠ none ∨ s.lc = lcHeld ∨ s.life.porstN = false →
    exec .wrstNFall s = .next { s with life := { s.life with wrstN := false } }) ∧
  (∀ (x : Drain) (s : State), s.life.drain = some x → x.kind = .wrst → x.drained = false → s.requestsDone false = true →
    (∀ n < 256, s.chanState n = 0 → (s.chan n).selfRefresh = false) →
    ∃ t, exec .wrstDrainDone s = .next t ∧ t.lc = lcWrstDrain ∧
      t.life = { s.life with drain := some { x with drained := true } } ∧
      (∀ n < 256, s.chanState n = 0 → (t.slice n).dirtyBursts = [] ∧ (t.chan n).selfRefresh = true ∧
        t.fld F.CE_PL_STAT_BG_MODE n = 0) ∧
      t.draws = s.draws ∧ t.anv = s.anv ∧ t.pl = s.pl ∧ t.gtc = s.gtc) ∧
  ∀ s : State, exec .wrstNRise s = .next { s with life := { s.life with wrstN := true } }

/-- PWR_FAIL_N_FALL (R313, R321, R322, R326): in service the drain begins in STATE PF_DRAIN; every unsent block write is dropped, and its
command's record will say ABORTED_RESET; a running Bureau write is abandoned; with PREPARED set and SLOW_FLASH clear a shutdown header with
SEQ + 1, SHUT and GTC is due, and otherwise PF_SKIPPED is set; then the started commands are cut as Table 13-7 says (the next statement's
State.cutAll). In steps 6 to 9 before release and in a warm start the block drains without a header, dropping requests as before release; a
WRST_N drain becomes the power-fail sequence; during another drain, before those steps and with PORST_N low only the pin counts.
PF_HEADER_WRITTEN: once the header is programmed its bank is current, PREPARED is clear and PF_WRITTEN set. PF_DRAIN_DONE: with the requests
answered and no command left that goes on, what is left of the commands ends, the channels in service hold no dirty line and are in
self-refresh, and STATE is PF_DONE unless the header is still being programmed or the block holds; before that it waits. PWR_FAIL_N_RISE
(R323): the count of 1 ms starts. -/
def Obligations.PowerFailDrains : Prop :=
  ((∀ s : State, s.life.pwrFailN = true → s.life.porstN = true → s.lc = lcReleased → s.life.drain = none →
    ∃ t : State, exec .pwrFailNFall s = .next t.cutAll ∧
      t.lc = lcPfDrain ∧ t.life.pwrFailN = false ∧ t.life.closing = true ∧ t.life.bureau.writing = none ∧ t.gtc = s.gtc ∧
      (∀ p, (t.port p).outq = []) ∧ (∀ n, s.chanState n = 0 → (t.chan n).selfRefresh = false) ∧
      (∀ p, ∀ w ∈ (s.port p).outq, ∀ c, s.cmd w.drawer w.pos = some c →
        (t.cmd w.drawer w.pos).map Cmd.portStatus = some (some .abortedReset)) ∧
      (∀ d, (t.drawer d).cmds.map Cmd.pos = (s.drawer d).cmds.map Cmd.pos) ∧
      t.mem.dram = s.mem.dram ∧ t.mem.slices = s.mem.slices ∧ t.anv = s.anv ∧ t.pl = s.pl ∧
      (s.flag F.LC_BUREAU_PREPARED 0 = true ∧ s.flag F.LC_BUREAU_SLOW_FLASH 0 = false →
        t.life.drain = some ⟨.pf, s.tick, false, some s.shutHeader, lcReleased⟩ ∧
        leNat s.shutHeader 4 4 = (s.fld F.LC_BUREAU_SEQ 0 + 1) % 2 ^ 32 ∧
        leNat s.shutHeader 0x12 2 = 1 ∧ leNat s.shutHeader 0x20 8 = s.gtc) ∧
      (¬(s.flag F.LC_BUREAU_PREPARED 0 = true ∧ s.flag F.LC_BUREAU_SLOW_FLASH 0 = false) →
        t.life.drain = some ⟨.pf, s.tick, false, none, lcReleased⟩ ∧ t.fld F.LC_BUREAU_PF_SKIPPED 0 = 1 ∧
        t.fld F.LC_BUREAU_PF_WRITTEN 0 = 0)) ∧
  (∀ s : State, s.life.pwrFailN = true → s.life.porstN = true → s.life.drain = none →
    s.lc = lcTraining ∨ s.lc = lcBist ∨ s.lc = lcFill ∨ s.lc = lcWarm → ∃ t, exec .pwrFailNFall s = .next t ∧
      t.life = { s.life with
        pwrFailN := false
        pfTicks := 0
        pfFell := true
        closing := false
        drain := some ⟨.pfEarly, s.tick, false, none, s.lc⟩ } ∧
      t.fld F.LC_BUREAU_PF_SKIPPED 0 = 1 ∧ t.fld F.LC_BUREAU_PF_WRITTEN 0 = 0 ∧ t.reg .MW_IRQ_CAUSE 0 = s.raisedWord [.lifeCycle] ∧
      t.lc = s.lc ∧ t.draws = s.draws ∧ t.anv = s.anv ∧ t.ports = s.ports ∧ t.mem.dram = s.mem.dram) ∧
  (∀ (x : Drain) (s : State), s.life.pwrFailN = true → s.life.porstN = true → s.life.drain = some x → x.kind = .wrst →
    ∃ t, exec .pwrFailNFall s = .next t ∧
      t = { s with regs := t.regs, life := t.life } ∧ t.life.pwrFailN = false ∧ t.life.bureau.writing = none ∧
      (∃ h, t.life.drain = some { x with kind := .pf, header := h } ∧
        (s.headerDue = true → h = some s.shutHeader ∧ t.fld F.LC_BUREAU_PF_SKIPPED 0 = s.fld F.LC_BUREAU_PF_SKIPPED 0) ∧
        (s.headerDue = false → h = none ∧ t.fld F.LC_BUREAU_PF_SKIPPED 0 = 1) ∧
        t.lc = if x.drained = true ∧ h = none then lcPfDone else lcPfDrain) ∧ t.fld F.LC_BUREAU_PF_WRITTEN 0 = 0) ∧
  ∀ s : State, s.life.pwrFailN = true → s.life.porstN = false ∨ (∃ x, s.life.drain = some x ∧ x.kind ≠ .wrst) ∨
      (s.life.drain = none ∧ (s.lc < lcTraining ∨ s.lc = lcHeld)) →
    exec .pwrFailNFall s = .next { s with life := { s.life with
      pwrFailN := false
      pfTicks := 0
      pfFell := s.life.porstN } }) ∧
  (∀ (x : Drain) (h : List Byte) (s : State), s.life.drain = some x → x.header = some h →
    ∃ t, exec .pfHeaderWritten s = .next t ∧
      t = { s with
        regs := t.regs
        sent := .flash (1 - s.fld F.LC_BUREAU_CUR_BANK 0) h [] :: s.sent
        life := { s.life with drain := some { x with header := none } } } ∧
      t.fld F.LC_BUREAU_CUR_BANK 0 = 1 - s.fld F.LC_BUREAU_CUR_BANK 0 ∧
      t.fld F.LC_BUREAU_SEQ 0 = (s.fld F.LC_BUREAU_SEQ 0 + 1) % 2 ^ 32 ∧
      t.fld F.LC_BUREAU_PREPARED 0 = 0 ∧ t.fld F.LC_BUREAU_PF_WRITTEN 0 = 1 ∧
      t.lc = (if x.drained then lcPfDone else s.lc) ∧
      RegsBut s t (fun o => o = Reg.offset .LC_BUREAU 0 ∨ o = Reg.offset .LC_STAT 0)) ∧
  (∀ s : State, (∀ x, s.life.drain = some x → x.header = none) → exec .pfHeaderWritten s = .next s) ∧
  (∀ s : State, s.life.pwrFailN = false →
    exec .pwrFailNRise s = .next { s with life := { s.life with
      pwrFailN := true
      pfTicks := 0 } }) ∧
  (∀ s : State, s.life.pwrFailN = true → exec .pwrFailNRise s = .next s) ∧
  ∀ (x : Drain) (s : State), s.life.drain = some x → x.drained = false → x.kind ≠ .wrst →
    (s.requestsDone true = true → (x.kind = .pf → s.workLeft = false) → s.drainWork.requestsDone false = true →
      (∀ n < 256, s.drainWork.chanState n = 0 → (s.drainWork.chan n).selfRefresh = false) →
      ∃ t, exec .pfDrainDone s = .next t ∧
        t.life = { s.drainWork.life with drain := some { x with drained := true } } ∧
        t.lc = (if x.header = none ∧ s.drainWork.lc ≠ lcHeld then lcPfDone else s.drainWork.lc) ∧
        (∀ n < 256, s.drainWork.chanState n = 0 → (t.slice n).dirtyBursts = [] ∧ (t.chan n).selfRefresh = true ∧
          t.fld F.CE_PL_STAT_BG_MODE n = 0) ∧
        t.draws = s.drainWork.draws ∧ t.anv = s.drainWork.anv ∧ t.pl = s.drainWork.pl ∧ t.gtc = s.drainWork.gtc) ∧
    (s.requestsDone true = false ∨ (x.kind = .pf ∧ s.workLeft = true) → exec .pfDrainDone s = .next s)

/-- Commands at a power-fail warning (R321, R322, Table 13-7): each started command is cut by itself, and the record of a cut one says
ABORTED_RESET. COPY, FILL, PLANISH, SAMPLE and a RECALL_ACT that still waits or sends end where they stand; LAUNCH_AT ends with its opening GTC and
its gate gone, BARRIER withdraws; BUCKET_CLOSE leaves its bucket in its state; REGION_SET with INIT leaves class and owner of its granules, no
longer BUSY; a LOAD_KERNEL that no cut run waits for leaves its slot empty; the channel of a CHANNEL_ADMIT stays retired; of an UPDATE or EMIT
no further entry starts; a running SCRUB writes its summary with bit 16 set. A command that Table 13-7 lets complete goes on, an armed one by
itself, and one whose work has ended is left alone. -/
def Obligations.WarningCutsCommands : Prop :=
  (∀ (d : Nat) (c : Cmd) (s : State), d < 64 → (s.drawer d).cmds = [c] → (∀ e < 64, e ≠ d → (s.drawer e).cmds = []) →
    s.cutAll = s.cutCmd d c) ∧
  (∀ (d : Nat) (c : Cmd) (s : State), c.phase = .done → s.cutCmd d c = s) ∧
  (∀ (d : Nat) (c : Cmd) (o : Op) (s : State), c.phase ≠ .done → c.opcode = o.code → s.cmd d c.pos = some c →
    o ∈ [.bucketOpen, .bucketDiscard, .channelRetire, .fence, .nop, .query, .offloadAct, .partitionSet, .powerCap] →
    (c.phase = .armed → OnlyCmd s (s.cutCmd d c) d c.pos { c with phase := .checked } ∧ DrawersOnly s (s.cutCmd d c)) ∧
    (c.phase ≠ .armed → s.cutCmd d c = s)) ∧
  ((∀ (d : Nat) (c : Cmd) (o : Op) (s : State), c.phase ≠ .done → c.opcode = o.code → s.cmd d c.pos = some c →
    o ∈ [.copy, .fill, .planish, .sample] ∨ (o = .recallAct ∧ (c.phase = .running ∨ (s.gtc ≤ (c.w 3).toNat ∧ c.argBit 1 50 = false))) ∨
      (o ∈ [.update, .emit] ∧ s.runOf d c.pos = none) →
    OnlyCmd s (s.cutCmd d c) d c.pos (c.ended .abortedReset 0 0) ∧ DrawersOnly s (s.cutCmd d c)) ∧
  (∀ (d : Nat) (c : Cmd) (r : Run) (s : State), c.phase ≠ .done → c.opcode = Op.update.code ∨ c.opcode = Op.emit.code →
    s.runOf d c.pos = some r →
    (s.cutCmd d c).runOf d c.pos = some { r with cut := true, next := r.entries.length } ∧
      (∀ a w, (s.anvil a).work = some w → w.drawer = d → w.pos = c.pos → ((s.cutCmd d c).anvil a).work = some w.cut) ∧
      (∀ a w, (s.anvil a).work = some w → w.drawer ≠ d ∨ w.pos ≠ c.pos → ((s.cutCmd d c).anvil a).work = some w) ∧
      (s.cutCmd d c).draws = s.draws ∧ (s.cutCmd d c).mem = s.mem) ∧
  (∀ (d : Nat) (c : Cmd) (l : Launch) (s : State), c.phase ≠ .done → c.opcode = Op.launchAt.code → s.cmd d c.pos = some c →
    (s.drawer d).launch = some l →
    (s.cutCmd d c).cmd d c.pos = some (c.ended .abortedReset 0 (l.opened.getD s.gtc)) ∧
      ((s.cutCmd d c).drawer d).launch = none ∧ DrawersOnly s (s.cutCmd d c)) ∧
  (∀ (d : Nat) (c : Cmd) (b : Barrier) (s : State), c.phase ≠ .done → c.opcode = Op.barrier.code → s.cmd d c.pos = some c →
    (s.drawer d).barrier = some b → b.pos = c.pos →
    (∃ r, (s.cutCmd d c).cmd d c.pos = some (c.ended .abortedReset 0 r)) ∧ ((s.cutCmd d c).drawer d).barrier = none ∧
      (s.fld F.GT_CTL_SYNC_EN 0 = 1 → (s.cutCmd d c).sent = .sync 4 (syncFrame 4 (BitVec.ofNat 72
        (b.id + s.fld F.PT_MGT_ID_BLOCK_ID 0 * 16 + b.nblk * 1024))) :: s.sent)) ∧
  (∀ (d : Nat) (c : Cmd) (b : Bucket) (s : State), c.phase ≠ .done → c.opcode = Op.bucketClose.code → s.cmd d c.pos = some c →
    s.draws.buckets = [b] → b.closer = some (d, c.pos) →
    (s.cutCmd d c).cmd d c.pos = some (c.ended .abortedReset 0 0) ∧
      (s.cutCmd d c).draws.buckets = [{ b with closer := none, sweeping := false }] ∧ (s.cutCmd d c).mem = s.mem)) ∧
  (∀ (d lo hi : Nat) (c : Cmd) (s : State), c.phase ≠ .done → c.opcode = Op.regionSet.code → c.argBit 1 28 = true → s.noRequests →
    s.cmd d c.pos = some c → lo = c.arg 1 0 10 → hi = lo + c.arg 1 10 10 → hi ≤ 768 →
    (s.cutCmd d c).cmd d c.pos = some (c.ended .abortedReset 0 0) ∧
      (∀ g, lo ≤ g → g < hi → (s.cutCmd d c).reg .RG_GRAN g = Fld.into F.RG_GRAN_BUSY (s.reg .RG_GRAN g) 0) ∧
      (s.cutCmd d c).mem = s.mem) ∧
  (∀ (d k : Nat) (c : Cmd) (s : State), c.phase ≠ .done → c.opcode = Op.loadKernel.code → s.cmd d c.pos = some c → k = c.arg 1 44 4 →
    s.anv.runs = [] →
    (s.cutCmd d c).cmd d c.pos = some (c.ended .abortedReset 0 0) ∧ (s.cutCmd d c).kernel k = none ∧
      (s.cutCmd d c).reg .AV_KSLOT k = 0 ∧ ∀ j, j ≠ k → (s.cutCmd d c).kernel j = s.kernel j) ∧
  (∀ (d n : Nat) (c : Cmd) (s : State), c.phase ≠ .done → c.opcode = Op.channelAdmit.code → s.cmd d c.pos = some c →
    n = 32 * c.arg 1 0 3 + c.arg 1 3 5 → (s.chan n).admitBy = some (d, c.pos) → s.noRequests →
    (s.cutCmd d c).cmd d c.pos = some (c.ended .abortedReset 0 0) ∧ (s.cutCmd d c).chanState n = 3 ∧
      ∀ m < 256, m ≠ n → (s.cutCmd d c).chanState m = s.chanState m) ∧
  ∀ (d : Nat) (c : Cmd) (j : Job) (l : Loc) (s : State), c.phase = .running → c.opcode = Op.scrub.code → s.cmd d c.pos = some c →
    j = s.job d c.pos → s.touchesClass 2 (c.arg 3 0 44) 64 = false → s.locate (c.arg 3 0 44) = some l → s.chanState l.n = 0 →
    s.hasRoom l →
    (s.cutCmd d c).cmd d c.pos = some (c.ended .abortedReset 0 j.corrected) ∧
      (s.cutCmd d c).now l = ofWords (summaryWords .abortedReset .scrub true
        [j.done, j.corrected, j.bad, j.odd, j.skipped, j.first.getD 0] s.gtc) ∧
      ∀ l', l' ≠ l → (s.cutCmd d c).now l' = s.now l'

/-- WARM_START (R323, R324): after a drain, with the inputs high, the block is in STATE WARM with its START_CAUSE; GTC, MW_CONFIG, the
Bureau image and memory contents are kept; Drawers are disabled, buckets FREE and the kernel store is empty; channels in service that fail
training or the self-test are retired; failed checkers or pipelines hold the block. -/
def Obligations.WarmStartKeepsMemory : Prop :=
  ∀ (a b pipes : List Nat) (ok : Bool) (x : Drain) (s : State), s.life.wrstN = true → s.life.drain = some x →
    x.drained = true →
    (x.kind = .wrst ∧ s.life.pwrFailN = true ∧ s.lc = lcWrstDrain) ∨
      (x.kind = .pf ∧ s.pfReady = true ∧ s.lc = lcPfDone) ∨
      (x.kind = .pfEarly ∧ s.pfReady = true ∧ s.lc = lcPfDone ∧ x.from_ = lcWarm) →
    s.noRequests → (∀ n ∈ a, n < 256) → (∀ n ∈ b, n < 256) →
    ∃ t, exec (.warmStart a b ok pipes) s = .next t ∧
      t.lc = (if ok = true ∧ pipes = [] then lcWarm else lcHeld) ∧
      (ok = true → pipes = [] → t.life.ready = true) ∧
      t.fld F.LC_STAT_START_CAUSE 0 = (if x.kind = .wrst then 2 else 3) ∧
      t.life.drain = none ∧ t.life.closing = false ∧
      t.gtc = s.gtc ∧ t.tick = s.tick ∧ (∀ e ∈ Reg.fields .MW_CONFIG, t.fld e.fld 0 = s.fld e.fld 0) ∧
      t.mem.dram = s.mem.dram ∧ t.mem.chk = s.mem.chk ∧ t.mem.ground = s.mem.ground ∧
      t.draws = .reset ∧ t.anv = .reset ∧
      (∀ d < 64, t.fld F.DR_CTL_ENABLE d = 0) ∧
      (a = [] → b = [] → t.life.bureau = s.life.bureau ∧ t.pl = s.pl) ∧
      ∀ n < 256, t.chanState n = if (n ∈ a ∨ n ∈ b) ∧ s.chanState n = 0 then 3 else s.chanState n

/-- COOLANT_OK_FALL, COOLANT_STOPPED, COOLANT_OK_RISE and COOLANT_RESUME (R307): the fall sets THROTTLE_REQ to 15 and pauses the engines;
then the channels in service are in self-refresh with no bank group in Planisher mode, STOPPED is set and counted and the power interrupt
raised, while dirty lines stay in the Sideboard and Planisher units keep their state; once COOLANT_OK has been high for COOL_HOLD, work
resumes. -/
def Obligations.CoolantStopsAndResumes : Prop :=
  (∀ s : State, s.life.coolantOk = true → s.flag F.PW_CLK_STAT_PLL_LOCK 0 = true → s.life.drain = none →
    ∃ t, exec .coolantOkFall s = .next t ∧
      t.fld F.PW_GOV_STAT_THROTTLE 0 = 15 ∧ t.stalled = true ∧ t.creditsHeld = true ∧
      t.life = { s.life with
        coolantOk := false
        coolTicks := 0
        coolFell := s.life.porstN
        paused := true } ∧
      t = { s with
        regs := t.regs
        life := t.life
        mem := t.mem } ∧
      t.mem.slices = s.mem.slices ∧ t.mem.dram = s.mem.dram ∧ t.mem.chk = s.mem.chk) ∧
  (∀ s : State, s.life.paused = true → s.flag F.PW_COOL_STOPPED 0 = false → ∃ t, exec .coolantStopped s = .next t ∧
      t.fld F.PW_COOL_STOPPED 0 = 1 ∧
      t.fld F.PW_COOL_STOPS 0 = Nat.min (s.fld F.PW_COOL_STOPS 0 + 1) (2 ^ F.PW_COOL_STOPS.w - 1) ∧
      t.reg .MW_IRQ_CAUSE 0 = s.raisedWord [.power] ∧
      t = { s with
        regs := t.regs
        mem := { s.mem with chans := t.mem.chans } } ∧
      ∀ n < 256, s.chanState n = 0 → (t.chan n).selfRefresh = true ∧ t.fld F.CE_PL_STAT_BG_MODE n = 0) ∧
  (∀ s : State, s.life.coolantOk = false →
    exec .coolantOkRise s = .next { s with life := { s.life with
      coolantOk := true
      coolTicks := 0 } }) ∧
  ∀ s : State, s.life.paused = true → s.life.coolantOk = true →
    s.fld F.PW_COOL_COOL_HOLD 0 * 1600000 ≤ s.life.coolTicks → s.life.drain = none → ∃ t, exec .coolantResume s = .next t ∧
      t.stalled = false ∧ t.fld F.PW_COOL_STOPPED 0 = 0 ∧
      (∀ n ∈ Tab.keys s.mem.chans, s.chanState n = 0 → (t.chan n).selfRefresh = false) ∧
      (s.power.crit = false → t.fld F.PW_GOV_STAT_THROTTLE 0 =
        Nat.max (s.fld F.PW_GOV_STAT_THR_BUDGET 0) (s.fld F.PW_GOV_STAT_THR_THERM 0)) ∧
      t.mem.dram = s.mem.dram ∧ t.mem.slices = s.mem.slices ∧ t.draws = s.draws ∧ t.anv = s.anv ∧ t.pl = s.pl

/-! ## Time and power (11, 12) -/

/-- R279, R291: on an empty queue, with the root PLL locked, GTC not held and no Anvil work, one tick passes: GTC counts by one, and the
inputs' high times count; memory and the Drawers stand (log 2: the tick is what a step does on an empty queue). -/
def Obligations.TickAdvancesGtc : Prop :=
  ∀ s : State, s.pending = [] → s.life.porstN = true → s.flag F.PW_CLK_STAT_PLL_LOCK 0 = true → s.time.holdUntil = none →
    s.anv.anvil = [] →
    s.anv.runs = [] → ∃ t, step s = .next t ∧
      t.gtc = (s.gtc + 1) % 2 ^ 64 ∧ t.tick = s.tick + 1 ∧
      t.life = { s.life with
        coolTicks := if s.life.coolantOk then s.life.coolTicks + 1 else 0
        pfTicks := if s.life.pwrFailN then s.life.pfTicks + 1 else 0 } ∧
      t.mem.dram = s.mem.dram ∧ t.mem.slices = s.mem.slices ∧ t.draws = s.draws ∧ t.pl = s.pl ∧ t.pending = []

/-- TARGET_OP and OP_SWITCH (R294, R295): a write while BUSY, of 3 or above OP_MAX is ignored; a raise against too low a supply sets OP_ERR,
raises the power interrupt and leaves CUR_OP; any other change sets BUSY. A change that is due switches the divider; while a droop
response is active or a line is under classification it waits instead, and then switches once no monitor has been below its threshold for
100 CKSLOW cycles (1,600 ticks) since it began to wait (log 55). -/
def Obligations.OperatingPointChanges : Prop :=
  (∀ (v : BitVec 2) (sense : Nat) (s : State), s.csrOpen = true → ∃ t, exec (.targetOp v sense) s = .next t ∧
      t = { s with regs := t.regs } ∧ t.fld F.PW_OP_CTL_CUR_OP 0 = s.fld F.PW_OP_CTL_CUR_OP 0 ∧
      RegsBut s t (fun o => o = Reg.offset .PW_OP_CTL 0 ∨ o = Reg.offset .PW_DOM_STAT 0 ∨ o = Reg.offset .MW_IRQ_CAUSE 0) ∧
      (s.fld F.PW_OP_CTL_BUSY 0 = 1 ∨ v.toNat = 3 ∨ s.fld F.PW_OP_CTL_OP_MAX 0 < v.toNat →
        t.reg .PW_OP_CTL 0 = s.reg .PW_OP_CTL 0 ∧ t.reg .MW_IRQ_CAUSE 0 = s.reg .MW_IRQ_CAUSE 0) ∧
      (s.fld F.PW_OP_CTL_BUSY 0 = 0 → v.toNat < 3 → v.toNat ≤ s.fld F.PW_OP_CTL_OP_MAX 0 →
        (s.fld F.PW_OP_CTL_CUR_OP 0 < v.toNat → sense % 2 ^ 12 < s.fld F.PW_FUSE_OP_VMIN_MV v.toNat →
          t.fld F.PW_OP_CTL_OP_ERR 0 = 1 ∧ t.fld F.PW_OP_CTL_BUSY 0 = 0 ∧ t.reg .MW_IRQ_CAUSE 0 = s.raisedWord [.power]) ∧
        (s.fld F.PW_OP_CTL_CUR_OP 0 < v.toNat → s.fld F.PW_FUSE_OP_VMIN_MV v.toNat ≤ sense % 2 ^ 12 →
          t.reg .PW_OP_CTL 0 = fieldsInto (s.reg .PW_OP_CTL 0) [(F.PW_OP_CTL_TARGET_OP, v.toNat), (F.PW_OP_CTL_BUSY, 1)] ∧
          t.reg .MW_IRQ_CAUSE 0 = s.reg .MW_IRQ_CAUSE 0) ∧
        (v.toNat < s.fld F.PW_OP_CTL_CUR_OP 0 →
          t.reg .PW_OP_CTL 0 = fieldsInto (s.reg .PW_OP_CTL 0) [(F.PW_OP_CTL_TARGET_OP, v.toNat), (F.PW_OP_CTL_BUSY, 1)]))) ∧
  (∀ s : State, s.fld F.PW_OP_CTL_BUSY 0 = 1 →
    ((s.power.opWait = none ∧ s.fld F.PW_MON_STAT_STRETCHING 0 = 0 ∧ s.fld F.PW_MON_STAT_SUSPECT 0 = 0) ∨
      (∃ w, s.power.opWait = some w ∧ w + 1600 ≤ s.tick ∧ s.fld F.PW_MON_STAT_STRETCHING 0 = 0 ∧
        ∀ x, s.power.lastLow = some x → x + 1600 ≤ s.tick) →
      ∃ t, exec .opSwitch s = .next t ∧ t = { s with regs := t.regs, power := { s.power with opWait := none } } ∧
        t.fld F.PW_OP_CTL_BUSY 0 = 0 ∧
        t.fld F.PW_OP_CTL_CUR_OP 0 = Nat.min (s.fld F.PW_OP_CTL_TARGET_OP 0) (s.fld F.PW_OP_CTL_OP_MAX 0) ∧
        t.fld F.PW_CLK_STAT_CORE_DIV 0 = (if t.fld F.PW_OP_CTL_CUR_OP 0 = 2 then 4 else if t.fld F.PW_OP_CTL_CUR_OP 0 = 1 then 6 else 8) ∧
        RegsBut s t (fun o => o = Reg.offset .PW_OP_CTL 0 ∨ o = Reg.offset .PW_CLK_STAT 0)) ∧
    (s.power.opWait = none → s.fld F.PW_MON_STAT_STRETCHING 0 = 1 ∨ s.fld F.PW_MON_STAT_SUSPECT 0 ≠ 0 →
      exec .opSwitch s = .next { s with power := { s.power with opWait := some s.tick } }) ∧
    (∀ w, s.power.opWait = some w → (s.fld F.PW_MON_STAT_STRETCHING 0 = 1 ∨ s.tick < w + 1600 ∨
        ∃ x, s.power.lastLow = some x ∧ s.tick < x + 1600) → exec .opSwitch s = .next s)) ∧
  ∀ s : State, s.fld F.PW_OP_CTL_BUSY 0 = 0 → exec .opSwitch s = .next s

/-- DROOP_DETECT and STRETCH_END (R296, R300): a reading of at least its threshold on a monitor of a line that has not failed starts a
stretch, by 2, or by 4 from twice DROOP_TH on, or deepens the one that runs; WORST_MON keeps the monitor of the lowest reading; the threshold
is DROOP_TH less GUARD with two lines failed or beside a failed line; a reading within 10 mV above it keeps the stretch up, and a higher one
does nothing; a failed line is ignored; the stretch ends once every trusted monitor has read clear for 16 ticks. LINE_CLASSIFY (R300, Table
12-3): every line off by more than 40 mV in the same sense fails LR, which raises the power interrupt once, and trusts all lines; else a line
within 40 mV is trusted, one farther off whose eight monitors are shifted alike beside clear neighbours fails and stays failed, and any other
is suspect; with two lines failed OP_MAX is at most 1 and an OP2 in force is lowered. Before the fuse read none of them does anything. -/
def Obligations.MonitorsStretchTheClock : Prop :=
  ((∀ (m below th : Nat) (s : State), m < 64 → s.flag F.PW_CLK_STAT_FUSE_DONE 0 = true → s.bit F.PW_MON_STAT_FAILED 0 (m / 8) = false →
    th = (if 2 ≤ ((List.range 8).filter fun r => s.bit F.PW_MON_STAT_FAILED 0 r).length ∨
        (0 < m / 8 ∧ s.bit F.PW_MON_STAT_FAILED 0 (m / 8 - 1) = true) ∨ s.bit F.PW_MON_STAT_FAILED 0 (m / 8 + 1) = true
      then s.fld F.PW_FUSE_OP_DROOP_TH (s.fld F.PW_OP_CTL_CUR_OP 0) - s.fld F.PW_FUSE_OP_GUARD (s.fld F.PW_OP_CTL_CUR_OP 0)
      else s.fld F.PW_FUSE_OP_DROOP_TH (s.fld F.PW_OP_CTL_CUR_OP 0)) →
    (th ≤ below → s.fld F.PW_MON_STAT_STRETCHING 0 = 0 → ∃ t, exec (.droopDetect m below) s = .next t ∧
      RegsAre s t [(.PW_MON_STAT, 0, fieldsInto (s.reg .PW_MON_STAT 0)
        [(F.PW_MON_STAT_STRETCHING, 1), (F.PW_MON_STAT_WORST_MON, m)])] ∧
      t = { s with
        regs := t.regs
        power := { s.power with
          stretch := if 2 * s.fld F.PW_FUSE_OP_DROOP_TH (s.fld F.PW_OP_CTL_CUR_OP 0) ≤ below then 4 else 2
          worstMv := below
          lastLow := some s.tick
          lastNear := some s.tick } }) ∧
    (th ≤ below → s.fld F.PW_MON_STAT_STRETCHING 0 = 1 → ∃ t, exec (.droopDetect m below) s = .next t ∧
      t.fld F.PW_MON_STAT_STRETCHING 0 = 1 ∧
      t.fld F.PW_MON_STAT_WORST_MON 0 = (if s.power.worstMv < below then m else s.fld F.PW_MON_STAT_WORST_MON 0) ∧
      RegsBut s t (fun o => o = Reg.offset .PW_MON_STAT 0) ∧
      (∀ f ∈ [F.PW_MON_STAT_SUSPECT, F.PW_MON_STAT_FAILED, F.PW_MON_STAT_LR_FAIL], t.fld f 0 = s.fld f 0) ∧
      t = { s with
        regs := t.regs
        power := { s.power with
          stretch := Nat.max s.power.stretch (if 2 * s.fld F.PW_FUSE_OP_DROOP_TH (s.fld F.PW_OP_CTL_CUR_OP 0) ≤ below then 4 else 2)
          worstMv := Nat.max s.power.worstMv below
          lastLow := some s.tick
          lastNear := some s.tick } }) ∧
    (below < th → th ≤ below + 10 →
      exec (.droopDetect m below) s = .next { s with power := { s.power with lastNear := some s.tick } }) ∧
    (below + 10 < th → exec (.droopDetect m below) s = .next s)) ∧
  (∀ (m below : Nat) (s : State), s.bit F.PW_MON_STAT_FAILED 0 (m / 8) = true ∨ s.flag F.PW_CLK_STAT_FUSE_DONE 0 = false →
    exec (.droopDetect m below) s = .next s) ∧
  (∀ s : State, s.fld F.PW_MON_STAT_STRETCHING 0 = 0 ∨ (∃ x, s.power.lastNear = some x ∧ s.tick < x + 16) →
    exec .stretchEnd s = .next s) ∧
  ∀ s : State, s.fld F.PW_MON_STAT_STRETCHING 0 = 1 → (∀ x, s.power.lastNear = some x → x + 16 ≤ s.tick) →
    ∃ t, exec .stretchEnd s = .next t ∧
      RegsAre s t [(.PW_MON_STAT, 0, fieldsInto (s.reg .PW_MON_STAT 0) [(F.PW_MON_STAT_STRETCHING, 0)])] ∧
      t = { s with
        regs := t.regs
        power := { s.power with
          stretch := 1
          worstMv := 0 } }) ∧
  (∀ (off ms : List Int) (s : State), s.flag F.PW_CLK_STAT_FUSE_DONE 0 = false → exec (.lineClassify off ms) s = .next s) ∧
  ∀ (off ms : List Int) (s : State), s.flag F.PW_CLK_STAT_FUSE_DONE 0 = true → off.length = 8 → ms.length = 64 →
    (((∀ x ∈ off, 40 < x) ∨ ∀ x ∈ off, x < -40) → ∃ t, exec (.lineClassify off ms) s = .next t ∧
      RegsAre s t [(.PW_MON_STAT, 0, fieldsInto (s.reg .PW_MON_STAT 0) [(F.PW_MON_STAT_LR_FAIL, 1), (F.PW_MON_STAT_SUSPECT, 0)]),
        (.MW_IRQ_CAUSE, 0, if s.flag F.PW_MON_STAT_LR_FAIL 0 then s.reg .MW_IRQ_CAUSE 0 else s.raisedWord [.power])] ∧
      t = { s with regs := t.regs }) ∧
    (¬((∀ x ∈ off, 40 < x) ∨ ∀ x ∈ off, x < -40) → ∃ t, exec (.lineClassify off ms) s = .next t ∧
      t = { s with regs := t.regs } ∧
      (∀ r < 8, s.bit F.PW_MON_STAT_FAILED 0 r = true → t.bit F.PW_MON_STAT_FAILED 0 r = true) ∧
      (∀ r < 8, s.bit F.PW_MON_STAT_FAILED 0 r = false →
        ((off.getD r 0).natAbs ≤ 40 → t.bit F.PW_MON_STAT_FAILED 0 r = false ∧ t.bit F.PW_MON_STAT_SUSPECT 0 r = false) ∧
        (40 < (off.getD r 0).natAbs → shiftedAlike (lineReadings ms r) = true ∧ s.besideClear ms r = true →
          t.bit F.PW_MON_STAT_FAILED 0 r = true ∧ t.bit F.PW_MON_STAT_SUSPECT 0 r = false ∧
          t.reg .MW_IRQ_CAUSE 0 = s.raisedWord [.power]) ∧
        (40 < (off.getD r 0).natAbs → ¬(shiftedAlike (lineReadings ms r) = true ∧ s.besideClear ms r = true) →
          t.bit F.PW_MON_STAT_FAILED 0 r = false ∧ t.bit F.PW_MON_STAT_SUSPECT 0 r = true)) ∧
      (2 ≤ ((List.range 8).filter fun r => t.bit F.PW_MON_STAT_FAILED 0 r).length → t.fld F.PW_OP_CTL_OP_MAX 0 ≤ 1 ∧
        (s.fld F.PW_OP_CTL_CUR_OP 0 = 2 → t.fld F.PW_OP_CTL_TARGET_OP 0 = 1 ∧ t.fld F.PW_OP_CTL_BUSY 0 = 1)))

/-- GOVERNOR_INTERVAL (R302, R304): with the last interval's energy `e` and the window's sum `w` over `k` intervals, above 2 × CAP less the
average the first actuator in PRIO order below its top level rises by one, or, with all at the top, thr_budget rises up to 15 and AT_FLOOR
is set; THROTTLE_REQ is the larger of thr_budget and thr_therm unless R303 or R307 holds it at 15. STACK_TEMP_READ (R303, R304, R315): with
T the highest reading of the used sites, thr_therm follows its formula, PL is held at level 1 from TH_START on, ACT rises by one level with
a reading at or above TH_START and not below the previous one, and falls below TH_START − 3; at TH_CRIT ACT is at level 4 and THROTTLE_REQ
is 15. -/
def Obligations.GovernorAndHeatThrottle : Prop :=
  (∀ (e w k : Nat) (s : State), s.flag F.PW_CLK_STAT_PLL_LOCK 0 = true → k = 100 * s.fld F.PW_GOV_CFG_WINDOW 0 → k ≤ 1000000 →
    e = s.blockEnergy - s.power.lastEnergy → w = ((e :: s.power.intervals).take k).foldl (· + ·) 0 →
    ∃ t, exec .governorInterval s = .next t ∧
      t.power.lastEnergy = s.blockEnergy ∧ t.power.idleTicks = 0 ∧ t.power.energy = s.power.energy ∧
      t.fld F.PW_GOV_STAT_P_LAST 0 = Nat.min 65535 (e / unitEnergy) ∧
      t.fld F.PW_GOV_STAT_THROTTLE 0 = (if s.power.crit = true ∨ s.life.paused = true then 15
        else Nat.max (t.fld F.PW_GOV_STAT_THR_BUDGET 0) (t.fld F.PW_GOV_STAT_THR_THERM 0)) ∧
      t.draws = s.draws ∧ t.anv = s.anv ∧ t.life = s.life ∧ t.mem.dram = s.mem.dram ∧ t.mem.slices = s.mem.slices ∧
      (2 * s.fld F.PW_GOV_CFG_CAP 0 * unitEnergy * k < e * k + w →
        (∀ a, (s.prio.find? fun a => decide (a.level s.power < a.top)) = some a →
          a.level t.power = a.level s.power + 1 ∧ t.fld F.PW_GOV_STAT_THR_BUDGET 0 = s.fld F.PW_GOV_STAT_THR_BUDGET 0) ∧
        ((∀ a ∈ s.prio, a.top ≤ a.level s.power) → t.fld F.PW_GOV_STAT_AT_FLOOR 0 = 1 ∧
          t.fld F.PW_GOV_STAT_THR_BUDGET 0 = Nat.min 15 (s.fld F.PW_GOV_STAT_THR_BUDGET 0 + 1))) ∧
      (e * k + w ≤ 2 * s.fld F.PW_GOV_CFG_CAP 0 * unitEnergy * k →
        100 * (e * k + w) < 199 * s.fld F.PW_GOV_CFG_CAP 0 * unitEnergy * k →
        t.fld F.PW_GOV_STAT_AT_FLOOR 0 = 0 ∧
        t.fld F.PW_GOV_STAT_THR_BUDGET 0 = s.fld F.PW_GOV_STAT_THR_BUDGET 0 - 1)) ∧
  ∀ (temps : List Nat) (hot : Nat) (s : State), (∃ u ∈ s.usedSites, Nat.min 255 (temps.getD u 0) = hot) →
    (∀ u ∈ s.usedSites, Nat.min 255 (temps.getD u 0) ≤ hot) → ∃ t, exec (.stackTempRead temps) s = .next t ∧
      t.life = { s.life with firstTemp := true } ∧ t.fld F.PW_THERM_MAX_TEMP 0 = hot ∧
      t.fld F.PW_GOV_STAT_THR_THERM 0 = (if hot < s.fld F.PW_THERM_TH_START 0 then 0
        else Nat.min 15 (1 + (hot - s.fld F.PW_THERM_TH_START 0) / s.fld F.PW_THERM_TH_STEP 0)) ∧
      t.power.thermPl = (if s.fld F.PW_THERM_TH_START 0 ≤ hot then 1 else 0) ∧ t.power.prevTemp = some hot ∧
      (s.fld F.PW_THERM_TH_CRIT 0 ≤ hot → t.power.thermAct = 4 ∧ t.fld F.PW_GOV_STAT_THROTTLE 0 = 15) ∧
      (hot + 3 < s.fld F.PW_THERM_TH_CRIT 0 ∨ (s.power.crit = false ∧ hot < s.fld F.PW_THERM_TH_CRIT 0) → t.power.crit = false ∧
        (s.fld F.PW_THERM_TH_START 0 ≤ hot → (∀ v, s.power.prevTemp = some v → v ≤ hot) →
          t.power.thermAct = Nat.min 4 (s.power.thermAct + 1)) ∧
        (s.fld F.PW_THERM_TH_START 0 ≤ hot → (∃ v, s.power.prevTemp = some v ∧ hot < v) → t.power.thermAct = s.power.thermAct) ∧
        (hot + 3 < s.fld F.PW_THERM_TH_START 0 → t.power.thermAct = s.power.thermAct - 1)) ∧
      t.draws = s.draws ∧ t.anv = s.anv ∧ t.pl = s.pl ∧ t.mem.dram = s.mem.dram ∧ t.power.energy = s.power.energy

/-- REFRESH (R207, R149): a bank group of a channel in service, not in self-refresh, takes a per-bank refresh; one in Planisher mode is in
it again afterwards; its unit keeps its state. PLANISHER_MODE_ENTRY, PLANISHER_MODE_EXIT and PLANISHER_PREEMPT (R137, R138, R149, R150): a
bank group of a channel in service enters where the limit has room, its unit cleared on request; it leaves with its unit kept; a preempt is
counted. -/
def Obligations.BankGroupsRefreshAndChangeMode : Prop :=
  (∀ (n pc bg : Nat) (s : State), n < 256 → pc < 2 → bg < 4 → s.chanState n = 0 → (s.chan n).selfRefresh = false →
    (∀ j < 2, s.computing n j ≤ s.plLimit) → ∃ t, exec (.refresh n pc bg) s = .next t ∧
      Sent.refresh n pc bg ∈ t.sent ∧ t.pl = s.pl ∧ t.mem.dram = s.mem.dram ∧ t.mem.chk = s.mem.chk ∧ t.draws = s.draws ∧
      t.anv = s.anv ∧ t.life = s.life ∧
      t.fld F.CE_PL_STAT_BG_MODE n = s.fld F.CE_PL_STAT_BG_MODE n) ∧
  (∀ (n : Nat) (k : Fin 8) (clear : Bool) (s : State), n < 256 → s.chanState n = 0 → s.stalled = false → s.inMode n k.val = false →
    (s.computing n (k.val / 4) < s.plLimit → ∃ t, exec (.planisherModeEntry n (1#8 <<< k.val) clear) s = .next t ∧
      (∀ j < 8, t.inMode n j = (s.inMode n j || decide (j = k.val))) ∧
      t.unit (8 * n + k.val) = (if clear then .empty else s.unit (8 * n + k.val)) ∧
      (∀ u, u ≠ 8 * n + k.val → t.unit u = s.unit u) ∧ RegsBut s t (fun o => o = Reg.offset .CE_PL_STAT n) ∧
      t = { s with
        regs := t.regs
        pl := t.pl
        mem := { s.mem with chans := t.mem.chans } } ∧ (∀ m, m ≠ n → t.chan m = s.chan m)) ∧
    (s.plLimit ≤ s.computing n (k.val / 4) → exec (.planisherModeEntry n (1#8 <<< k.val) clear) s = .next s)) ∧
  (∀ (n : Nat) (bgs : BitVec 8) (clear : Bool) (s : State), s.chanState n ≠ 0 → exec (.planisherModeEntry n bgs clear) s = .next s) ∧
  ∀ (n : Nat) (k : Fin 8) (c : Instr) (s : State), c = .planisherModeExit n k ∨ c = .planisherPreempt n k → n < 256 →
    (s.inMode n k.val = true → ∃ t, exec c s = .next t ∧ (∀ j < 8, t.inMode n j = (s.inMode n j && !decide (j = k.val))) ∧
      t.pl = s.pl ∧ t.mem.dram = s.mem.dram ∧ t.mem.slices = s.mem.slices ∧ (∀ m, m ≠ n → t.chan m = s.chan m) ∧
      t.fld F.CE_PL_PREEMPT_COUNT n = (if c = .planisherPreempt n k then (s.fld F.CE_PL_PREEMPT_COUNT n + 1) % 2 ^ F.CE_PL_PREEMPT_COUNT.w
        else s.fld F.CE_PL_PREEMPT_COUNT n) ∧
      RegsBut s t (fun o => o = Reg.offset .CE_PL_STAT n ∨ o = Reg.offset .CE_PL_PREEMPT n ∨ o = Reg.offset .MW_IRQ_CAUSE 0)) ∧
    (s.inMode n k.val = false → c = .planisherPreempt n k ∨ (s.chan n).plBack.contains k.val = false → exec c s = .next s) ∧
    (s.inMode n k.val = true → c = .planisherPreempt n k → ∃ t, exec c s = .next t ∧ k.val ∈ (t.chan n).plBack) ∧
    (s.inMode n k.val = false → c = .planisherModeExit n k → (s.chan n).plBack.contains k.val = true → ∃ t, exec c s = .next t ∧
      k.val ∉ (t.chan n).plBack ∧ (∀ j < 8, t.inMode n j = s.inMode n j) ∧ t.pl = s.pl ∧ (∀ m, m ≠ n → t.chan m = s.chan m))

/-! ## Drawer commands (05) -/

/-- NOP and FENCE (R126): NOP ends with OK and touches nothing else; FENCE waits for the commands that started before it in its Drawer, or
in every Drawer with ALL_DRAWERS, and ends with OK when none is left. R122, R125, R126: a started command whose check fails changes nothing
but what its own record will say: FENCE with ALL_DRAWERS from another Drawer than D0, LAUNCH_AT more than 2^40 ticks ahead, POWER_CAP out of
range, QUERY with an unaligned DEST, OFFLOAD_ACT of nothing, RECALL_ACT with NOSEND and without FREE, PARTITION_SET with weight 0, and
REGION_SET of no granule. -/
def Obligations.FencesEndAndChecksReport : Prop :=
  ((∀ (d pos : Nat) (c : Cmd) (s : State), s.fresh d pos .nop c →
    ∃ t, exec (.nop d pos) s = .next t ∧ OnlyCmd s t d pos (c.ended .ok 0 0) ∧ DrawersOnly s t) ∧
  (∀ (d pos : Nat) (c : Cmd) (s : State), s.fresh d pos .fence c → d = 0 ∨ c.argBit 1 0 = false →
    (∀ e < 64, c.argBit 1 0 = true ∨ e = d → ∀ x ∈ (s.drawer e).cmds, c.order ≤ x.order) →
    ∃ t, exec (.fence d pos) s = .next t ∧ OnlyCmd s t d pos (c.ended .ok 0 0) ∧ DrawersOnly s t) ∧
  ∀ (d pos : Nat) (c : Cmd) (s : State), s.fresh d pos .fence c → d = 0 ∨ c.argBit 1 0 = false →
    (∃ x ∈ (s.drawer d).cmds, x.order < c.order) →
    ∃ t, exec (.fence d pos) s = .next t ∧ OnlyCmd s t d pos { c with phase := .running } ∧ DrawersOnly s t) ∧
  (∀ (d pos : Nat) (c : Cmd) (s : State), s.fresh d pos .fence c → d ≠ 0 → c.argBit 1 0 = true →
    ∃ t, exec (.fence d pos) s = .next t ∧ OnlyCmd s t d pos (c.ended .notPermitted 0 0) ∧ DrawersOnly s t) ∧
  (∀ (d pos : Nat) (c : Cmd) (s : State), s.fresh d pos .launchAt c → (s.drawer d).launch = none →
    s.gtc + 2 ^ 40 < (c.w 1).toNat →
    ∃ t, exec (.launchAt d pos) s = .next t ∧ OnlyCmd s t d pos (c.ended .badArg 0 0) ∧ DrawersOnly s t) ∧
  (∀ (d pos : Nat) (c : Cmd) (s : State), s.fresh d pos .powerCap c →
    c.arg 1 0 16 < 280 ∨ 944 < c.arg 1 0 16 ∨ c.arg 1 16 16 < 1 ∨ 10000 < c.arg 1 16 16 →
    ∃ t, exec (.powerCap d pos) s = .next t ∧ OnlyCmd s t d pos (c.ended .badArg 0 0) ∧ DrawersOnly s t) ∧
  (∀ (d pos : Nat) (c : Cmd) (s : State), s.fresh d pos .query c → c.arg 3 0 44 % 64 ≠ 0 ∨ c.arg 1 0 8 = 0 ∨ 5 < c.arg 1 0 8 →
    ∃ t, exec (.query d pos) s = .next t ∧ OnlyCmd s t d pos (c.ended .badArg 0 0) ∧ DrawersOnly s t) ∧
  (∀ (d pos : Nat) (c : Cmd) (s : State), s.fresh d pos .offloadAct c → c.arg 2 0 24 = 0 →
    ∃ t, exec (.offloadAct d pos) s = .next t ∧ OnlyCmd s t d pos (c.ended .badArg 0 0) ∧ DrawersOnly s t) ∧
  (∀ (d pos : Nat) (c : Cmd) (s : State), s.fresh d pos .recallAct c → c.argBit 1 50 = true → c.argBit 1 49 = false →
    ∃ t, exec (.recallAct d pos) s = .next t ∧ OnlyCmd s t d pos (c.ended .badArg 0 0) ∧ DrawersOnly s t) ∧
  (∀ (d pos : Nat) (c : Cmd) (s : State), s.fresh d pos .partitionSet c → c.arg 1 39 8 = 0 →
    ∃ t, exec (.partitionSet d pos) s = .next t ∧ OnlyCmd s t d pos (c.ended .badArg 0 0) ∧ DrawersOnly s t) ∧
  ∀ (d pos : Nat) (c : Cmd) (s : State), s.fresh d pos .regionSet c → c.arg 1 10 10 = 0 ∨ c.arg 1 20 2 = 3 →
    ∃ t, exec (.regionSet d pos) s = .next t ∧ OnlyCmd s t d pos (c.ended .badArg 0 0) ∧ DrawersOnly s t

/-- LAUNCH_AT, LAUNCH_GATE_OPEN and ARMED_FIRST_ACTION (R129): before T the gate of the Drawer is closed, and its record waits; a gate with
no armed command ends the LAUNCH_AT as it opens, RESULT being GTC and LATE set when T had passed at its start or the block was stopped for
coolant; an armed command may act 32 CKCORE cycles after the opening, and its first action ends the LAUNCH_AT, LATE when it comes more than 32
ticks after the opening; one that has failed its checks ends it without an action. BARRIER, BARRIER_GATE_OPEN and BARRIER_TIMEOUT (R130): the start closes
the gate and sends ARRIVE where the block takes part in the ring; the gate opens at the release GTC, which is RESULT; a timeout before a
release withdraws and ends with DEGRADED and DETAIL 1. -/
def Obligations.GatesOpenAtTheirTime : Prop :=
  ((∀ (d pos : Nat) (c : Cmd) (s : State), s.fresh d pos .launchAt c → (s.drawer d).launch = none →
    s.gtc < (c.w 1).toNat → (c.w 1).toNat ≤ s.gtc + 2 ^ 40 → ∃ t, exec (.launchAt d pos) s = .next t ∧
      (t.drawer d).launch = some ⟨pos, (c.w 1).toNat, c.argBit 2 0, false, none, 0, 0, none⟩ ∧
      (t.drawer d).gated = true ∧ t.cmd d pos = some { c with phase := .running } ∧
      (∀ p, p ≠ pos → t.cmd d p = s.cmd d p) ∧ (∀ e, e ≠ d → t.drawer e = s.drawer e) ∧ DrawersOnly s t) ∧
  (∀ (d pos : Nat) (c : Cmd) (s : State), s.fresh d pos .launchAt c → (s.drawer d).launch = none →
    (c.w 1).toNat ≤ s.gtc → c.argBit 2 0 = false → ∃ t, exec (.launchAt d pos) s = .next t ∧
      (t.drawer d).launch = none ∧
      t.cmd d pos = some ({ c with
        late := decide ((c.w 1).toNat < s.gtc) || s.flag F.PW_COOL_STOPPED 0 }.ended .ok 0 s.gtc) ∧ DrawersOnly s t) ∧
  (∀ (d : Nat) (l : Launch) (c : Cmd) (s : State), (s.drawer d).launch = some l → l.opened = none → l.t ≤ s.gtc →
    l.arm = false → s.cmd d l.pos = some c → ∃ t, exec (.launchGateOpen d) s = .next t ∧
      (t.drawer d).launch = none ∧ t.cmd d l.pos = some ({ c with
        late := l.late || s.flag F.PW_COOL_STOPPED 0 }.ended .ok 0 s.gtc) ∧
      (∀ p, p ≠ l.pos → t.cmd d p = s.cmd d p) ∧ (∀ e, e ≠ d → t.drawer e = s.drawer e) ∧ DrawersOnly s t) ∧
  (∀ (d : Nat) (l : Launch) (p g : Nat) (c x : Cmd) (s : State), (s.drawer d).launch = some l → l.armed = some p →
    l.opened = some g → s.cmd d p = some c → s.cmd d l.pos = some x → l.pos ≠ p →
    (l.openCycle + 32 ≤ s.power.cycles → s.stalled = false → c.phase = .armed → ∃ t, exec (.armedFirstAction d) s = .next t ∧
      OnlyCmd s t d p { c with phase := .checked } ∧ DrawersOnly s t) ∧
    (l.openCycle + 32 ≤ s.power.cycles → s.stalled = false → c.phase = .done → ∃ t, exec (.armedFirstAction d) s = .next t ∧
      (t.drawer d).launch = none ∧ t.cmd d p = some c ∧ t.cmd d l.pos = some ({ x with late := l.late }.ended .ok 0 g) ∧
      (∀ e, e ≠ d → t.drawer e = s.drawer e) ∧ DrawersOnly s t) ∧
    ((s.firstAction d p).drawer d).launch = none ∧ (s.firstAction d p).cmd d p = some c ∧
    (s.firstAction d p).cmd d l.pos = some ({ x with late := l.late || decide (l.openTick + 32 < s.tick) }.ended .ok 0 g)) ∧
  ∀ (d : Nat) (l : Launch) (s : State), (s.drawer d).launch = some l →
    l.opened = none ∨ s.power.cycles < l.openCycle + 32 ∨ s.stalled = true ∨ l.armed = none →
    exec (.armedFirstAction d) s = .next s) ∧
  (∀ (d pos : Nat) (c : Cmd) (s : State), s.fresh d pos .barrier c →
    (∀ e < 64, ∀ b, (s.drawer e).barrier = some b → b.id ≠ c.arg 1 0 4) → ∃ t, exec (.barrier d pos) s = .next t ∧
      (t.drawer d).barrier = some ⟨pos, c.arg 1 0 4, c.arg 1 4 6,
        if c.arg 2 0 32 = 0 then none else some (s.tick + c.arg 2 0 32 * 1600), none⟩ ∧
      (t.drawer d).gated = true ∧ t.cmd d pos = some { c with phase := .running } ∧
      (∀ e, e ≠ d → t.drawer e = s.drawer e) ∧
      t.sent = (if s.fld F.GT_CTL_SYNC_EN 0 = 0 then s.sent else
        .sync 2 (syncFrame 2 (BitVec.ofNat 72
          (c.arg 1 0 4 + s.fld F.PT_MGT_ID_BLOCK_ID 0 * 16 + c.arg 1 4 6 * 1024))) :: s.sent) ∧
      t = { s with
        sent := t.sent
        draws := { s.draws with drawer := t.draws.drawer } }) ∧
  (∀ (d r : Nat) (b : Barrier) (c : Cmd) (s : State), (s.drawer d).barrier = some b → b.release = some r →
    s.cmd d b.pos = some c →
    (r ≤ s.gtc → ∃ t, exec (.barrierGateOpen d) s = .next t ∧ (t.drawer d).barrier = none ∧
      t.cmd d b.pos = some (c.ended .ok 0 r) ∧ (∀ e, e ≠ d → t.drawer e = s.drawer e) ∧ DrawersOnly s t) ∧
    (s.gtc < r → exec (.barrierGateOpen d) s = .next s)) ∧
  ∀ (d x : Nat) (b : Barrier) (c : Cmd) (s : State), (s.drawer d).barrier = some b → b.release = none →
    b.timeout = some x → x ≤ s.tick → s.cmd d b.pos = some c → ∃ t, exec (.barrierTimeout d) s = .next t ∧
      (t.drawer d).barrier = none ∧ (∃ r, t.cmd d b.pos = some (c.ended .degraded 1 r)) ∧
      (s.fld F.GT_CTL_SYNC_EN 0 = 1 → t.sent = .sync 4 (syncFrame 4 (BitVec.ofNat 72
        (b.id + s.fld F.PT_MGT_ID_BLOCK_ID 0 * 16 + b.nblk * 1024))) :: s.sent) ∧
      t = { s with
        sent := t.sent
        freeCtr := s.freeCtr + 1
        draws := { s.draws with drawer := t.draws.drawer } }

/-- QUERY (R132, Table 5-8): a snapshot of seven words, with GTC in word 7, stands in the sector at DEST, and no other sector has changed.
-/
def Obligations.QueryWritesSnapshot : Prop :=
  ∀ (d pos : Nat) (c : Cmd) (l : Loc) (s : State), s.fresh d pos .query c → c.arg 3 0 44 % 64 = 0 →
    1 ≤ c.arg 1 0 8 → c.arg 1 0 8 ≤ 5 → d = 0 ∨ c.arg 1 0 8 = 5 →
    (c.arg 1 0 8 = 2 → (s.bucketBase (c.arg 2 0 44)).isSome = true) →
    s.badWindow (c.arg 3 0 44) 64 = false → s.foreign d (c.arg 3 0 44) 64 = false → s.touchesClass 2 (c.arg 3 0 44) 64 = false →
    s.bucketsIn (c.arg 3 0 44) 64 = [] → s.rangeHeld (c.arg 3 0 44) 64 = false →
    s.locate (c.arg 3 0 44) = some l → s.chanState l.n = 0 → s.hasRoom l →
    ∃ t, exec (.query d pos) s = .next t ∧ OnlyCmd s t d pos (c.ended .ok 0 0) ∧
      t.now l = ofWords ((((s.snapshot (c.arg 1 0 8) (c.arg 1 8 6) (c.arg 1 14 3) (c.arg 1 17 5) (c.arg 2 0 44)
        ++ List.replicate 7 0).take 7) ++ [s.gtc]).map (BitVec.ofNat 64)) ∧
      (∀ l', l' ≠ l → t.now l' = s.now l') ∧
      t.mem.dram = s.mem.dram ∧ t.mem.chk = s.mem.chk ∧ t.anv = s.anv ∧ t.pl = s.pl ∧ t.ports = s.ports ∧
      RegsBut s t (fun o => o = Reg.offset .SB_HITS 0 ∨ o = Reg.offset .MW_IRQ_CAUSE 0)

/-- PARTITION_SET (R126, R170, R224): the partition's registers, its regulator's tokens and its Chest pool take the arguments; the Drawers'
other commands, memory and the other partitions' pools stand. POWER_CAP (R301): CAP, WINDOW, PRIO and PL_ONE take the arguments, and PL_ONE
holds PL at level 1. -/
def Obligations.PartitionsAndCapTakeEffect : Prop :=
  (∀ (d pos p : Nat) (c : Cmd) (s : State), s.fresh d pos .partitionSet c → p = c.arg 1 0 6 →
    c.arg 1 39 8 ≠ 0 → c.arg 1 26 13 ≤ 4096 → c.arg 4 0 44 % 2048 = 0 → (p = 0 → c.argBit 1 6 = true) →
    s.badWindow (c.arg 4 0 44) (c.arg 5 0 32 * 2048) = false → s.foreign d (c.arg 4 0 44) (c.arg 5 0 32 * 2048) = false →
    s.poolForeign p (c.arg 4 0 44) (c.arg 5 0 32 * 2048) = false →
    s.touchesClass 2 (c.arg 4 0 44) (c.arg 5 0 32 * 2048) = false → (s.chest p).live = [] →
    ∃ t, exec (.partitionSet d pos) s = .next t ∧ OnlyCmd s t d pos (c.ended .ok 0 0) ∧
      RegsAre s t
        [(.PA_CFG, p, fieldsInto (s.reg .PA_CFG p) [(F.PA_CFG_ENABLE, c.arg 1 6 1), (F.PA_CFG_TC0_EN, c.arg 1 7 1),
          (F.PA_CFG_STEER, c.arg 1 8 1), (F.PA_CFG_ACT_FIXED, c.arg 1 9 1), (F.PA_CFG_KGRANT, c.arg 1 10 16),
          (F.PA_CFG_BKT_QUOTA, c.arg 1 26 13), (F.PA_CFG_TC1_WEIGHT, c.arg 1 39 8)]),
         (.PA_PORTS, p, fieldsInto (s.reg .PA_PORTS p) [(F.PA_PORTS_PORT_MASK, c.arg 2 0 32)]),
         (.PA_REG, p, fieldsInto (s.reg .PA_REG p) [(F.PA_REG_RATE, c.arg 3 0 16), (F.PA_REG_BURST, c.arg 3 16 32)])] ∧
      Tab.get (fun _ => 0) t.ports.tokens p = (c.arg 3 16 32 : Int) * 16384 ∧
      t.chest p = { s.chest p with base := c.arg 4 0 44, size := c.arg 5 0 32 * 2048 } ∧
      (∀ q, q ≠ p → t.chest q = s.chest q ∧ Tab.get (fun _ => 0) t.ports.tokens q = Tab.get (fun _ => 0) s.ports.tokens q) ∧
      t.mem = s.mem ∧ t.anv = s.anv ∧ t.pl = s.pl ∧ t.power = s.power ∧ t.draws.buckets = s.draws.buckets) ∧
  ∀ (d pos : Nat) (c : Cmd) (s : State), s.fresh d pos .powerCap c →
    280 ≤ c.arg 1 0 16 → c.arg 1 0 16 ≤ 944 → 1 ≤ c.arg 1 16 16 → c.arg 1 16 16 ≤ 10000 →
    (∀ k < 4, ∃ i < 4, c.arg 2 (4 * i) 4 = k) →
    ∃ t, exec (.powerCap d pos) s = .next t ∧ OnlyCmd s t d pos (c.ended .ok 0 0) ∧
      t.reg .PW_GOV_CFG 0 = fieldsInto (s.reg .PW_GOV_CFG 0) [(F.PW_GOV_CFG_CAP, c.arg 1 0 16),
        (F.PW_GOV_CFG_WINDOW, c.arg 1 16 16), (F.PW_GOV_CFG_PRIO, c.arg 2 0 16), (F.PW_GOV_CFG_PL_ONE, c.arg 2 16 1)] ∧
      (c.arg 2 16 1 = 1 → s.power.govPl ≤ 1 → s.power.thermPl ≤ 1 → t.fld F.PW_GOV_STAT_LVL_PL 0 = 1) ∧
      RegsBut s t (fun o => o = Reg.offset .PW_GOV_CFG 0 ∨ o = Reg.offset .PW_GOV_STAT 0 ∨ ∃ n, o = Reg.offset .CE_PL_STAT n) ∧
      t.power = s.power ∧ t.mem.dram = s.mem.dram ∧ t.mem.slices = s.mem.slices ∧ t.ports = s.ports ∧ t.anv = s.anv ∧ t.pl = s.pl

/-- REGION_SET (R131): once nothing holds it up, every granule of the range has the class and owner of its arguments and is not BUSY, the
others keep theirs, and no line of the range is left in a slice; with INIT every sector of the range in a channel in service holds zero data
with valid check bits, and RESULT counts the granules. -/
def Obligations.RegionSetTakesEffect : Prop :=
  ∀ (d pos lo hi : Nat) (c : Cmd) (s : State), s.fresh d pos .regionSet c → lo = c.arg 1 0 10 → hi = lo + c.arg 1 10 10 →
    lo < hi → hi ≤ 768 → hi * gib ≤ s.windowEnd → c.arg 1 20 2 < 3 →
    s.earlierRuns d c true = false →
    (s.fld F.RG_GRAN_BUSY lo = 0 → ∀ e ∈ s.regionChecks lo hi (c.arg 1 20 2) (c.argBit 1 28), e.1 = false) →
    s.allServed → s.sound → s.noRequests → s.mem.ground = [] → s.mem.mends = [] →
    (∀ g < 768, s.granClass g ≠ 2) → c.arg 1 20 2 ≠ 2 → (c.argBit 1 28 = true ∨ c.arg 1 20 2 ≠ 0 ∨ ∀ l, s.ueAt l = false) →
    ∃ t, exec (.regionSet d pos) s = .next t ∧
      t.cmd d pos = some (c.ended .ok 0 (if c.argBit 1 28 then hi - lo else 0)) ∧
      (∀ e, e ≠ d → t.drawer e = s.drawer e) ∧
      (∀ g, lo ≤ g → g < hi → t.granClass g = c.arg 1 20 2 ∧ t.granOwner g = c.arg 1 22 6 ∧ t.fld F.RG_GRAN_BUSY g = 0) ∧
      (∀ g < 768, g < lo ∨ hi ≤ g → t.reg .RG_GRAN g = s.reg .RG_GRAN g) ∧
      (∀ l a, t.addrOf l = some a → lo * gib ≤ a → a < hi * gib → t.sliceHas l = none) ∧
      (c.argBit 1 28 = true → ∀ l a, t.addrOf l = some a → l.n < 256 → l.k < 2 ^ 26 → lo * gib ≤ a → a < hi * gib →
        t.rawSector l = 0 ∧ t.rawChecks l = List.replicate 8 0#8)

/-- OFFLOAD_ACT, RECALL_ACT and RECALL_SEND (R109, R110): an extent goes to the lowest address of the pool at which its size is free, and
RESULT is that address; a RECALL_ACT with NOSEND frees its extent and sends nothing; at AT a recalled extent goes out in block writes that
stay within 2 KiB each, the last one a WR_FINAL, and with FREE it is freed. -/
def Obligations.ChestExtents : Prop :=
  (∀ (d pos a : Nat) (c : Cmd) (s : State), s.fresh d pos .offloadAct c → c.arg 2 0 24 ≠ 0 → c.granted F.PA_CFG_ACT_FIXED = 0 →
    (∀ e ∈ (s.chest d).live, (s.chest d).base ≤ e.addr ∧ 0 < e.size) →
    (s.chest d).base ≤ a → a + c.arg 2 0 24 * 2048 ≤ (s.chest d).base + (s.chest d).size →
    (∀ e ∈ (s.chest d).live, a + c.arg 2 0 24 * 2048 ≤ e.addr ∨ e.addr + e.size ≤ a) →
    (∀ b, (s.chest d).base ≤ b → b + c.arg 2 0 24 * 2048 ≤ (s.chest d).base + (s.chest d).size →
      (∀ e ∈ (s.chest d).live, b + c.arg 2 0 24 * 2048 ≤ e.addr ∨ e.addr + e.size ≤ b) → a ≤ b) →
    ∃ t, exec (.offloadAct d pos) s = .next t ∧ OnlyCmd s t d pos (c.ended .ok (c.arg 1 0 4) a) ∧
      t.chest d = { s.chest d with live := (s.chest d).live ++ [⟨a, c.arg 2 0 24 * 2048, c.arg 1 0 4, c.arg 1 4 32⟩] } ∧
      (∀ q, q ≠ d → t.chest q = s.chest q) ∧
      t = { s with draws := { s.draws with drawer := t.draws.drawer, chests := t.draws.chests } }) ∧
  (∀ (d pos : Nat) (c : Cmd) (e : Extent) (s : State), s.fresh d pos .recallAct c → c.granted F.PA_CFG_ACT_FIXED = 0 →
    e ∈ (s.chest d).live → e.addr = c.arg 1 0 44 → c.argBit 1 50 = true → c.argBit 1 49 = true →
    ∃ t, exec (.recallAct d pos) s = .next t ∧ OnlyCmd s t d pos (c.ended .ok 0 0) ∧
      t.chest d = { s.chest d with live := (s.chest d).live.filter fun x => x.addr != c.arg 1 0 44 } ∧
      (∀ q, q ≠ d → t.chest q = s.chest q) ∧
      t = { s with draws := { s.draws with drawer := t.draws.drawer, chests := t.draws.chests } }) ∧
  (∀ (d pos : Nat) (c : Cmd) (e : Extent) (s : State), s.fresh d pos .recallAct c → c.granted F.PA_CFG_ACT_FIXED = 0 →
    e ∈ (s.chest d).live → e.addr = c.arg 1 0 44 → c.argBit 1 50 = false → s.gtc ≤ (c.w 3).toNat →
    ∃ t, exec (.recallAct d pos) s = .next t ∧ OnlyCmd s t d pos { c with phase := .running } ∧ DrawersOnly s t) ∧
  ∀ (d pos : Nat) (c : Cmd) (e : Extent) (s : State), s.cmd d pos = some c → c.phase = .running → c.opcode = Op.recallAct.code →
    (c.w 3).toNat ≤ s.gtc → s.stalled = false →
    ((s.chest d).live.find? fun x => x.addr == c.arg 1 0 44) = some e → e.size % 64 = 0 → 0 < e.size → c.arg 2 0 44 % 64 = 0 →
    s.rangeReady e.addr e.size = true → s.rangeHeld e.addr e.size = false →
    ∃ t, exec (.recallSend d pos) s = .next t ∧
      (∃ st, t.cmd d pos = some (c.ended st 0 s.gtc)) ∧
      t.chest d = (if c.argBit 1 49 then { s.chest d with live := (s.chest d).live.erase e } else s.chest d) ∧
      (∀ w, ((t.port (c.arg 1 44 5)).outq.drop (s.port (c.arg 1 44 5)).outq.length).getLast? = some w → w.final = true) ∧
      ((((t.port (c.arg 1 44 5)).outq.drop (s.port (c.arg 1 44 5)).outq.length).map fun w => w.secs.length).sum = e.size / 64) ∧
      (t.port (c.arg 1 44 5)).outq.take (s.port (c.arg 1 44 5)).outq.length = (s.port (c.arg 1 44 5)).outq ∧
      ∀ w ∈ (t.port (c.arg 1 44 5)).outq.drop (s.port (c.arg 1 44 5)).outq.length,
        w.drawer = d ∧ w.pos = pos ∧ w.part = d ∧ w.secs ≠ [] ∧ w.addr / 2048 = (w.addr + 64 * w.secs.length - 1) / 2048

/-- COMMAND_START (R114, R116, R120 to R122): the entry at SQ_HEAD becomes the Drawer's youngest command and SQ_HEAD moves on; a header
check that fails ends the command with its status, an undefined OPCODE first, then a D0 command in another Drawer, then a reserved bit, a
refused UPDATE or EMIT with DETAIL 0xFFFF.
COMMAND_COMPLETE (R117 to R119, Table 5-2): the record goes into its half of the ring sector with the PHASE of its pass, CQ_TAIL moves on,
the command is gone, and the Drawer's interrupt pends where the command and DR_CTL ask for it. -/
def Obligations.CommandsStartAndComplete : Prop :=
  (∀ (d pos : Nat) (x : SectorBits) (ws : List Word) (f : Option Status) (s : State),
    s.startable d = true → s.turnOf d = true → s.ringRetired d = false → s.arms d = false →
    s.cached (s.sqEntry d (s.sqHead d)) [x] → ws = (List.range 8).map (sectorWord x) →
    pos = s.sqHead d + 2 ^ 17 * (s.drawer d).epoch →
    (f = match Op.ofCode (bits (sectorWord x 0) 0 8) with
      | none => some .badOpcode
      | some o => if o.onlyD0 ∧ d ≠ 0 then some .notPermitted else if o.formOk ws then none else some .badArg) →
    ∃ t, exec (.commandStart d) s = .next t ∧
      t.drawer d = { s.drawer d with cmds := (s.drawer d).cmds ++
        [⟨pos, ws, if f = none then .started else .done, f.getD .ok, if f ≠ none ∧ stepOp ws = true then 0xFFFF else 0, 0, false,
          s.draws.nextOrder, s.seed d, false, false, [], none, .ok, s.reg .PA_CFG d,
          decide (s.chanState (32 * bits (sectorWord x 1) 0 3 + bits (sectorWord x 1) 3 5) = 3), false, []⟩] } ∧
      (∀ e, e ≠ d → t.drawer e = s.drawer e) ∧
      t.sqHead d = (s.sqHead d + 1) % 2 ^ 17 ∧ t.draws.nextOrder = s.draws.nextOrder + 1 ∧
      t.draws.lastStart = (if d = 0 then s.draws.lastStart else d) ∧
      t.draws.hold = (if f = none ∧ d = 0 ∧ (bits (sectorWord x 0) 0 8 = Op.regionSet.code ∨
        bits (sectorWord x 0) 0 8 = Op.fence.code ∧ bitOf (sectorWord x 1) 0 = true) then some (d, pos) else s.draws.hold) ∧
      RegsBut s t (fun o => o = Reg.offset .DR_STAT d ∨ o = Reg.offset .SB_HITS 0 ∨ o = Reg.offset .MW_IRQ_CAUSE 0) ∧
      s.arrayKept t (fun _ => False) ∧ t.ports = s.ports ∧ t.anv = s.anv ∧ t.pl = s.pl ∧ t.draws.buckets = s.draws.buckets) ∧
  ∀ (d pos a ph : Nat) (c : Cmd) (x : SectorBits) (l : Loc) (w : List Word) (s : State), s.cmd d pos = some c → c.phase = .done → d < 64 →
    s.stalled = false → s.writesOut d pos = false → s.rowsOut d c = false → s.writesLate = false → s.flag F.DR_STAT_RING_LOST d = false →
    c.lostRing = false → s.flag F.DR_CTL_ENABLE d = true ∨ s.ringRetired d = false → s.isArmed d pos = false →
    a = s.cqEntry d (s.cqTail d) → s.touchesRetired a 32 = false → s.rangeReady a 32 = true →
    s.locate (a / 64 * 64) = some l → s.cached (a / 64 * 64) [x] → s.chanState l.n = 0 → s.noRequests →
    (∀ b ∈ s.draws.buckets, (d, pos) ∉ b.readers) →
    ph = 1 - (s.drawer d).records / s.cqSize d % 2 →
    w = [BitVec.ofNat 64 ((c.portStatus.getD c.status).code + c.opcode * 2 ^ 8 + ph * 2 ^ 16
      + (if c.late then 2 ^ 17 else 0) + c.cmdId * 2 ^ 32), BitVec.ofNat 64 (c.pos % 2 ^ 17 + c.detail % 2 ^ 32 * 2 ^ 32),
      BitVec.ofNat 64 c.result, BitVec.ofNat 64 s.gtc] →
    ∃ t, exec (.commandComplete d pos) s = .next t ∧
      t.cmd d pos = none ∧ (∀ p, p ≠ pos → t.cmd d p = s.cmd d p) ∧ (∀ e, e ≠ d → t.drawer e = s.drawer e) ∧
      t.cqTail d = (s.cqTail d + 1) % 2 ^ 17 ∧ (t.drawer d).completed = ((s.drawer d).completed + 1) % 2 ^ 48 ∧
      (t.drawer d).launch = (s.drawer d).launch ∧ (t.drawer d).barrier = (s.drawer d).barrier ∧
      t.now l = ofWords (if a % 64 = 0 then w ++ ((List.range 8).map (sectorWord x)).drop 4
        else ((List.range 8).map (sectorWord x)).take 4 ++ w) ∧
      (∀ l', l' ≠ l → t.now l' = s.now l') ∧ s.arrayKept t (fun _ => False) ∧
      (t.bit F.MW_IRQ_DRAWER_PENDING 0 d = (s.bit F.MW_IRQ_DRAWER_PENDING 0 d || (c.irqFlag && s.flag F.DR_CTL_IRQ_EN d))) ∧
      (c.opcode = Op.loadKernel.code → t.fld F.AV_KSLOT_LOADING (c.arg 1 44 4) = 0) ∧
      t.draws.buckets = s.draws.buckets ∧ t.anv.kernels = s.anv.kernels ∧ t.pl = s.pl

/-! ## Buckets, kernels and tensor commands (03, 04) -/

/-- BUCKET_OPEN, BUCKET_CLOSE and BUCKET_DISCARD (R83, R84, R91, R93): an open that every check admits and that the reserve can hold makes a
bucket of zero sums and takes the next SEQ; a close of an OPEN bucket is armed, one of a COMPLETE bucket starts its sweep, FORCE closes
short, a CLOSED bucket answers at once; a discarded bucket is gone. BUCKET_CLOSE_SWEEP_DONE (R94, R95): a bucket without spilled lines and
without a RESULT area is CLOSED, and the close that waits for it ends with the bucket's status and the contributions that arrived. -/
def Obligations.BucketsOpenAndClose : Prop :=
  ((∀ (d pos : Nat) (c : Cmd) (s : State), s.fresh d pos .bucketOpen c → (∀ e ∈ s.openChecks d c, e.1 = false) →
    s.linesToSpill (c.arg 1 0 44) (openBucket c d 0 []).lines = [] →
    ∃ t, exec (.bucketOpen d pos) s = .next t ∧ OnlyCmd s t d pos (c.ended .ok 0 (s.fld F.AV_BKT_SEQ_NEXT_SEQ 0)) ∧
      t.draws.buckets = s.draws.buckets ++ [openBucket c d (s.fld F.AV_BKT_SEQ_NEXT_SEQ 0) []] ∧
      t.reg .AV_BKT_SEQ 0 = Fld.into F.AV_BKT_SEQ_NEXT_SEQ (s.reg .AV_BKT_SEQ 0) (s.fld F.AV_BKT_SEQ_NEXT_SEQ 0 + 1) ∧
      t = { s with
        regs := t.regs
        draws := { s.draws with drawer := t.draws.drawer, buckets := t.draws.buckets } } ∧
      RegsBut s t (fun o => o = Reg.offset .AV_BKT_SEQ 0)) ∧
  (∀ (d pos : Nat) (c : Cmd) (b : Bucket) (s : State), s.fresh d pos .bucketClose c →
    s.bucketBase (c.arg 1 0 44) = some b → d = 0 ∨ b.owner = d → b.closer = none →
    (b.st = .opened → c.argBit 1 44 = false → ∃ t, exec (.bucketClose d pos) s = .next t ∧
      OnlyCmd s t d pos { c with phase := .running, armedClose := true } ∧
      t.bucketBase (c.arg 1 0 44) = some { b with closer := some (d, pos) }) ∧
    (b.st = .opened → c.argBit 1 44 = true → ∃ t, exec (.bucketClose d pos) s = .next t ∧
      OnlyCmd s t d pos { c with phase := .running } ∧
      t.bucketBase (c.arg 1 0 44) = some { b with
        closer := some (d, pos), st := .complete, sweeping := true, short := decide (b.arrived < b.nelem * b.expect) }) ∧
    (b.st = .complete → ∃ t, exec (.bucketClose d pos) s = .next t ∧ OnlyCmd s t d pos { c with phase := .running } ∧
      t.bucketBase (c.arg 1 0 44) = some { b with closer := some (d, pos), sweeping := true }) ∧
    (b.st = .closed ∨ b.st = .inUse → ∃ t, exec (.bucketClose d pos) s = .next t ∧
      OnlyCmd s t d pos (c.ended .ok 0 b.arrived) ∧ DrawersOnly s t)) ∧
  ∀ (d pos : Nat) (c : Cmd) (b : Bucket) (s : State), s.fresh d pos .bucketDiscard c →
    s.bucketBase (c.arg 1 0 44) = some b → d = 0 ∨ b.owner = d → b.st ≠ .inUse →
    ∃ t, exec (.bucketDiscard d pos) s = .next t ∧ t.cmd d pos = some (c.ended .ok 0 0) ∧
      (b.closer ≠ some (d, pos) → (b.closer.bind fun e => t.cmd e.1 e.2) =
        b.closer.bind fun e => (s.cmd e.1 e.2).map fun x => x.ended .badArg 0 0) ∧
      (∀ e p, (e, p) ≠ (d, pos) → b.closer ≠ some (e, p) → t.cmd e p = s.cmd e p) ∧
      t.draws.buckets = s.draws.buckets.filter (fun x => x.base != c.arg 1 0 44) ∧
      t = { s with draws := { s.draws with drawer := t.draws.drawer, buckets := t.draws.buckets } }) ∧
  ∀ (base : Nat) (b : Bucket) (s : State), s.bucketBase base = some b → b.base = base → b.sweeping = true → b.spilled = [] → b.result = 0 →
    (∀ x ∈ s.draws.buckets, x.spilled = []) →
    ∃ t, exec (.bucketCloseSweepDone base) s = .next t ∧
      t.bucketBase base = some { b with st := .closed, sweeping := false, closer := none } ∧
      (∀ x, x ≠ base → t.bucketBase x = s.bucketBase x) ∧
      (b.closer.bind fun e => t.cmd e.1 e.2) = (b.closer.bind fun e => (s.cmd e.1 e.2).map fun c => c.ended
        (if b.lost then .dataFault else if b.clamps ≠ 0 then .okClamped else if b.corrected then .okCorrected else .ok) 0 b.arrived) ∧
      (∀ d p, b.closer ≠ some (d, p) → t.cmd d p = s.cmd d p) ∧
      t.mem = s.mem ∧ t.ports = s.ports ∧ t.anv = s.anv ∧ t.pl = s.pl ∧ t.power = s.power ∧
      RegsBut s t (fun o => o = Reg.offset .AV_ASSAY_STAT 0 ∨ o = Reg.offset .MW_IRQ_CAUSE 0)

/-- LOAD_KERNEL (R77 to R79, Table 3-12): an image that the slices hold and whose checks pass stands in its slot, AV_KSLOTn shows it, and
RESULT is its CRC; no other slot changes, and memory holds what it held. -/
def Obligations.KernelLoads : Prop :=
  ∀ (d pos a k n : Nat) (c : Cmd) (ds : List SectorBits) (bs : List Byte) (s : State), s.fresh d pos .loadKernel c →
    a = c.arg 1 0 44 → k = c.arg 1 44 4 → a % 64 = 0 → bs = (ds.flatMap (bytesOf 64)).take n → ds.length = (n + 63) / 64 →
    s.slotUsed c.order k = false → s.slotLoading c.order k = false → s.allServed → s.cached a ds →
    imageOk bs = true → imageBytes (imageField bs 2 2) = n →
    s.badWindow a n = false → s.foreign d a n = false → s.life.drain = none → s.rangeHeld a n = false →
    ∃ t, exec (.loadKernel d pos) s = .next t ∧ OnlyCmd s t d pos (c.ended .ok 0 (crc16 0 bs).toNat) ∧
      t.kernel k = some (kernelOf bs) ∧ (∀ j, j ≠ k → t.kernel j = s.kernel j) ∧
      t.fld F.AV_KSLOT_KLEN k = (kernelOf bs).bundles.length % 1024 ∧ t.fld F.AV_KSLOT_KCRC k = (crc16 0 bs).toNat ∧
      t.fld F.AV_KSLOT_LOADING k = 1 ∧
      RegsBut s t (fun o => o = Reg.offset .AV_KSLOT k ∨ o = Reg.offset .SB_HITS 0 ∨ o = Reg.offset .MW_IRQ_CAUSE 0) ∧
      s.arrayKept t (fun _ => False) ∧ (∀ l, t.now l = s.now l) ∧ t.anv.anvil = s.anv.anvil ∧ t.anv.runs = s.anv.runs ∧
      t.ports = s.ports ∧ t.pl = s.pl

/-- UPDATE and EMIT (R100, R103): a command whose slot's kernel is there and whose Smiths' check answers a run is running with that run,
whose entries all wait; one that the check refuses ends with its status and the entry's index in DETAIL, and changes nothing else but what
reading the list did. ENTRY_START (R99, R107): the next entry of a running command whose Anvils are all free runs on them, each of its
iterations handed to the Anvil that R99 names; an entry that DEFER skips ends skipped with ABORTED_RESET, and no Anvil takes anything up. -/
def Obligations.RunsAndEntriesStart : Prop :=
  ((∀ (o : Op) (i : Instr) (d pos : Nat) (c : Cmd) (r : Run) (s : State),
    o = .update ∧ i = .update d pos ∨ o = .emit ∧ i = .emit d pos →
    s.fresh d pos o c → s.slotLoading c.order (c.arg 1 57 4) = false → s.listReady o c = true →
    (s.smithCheck d o c).1 = .run r → (∀ e ∈ r.entries, ∀ x ∈ e.ins, x.2.format ≠ .dx64) →
    ∃ t, exec i s = .next t ∧ (∃ u, OnlyCmd s t d pos { c with phase := .running, soft := u }) ∧ t.anv.runs = s.anv.runs ++ [r] ∧
      r.drawer = d ∧ r.pos = pos ∧ r.slot = c.arg 1 57 4 ∧ r.next = 0 ∧ r.cut = false ∧ r.entries.length = c.arg 1 44 13 ∧
      (∀ e ∈ r.entries, e.st = .waiting) ∧ t.anv.anvil = s.anv.anvil ∧ t.anv.kernels = s.anv.kernels ∧
      t.draws.buckets = s.draws.buckets ∧ t.pl = s.pl) ∧
  ∀ (o : Op) (i : Instr) (d pos n : Nat) (st : Status) (c : Cmd) (s : State),
    o = .update ∧ i = .update d pos ∨ o = .emit ∧ i = .emit d pos →
    s.fresh d pos o c → s.slotLoading c.order (c.arg 1 57 4) = false → s.listReady o c = true →
    (s.smithCheck d o c).1 = .refused st n →
    ∃ t, exec i s = .next t ∧ (∃ u, OnlyCmd s t d pos ({ c with soft := u }.ended st n 0)) ∧ t.anv = s.anv ∧
      t.draws.buckets = s.draws.buckets ∧ t.pl = s.pl) ∧
  ∀ (d pos : Nat) (c : Cmd) (r : Run) (e : Entry) (k : Kernel) (s : State), s.cmd d pos = some c → s.runOf d pos = some r →
    c.phase = .running ∨ c.phase = .checked → s.stalled = false → r.entries[r.next]? = some e → s.kernel r.slot = some k →
    r.drawer = d → r.pos = pos →
    (s.entryAnvils k e).all (s.anvilFree r c.order) = true → s.rangesFree [(r.stab + 64 * e.sset, 64)] = true →
    (¬(r.defer = true ∧ s.mustSkip e = true) → e.release = false →
      ∃ t, exec (.entryStart d pos) s = .next t ∧ (∃ u, t.cmd d pos = some { c with phase := .running, soft := u }) ∧
        (∃ r', t.runOf d pos = some r' ∧ r'.next = r.next + 1 ∧ (r'.entries[r.next]?).map Entry.st = some .running ∧
          (r'.entries[r.next]?).map Entry.left = some (e.iters k.elems) ∧
          (∀ j, j ≠ r.next → r'.entries[j]? = r.entries[j]?)) ∧
        (∀ a, (t.anvil a).work.isSome = ((s.anvil a).work.isSome || (s.entryAnvils k e).contains a)) ∧
        (∀ a, ((t.anvil a).work.map Work.iters).getD [] = ((s.anvil a).work.map Work.iters).getD [] ++
          (((s.entryAnvils k e).zipIdx.filter fun x => x.1 == a).map fun x => ⟨r.next, x.2⟩)) ∧
        t.anv.kernels = s.anv.kernels ∧ t.draws.buckets = s.draws.buckets ∧ t.pl = s.pl) ∧
    (r.defer = true → s.mustSkip e = true → e.result = 0 → e.head ≠ [] →
      ∃ t, exec (.entryStart d pos) s = .next t ∧ (∃ r', t.runOf d pos = some r' ∧ r'.next = r.next + 1 ∧
          (r'.entries[r.next]?).map Entry.st = some .skipped ∧ (r'.entries[r.next]?).map Entry.status = some .abortedReset) ∧
        t.anv.anvil = s.anv.anvil ∧ t.mem = s.mem ∧ t.ports = s.ports)

/-! ## Bulk commands (05, 06, 11) -/

/-- FILL (R126): every sector of a range outside Mended granules holds the pattern, every other sector holds what it held, and RESULT is
LEN. COPY (R127): with both descriptors in a slice, tiles whose checks pass and that do not overlap, outside Mended granules and without
scales: every element of the destination is the source's, rounded into its format, and RESULT counts the bytes written. -/
def Obligations.FillAndCopyWriteRanges : Prop :=
  (∀ (d pos a n : Nat) (c : Cmd) (s : State), s.fresh d pos .fill c → a = c.arg 1 0 44 → c.arg 2 0 44 = 64 * n → a % 64 = 0 →
    s.badWindow a (64 * n) = false → s.foreign d a (64 * n) = false → s.bucketsIn a (64 * n) = [] → s.rangeHeld a (64 * n) = false →
    s.touchesClass 2 a (64 * n) = false → s.moverFree c = true → s.mem.mends = [] → s.allServed → s.sound → (∀ b ∈ s.draws.buckets, b.spilled = []) →
    s.fld F.SB_CTL_RES_WAYS 0 < 16 →
    ∃ t, exec (.fillCmd d pos) s = .next t ∧ OnlyCmd s t d pos (c.ended .ok 0 (64 * n)) ∧
      (∀ i < n, ∀ l, s.locate (a + 64 * i) = some l → t.now l = ofWords (List.replicate 8 (c.w 3))) ∧
      (∀ l, l.k < 2 ^ 26 → (∀ i < n, s.locate (a + 64 * i) ≠ some l) → t.now l = s.now l) ∧
      t.anv = s.anv ∧ t.pl = s.pl ∧ t.ports = s.ports) ∧
  ∀ (d pos : Nat) (c : Cmd) (x : SectorBits) (src dst : Tile) (s : State), s.fresh d pos .copy c → s.cached (c.arg 1 0 44) [x] →
    src = tileOf (((List.range 8).map (sectorWord x)).take 4) → dst = tileOf (((List.range 8).map (sectorWord x)).drop 4) →
    (s.copyCheck d c).1 = none → s.moverFree c = true → s.rangeHeld (c.arg 1 0 44) 64 = false → src.scaleMode = 0 → dst.scaleMode = 0 → s.isMended dst.base = false →
    s.rangesFree [(src.base, src.rows * src.pitch), (dst.base, dst.rows * dst.pitch)] = true →
    s.allServed → s.draws.buckets = [] → s.sound → s.fld F.SB_CTL_RES_WAYS 0 < 16 →
    8 * Sys2Proof.Num.rowWords dst.format dst.cols % 64 = 0 →
    overlap src.base (src.rows * src.pitch) dst.base (dst.rows * dst.pitch) = false →
    overlap (c.arg 1 0 44) 64 dst.base (dst.rows * dst.pitch) = false →
    (s.readTile src d).2.1 = .ok →
    ∃ t, exec (.copy d pos) s = .next t ∧
      OnlyCmd s t d pos (c.ended .ok 0 (dst.rows * (8 * Sys2Proof.Num.rowWords dst.format dst.cols))) ∧
      (∀ i < dst.rows, ∀ j < dst.cols,
        (((t.readTile dst d).1.getD i []).getD j .fault) =
          Num.decode dst.format (Num.encode dst.format dst.ovf .nearest (throughReg src
            ((if c.argBit 1 44 then ((s.readTile src d).1.getD j []).getD i .fault
              else ((s.readTile src d).1.getD i []).getD j .fault)))).code) ∧
      (∀ l, l.k < 2 ^ 26 → (∀ i < dst.rows * dst.pitch, s.locate (dst.base + i) ≠ some l) → t.now l = s.now l) ∧
      t.anv = s.anv ∧ t.pl = s.pl ∧ t.ports = s.ports

/-- PLANISH (R16, R141 to R145): with no line held and every channel in service, a plan that is no gather, whose checks pass and whose
destination lies apart from its operands: row by row the array holds the row's result with zero check bytes, the rest of the array what it
held, and RESULT counts the rows. SAMPLE (R152 to R156): with no line held and every channel in service, each row gives the token that R152
to R155 name for the seed's words, RESULT counts the rows, and CR_SMP_ROWS counts them too. -/
def Obligations.PlanishAndSampleGiveRows : Prop :=
  (∀ (d pos : Nat) (c : Cmd) (p : Plan) (s : State), s.fresh d pos .planish c → planOf c = some p → p.op ≠ .gatherSum →
    (s.planCheck d c).1 = none → s.allServed → s.mem.slices = [] → 0 < p.elems →
    (∀ r ∈ p.dest :: p.reads, s.rangeHeld r.1 r.2 = false ∧ s.rangeServed r.1 r.2 = true) → (∀ u, (s.unit u).lost = false) →
    s.planTurn c (s.chansOf (p.dest :: p.reads)) = true →
    (∀ r ∈ p.reads, overlap p.dest.1 p.dest.2 r.1 r.2 = false) →
    ∃ t, exec (.planish d pos) s = .next t ∧
      t.cmd d pos = some ({ c with holds := [⟨p.dest.1, p.dest.2⟩] }.ended .ok 0 p.nrows) ∧
      (∀ r < p.nrows, t.rawBytes (p.d + r * p.pitchD) p.pitchD = s.planRow p r) ∧
      s.arrayKept t (fun l => ∃ i, i < p.dest.2 ∧ s.locate (p.dest.1 + i) = some l) ∧
      (∀ e, e ≠ d → t.drawer e = s.drawer e) ∧ t.ports = s.ports ∧ t.anv = s.anv ∧ t.draws.buckets = s.draws.buckets) ∧
  ∀ (d pos : Nat) (c : Cmd) (p : Sampling) (ks : List Nat) (s : State), s.fresh d pos .sample c → samplingOf c = some p →
    (∀ e ∈ s.sampleCheck d c, e.1 = false) → s.allServed → s.rangeServed p.range.1 p.range.2 = true →
    (∀ u, (s.unit u).lost = false) → s.planTurn c (s.chansOf [p.range]) = true → s.mem.slices = [] → p.tokens = 0 → c.argBit 6 49 = true →
    s.rangeHeld p.range.1 p.range.2 = false → s.rangeHeld 0 0 = false → 0 < p.nrows → ks.length = p.nrows →
    (∀ r < p.nrows, p.token (s.rowCodes p.fmt (p.logits + r * p.pitch) p.vocab) (Gen.bits c.seed 32 (p.row0 + r) p.rstream p.draw) = some (ks.getD r 0)) →
    ∃ t, exec (.sample d pos) s = .next t ∧
      t.cmd d pos = some ({ c with holds := [⟨0, 0⟩] }.ended .ok 0 p.nrows) ∧
      t.fld F.CR_SMP_ROWS_COUNT 0 = (s.fld F.CR_SMP_ROWS_COUNT 0 + p.nrows) % 2 ^ 48 ∧
      ((t.port (c.arg 6 44 5)).outq.drop (s.port (c.arg 6 44 5)).outq.length).flatMap OutWrite.secs =
        (sectorsOfBytes (ks.flatMap fun k => bytesOf 4 (BitVec.ofNat 32 k))).map mkSec ∧
      (∀ q, q ≠ c.arg 6 44 5 → t.port q = s.port q) ∧ s.arrayKept t (fun _ => False) ∧
      (∀ e, e ≠ d → t.drawer e = s.drawer e) ∧ t.anv = s.anv ∧ t.draws.buckets = s.draws.buckets

/-! ## Integrity commands (10) -/

/-- SCRUB and REBUILD (R249, R255, R256): over a range of clean Guarded words a SCRUB counts every byte and corrects nothing; a REBUILD of a
retired channel skips every sector and ends with DEGRADED. Either leaves its summary at DEST and the array as it was. TINKER (R258): a
writing pattern on a retired channel leaves its array open (log 16) and a summary of BYTES at RESULT; on a channel that is not retired it
ends with NOT_PERMITTED and changes nothing. -/
def Obligations.IntegrityCommandsReport : Prop :=
  ((∀ (d pos a n : Nat) (c : Cmd) (l : Loc) (s : State), s.fresh d pos .scrub c → a = c.arg 1 0 44 → c.arg 2 0 44 = 64 * n → a % 2048 = 0 → n % 32 = 0 →
    c.arg 3 0 44 % 64 = 0 → s.badWindow a (64 * n) = false → s.foreign d a (64 * n) = false →
    s.badWindow (c.arg 3 0 44) 64 = false → s.foreign d (c.arg 3 0 44) 64 = false → s.touchesClass 2 (c.arg 3 0 44) 64 = false →
    s.job d pos = ⟨d, pos, 0, 0, 0, 0, 0, 0, none, 0, none, none⟩ → s.allServed → s.locate (c.arg 3 0 44) = some l → s.hasRoom l →
    s.rangeHeld (c.arg 3 0 44) 64 = false → s.noRequests → s.mem.upsets = [] → (∀ e < 64, ∀ x ∈ (s.drawer e).cmds, c.order ≤ x.order) →
    (∀ i < n, s.granClass ((a + 64 * i) / gib) = 1 ∧ ∀ x, s.locate (a + 64 * i) = some x →
      s.chanState x.n = 0 ∧ s.locMended x = false ∧ isPoisoned (s.rawSector x) (s.rawChecks x) = false ∧
      ∀ k < 8, syndrome (sectorWord (s.rawSector x) k) ((s.rawChecks x).getD k 0) = 0) →
    ∃ t, exec (.scrub d pos) s = .next t ∧ OnlyCmd s t d pos (c.ended .ok 0 0) ∧ s.arrayKept t (fun _ => False) ∧
      t.now l = ofWords (summaryWords .ok .scrub false [64 * n, 0, 0, 0, 0, 0] s.gtc) ∧
      (∀ l', l' ≠ l → t.now l' = s.now l') ∧ t.ports = s.ports ∧ t.anv = s.anv ∧ t.pl = s.pl) ∧
  ∀ (d pos n k : Nat) (c : Cmd) (l : Loc) (s : State), s.fresh d pos .rebuild c → n = 32 * c.arg 1 0 3 + c.arg 1 3 5 →
    c.argBit 1 8 = true → c.arg 2 0 44 = 0 → c.arg 3 0 44 = 0 → c.arg 4 0 44 % 64 = 0 → s.chanState n = 3 →
    s.badWindow (c.arg 4 0 44) 64 = false → s.foreign d (c.arg 4 0 44) 64 = false → s.touchesClass 2 (c.arg 4 0 44) 64 = false →
    s.job d pos = ⟨d, pos, 0, 0, 0, 0, 0, 0, none, 0, none, none⟩ → s.locate (c.arg 4 0 44) = some l → s.chanState l.n = 0 → s.hasRoom l →
    s.rangeReady (c.arg 4 0 44) 64 = true → s.rangeHeld (c.arg 4 0 44) 64 = false → k = 2048 * (s.rebuildRows n c).length →
    ∃ t, exec (.rebuild d pos) s = .next t ∧ OnlyCmd s t d pos (c.ended .degraded 0 0) ∧ s.arrayKept t (fun _ => False) ∧
      t.now l = ofWords (summaryWords .degraded .rebuild (k != 0) [0, 0, 0, 0, k, 0] s.gtc) ∧
      (∀ l', l' ≠ l → t.now l' = s.now l') ∧ t.ports = s.ports ∧ t.anv = s.anv ∧ t.pl = s.pl) ∧
  (∀ (d pos n p : Nat) (c : Cmd) (l : Loc) (s : State), s.fresh d pos .tinker c → n = 32 * c.arg 1 0 3 + c.arg 1 3 5 → p = c.arg 1 8 4 →
    1 ≤ p → p ≤ 5 → c.arg 3 0 48 % 2048 = 0 → c.arg 4 0 44 % 64 = 0 → c.arg 3 0 48 ≤ s.positions n * 2048 → s.chanState n = 3 →
    s.badWindow (c.arg 4 0 44) 64 = false → s.foreign d (c.arg 4 0 44) 64 = false → s.touchesClass 2 (c.arg 4 0 44) 64 = false →
    s.rangeReady (c.arg 4 0 44) 64 = true → s.rangeHeld (c.arg 4 0 44) 64 = false → s.locate (c.arg 4 0 44) = some l →
    s.chanState l.n = 0 → s.hasRoom l → s.mem.wf = true → s.mem.ground = [] → s.mem.upsets = [] →
    ∃ t, exec (.tinker d pos) s = .next t ∧ OnlyCmd s t d pos (c.ended .ok 0 0) ∧
      t.now l = ofWords (summaryWords .ok .tinker false [c.arg 3 0 48, 0, 0, 0, 0, 0] s.gtc) ∧
      (∀ l', l' ≠ l → l'.n ≠ n → l'.n < 256 → l'.k < 2 ^ 26 → t.now l' = s.now l') ∧
      (∃ i, s.freeCtr ≤ i ∧ t.freeCtr = i + 1 ∧ ∀ l', l'.n = n → l'.k < 2 ^ 26 →
        t.rawSector l' = BitVec.ofNat 512 (ofBytes ((List.range 64).map fun j => Config.openByte (i * 2 ^ 42 + l'.index * 72 + j)))) ∧
      t.ports = s.ports ∧ t.anv = s.anv ∧ t.pl = s.pl) ∧
  ∀ (d pos n p : Nat) (c : Cmd) (s : State), s.fresh d pos .tinker c → n = 32 * c.arg 1 0 3 + c.arg 1 3 5 → p = c.arg 1 8 4 →
    1 ≤ p → p ≤ 5 → c.arg 3 0 48 % 2048 = 0 → c.arg 4 0 44 % 64 = 0 → c.arg 3 0 48 ≤ s.positions n * 2048 → s.chanState n < 3 →
    s.badWindow (c.arg 4 0 44) 64 = false → s.foreign d (c.arg 4 0 44) 64 = false →
    ∃ t, exec (.tinker d pos) s = .next t ∧ OnlyCmd s t d pos (c.ended .notPermitted 0 0) ∧ DrawersOnly s t

/-- CHANNEL_RETIRE and CHANNEL_ADMIT (R128, R250, R251): a retired channel is in state 3, shows in IN_RETIREDk, and no other channel
changes; with WHOLE_SITE every channel of the site is retired; a second retired member of a Mend group needs FORCE; an admitted channel is in
state 2 and the command runs until its admission ends; retiring a channel that is not there or admitting one that is not retired ends with
BAD_ARG. CA_PAR, PHY, ADMISSION and ADMISSION_DEADLINE (R239, R240, R242, R243): an error of the command bus
or the PHY resets a channel in service, which is counted, and its array stands in self-refresh; an admission whose steps succeed returns the
channel to service with the sector that caused the reset poisoned; one whose steps fail, or that has lasted a second, retires the channel,
and the whole site where every other channel of it that is not retired has come as far (R252). -/
def Obligations.ChannelsRetireAndReturn : Prop :=
  ((∀ (d pos n : Nat) (c : Cmd) (s : State), s.fresh d pos .channelRetire c → n = 32 * c.arg 1 0 3 + c.arg 1 3 5 → c.argBit 1 8 = false →
    s.chanState n = 0 → s.groupRetired n = false → s.noRequests →
    ∃ t, exec (.channelRetire d pos) s = .next t ∧
      (∃ b, t.cmd d pos = some ({ c with lostRing := b }.ended .ok (s.losing n).dedup.length 0)) ∧ t.chanState n = 3 ∧ (∀ m < 256, m ≠ n → t.chanState m = s.chanState m) ∧
      t.bit (if n / 32 % 2 = 0 then F.IN_RETIRED_SITE_LO else F.IN_RETIRED_SITE_HI) (n / 64) (n % 32) = true ∧
      (∀ e ∈ s.losing n, t.fld F.RG_GRAN_LOST e = 1) ∧ (∀ e < 768, e ∉ s.losing n → t.reg .RG_GRAN e = s.reg .RG_GRAN e) ∧
      t.life.bureau.retired.getLsbD n = true ∧ t.mem.dram = s.mem.dram ∧ t.mem.chk = s.mem.chk ∧ t.anv = s.anv) ∧
  (∀ (d pos : Nat) (ns : List Nat) (c : Cmd) (s : State), s.fresh d pos .channelRetire c → c.argBit 1 8 = true → c.arg 1 3 5 = 0 →
    ns = (List.range 32).map (32 * c.arg 1 0 3 + ·) → (∀ n ∈ ns, (s.chanState n = 0 ∧ s.groupRetired n = false) ∨ s.chanState n = 3) →
    s.noRequests → ∃ t, exec (.channelRetire d pos) s = .next t ∧
      (∃ b, t.cmd d pos = some ({ c with lostRing := b }.ended .ok
        ((ns.filter fun n => s.chanState n != 3).flatMap s.losing).dedup.length 0)) ∧ (∀ n ∈ ns, t.chanState n = 3) ∧
      (∀ m < 256, m ∉ ns → t.chanState m = s.chanState m) ∧ t.mem.dram = s.mem.dram ∧ t.mem.chk = s.mem.chk ∧ t.anv = s.anv) ∧
  (∀ (d pos n : Nat) (c : Cmd) (s : State), s.fresh d pos .channelRetire c → n = 32 * c.arg 1 0 3 + c.arg 1 3 5 → c.argBit 1 8 = false →
    c.argBit 1 9 = false → s.chanState n < 3 → s.groupRetired n = true →
    ∃ t, exec (.channelRetire d pos) s = .next t ∧ OnlyCmd s t d pos (c.ended .notPermitted 0 0) ∧ DrawersOnly s t) ∧
  (∀ (d pos n : Nat) (c : Cmd) (s : State), s.fresh d pos .channelAdmit c → n = 32 * c.arg 1 0 3 + c.arg 1 3 5 → s.chanState n = 3 →
    ∃ t, exec (.channelAdmit d pos) s = .next t ∧ OnlyCmd s t d pos { c with phase := .running } ∧
      t.reg .CE_STATE n = Fld.into F.CE_STATE_STATE (s.reg .CE_STATE n) 2 ∧ RegsBut s t (fun o => o = Reg.offset .CE_STATE n) ∧
      t.chan n = { s.chan n with resetAt := some s.tick, stoppedTicks := 0, cause := none, admitBy := some (d, pos) } ∧
      t.mem.dram = s.mem.dram ∧ t.mem.slices = s.mem.slices ∧ t.ports = s.ports ∧ t.anv = s.anv) ∧
  (∀ (d pos : Nat) (c : Cmd) (s : State), s.fresh d pos .channelRetire c → c.argBit 1 8 = false → s.chanState (32 * c.arg 1 0 3 + c.arg 1 3 5) = 4 →
    ∃ t, exec (.channelRetire d pos) s = .next t ∧ OnlyCmd s t d pos (c.ended .badArg 0 0) ∧ DrawersOnly s t) ∧
  ∀ (d pos : Nat) (c : Cmd) (s : State), s.fresh d pos .channelAdmit c → s.chanState (32 * c.arg 1 0 3 + c.arg 1 3 5) ≠ 3 →
    ∃ t, exec (.channelAdmit d pos) s = .next t ∧ OnlyCmd s t d pos (c.ended .badArg 0 0) ∧ DrawersOnly s t) ∧
  (∀ (c : Instr) (n : Nat) (s : State), c = .caPar n ∨ c = .phy n → n < 256 →
    (s.chanState n = 0 → ∃ t, exec c s = .next t ∧ t.chanState n = 1 ∧
      t.fld F.CE_STATE_RESETS n = Nat.min (s.fld F.CE_STATE_RESETS n + 1) (2 ^ F.CE_STATE_RESETS.w - 1) ∧
      t.fld F.CE_PL_STAT_BG_MODE n = 0 ∧ t.fld F.IN_STAT_UE 0 = 1 ∧ (t.chan n).selfRefresh = true ∧
      (t.chan n).resetAt = some s.tick ∧ (t.chan n).cause = none ∧ (∀ m, m ≠ n → t.chan m = s.chan m) ∧
      (∀ m < 256, m ≠ n → t.chanState m = s.chanState m) ∧ t.mem.dram = s.mem.dram ∧ t.mem.chk = s.mem.chk ∧
      t.mem.slices = s.mem.slices ∧ t.draws = s.draws ∧ t.anv = s.anv ∧ t.ports = s.ports) ∧
    (s.chanState n ≠ 0 → exec c s = .next s)) ∧
  (∀ (n k : Nat) (o : AdmitOutcome) (s : State), n < 256 → s.chanState n = 1 → s.life.paused = false → s.drained = false → o.trained = true →
    o.selfTest = true → (s.slice n).late = [] → s.mem.mends = [] → (s.chan n).cause = some k → k < 2 ^ 26 → (s.chan n).admitBy = none →
    s.locMended ⟨n, k⟩ = false → (∀ m < 768, s.granClass m ≠ 2) → s.noRequests → (s.slice n).store = [] →
    s.flag F.IN_CTL_AUTO_REPAIR 0 = false →
    ∃ t, exec (.admission n o) s = .next t ∧ t.chanState n = 0 ∧ (t.chan n).selfRefresh = false ∧ (t.chan n).cause = none ∧
      (t.chan n).resetAt = none ∧ (∀ m < 256, m ≠ n → t.chanState m = s.chanState m) ∧
      t.rawSector ⟨n, k⟩ = allOnes ∧ t.rawChecks ⟨n, k⟩ = List.replicate 8 0xFF#8 ∧
      (∀ l, l.n < 256 → l.k < 2 ^ 26 → l ≠ ⟨n, k⟩ → t.rawSector l = s.rawSector l ∧ t.rawChecks l = s.rawChecks l) ∧
      t.anv = s.anv ∧ t.draws = s.draws) ∧
  (∀ (c : Instr) (n u : Nat) (o : AdmitOutcome) (s : State), n < 256 → s.chanState n = 1 → s.life.paused = false → s.drained = false →
    (s.chan n).admitBy = none → s.noRequests → (s.chan n).resetAt = some u → (∃ m, m / 32 = n / 32 ∧ s.chanState m = 0) →
    (c = .admission n o ∧ (o.trained = false ∨ o.selfTest = false)) ∨
      (c = .admissionDeadline n ∧ u + (s.chan n).stoppedTicks + 1600000000 ≤ s.tick) →
    ∃ t, exec c s = .next t ∧ t.chanState n = 3 ∧ t.fld F.CE_STATE_AUTO_RETIRED n = 1 ∧
      t.life.bureau.retired = s.life.bureau.retired ||| 1#256 <<< n ∧ (∀ m < 256, m ≠ n → t.chanState m = s.chanState m) ∧
      t.mem.dram = s.mem.dram ∧ t.mem.chk = s.mem.chk ∧ t.fld F.IN_STAT_RETIRE 0 = 1) ∧
  (∀ (n : Nat) (s : State), n < 256 → s.overdue n = true → s.noRequests →
    (∀ m, m / 32 = n / 32 → s.chanState m = 3 ∨ s.overdue m = true) → ∃ t, exec (.admissionDeadline n) s = .next t ∧
      (∀ m, m / 32 = n / 32 → t.chanState m = 3) ∧ (∀ m < 256, m / 32 ≠ n / 32 → t.chanState m = s.chanState m) ∧
      t.mem.dram = s.mem.dram ∧ t.mem.chk = s.mem.chk) ∧
  ∀ (n u : Nat) (s : State), n < 256 → (s.chan n).resetAt = some u → s.tick < u + (s.chan n).stoppedTicks + 1600000000 →
    exec (.admissionDeadline n) s = .next s

/-! ## Ports (07) -/

/-- R172 steps 1 to 3, R182, R321, for every request: a header is dropped, with nothing changed but the counters and flags of its cause, by
a port in FAULT, for a failing HCRC, which also puts the port into FAULT, for want of credits, and while a released block closes. R172 steps
5 to 9, for every request but ACC and a DOOR: a taken request is answered with NOT_PERMITTED where its partition may not use the port or the
address, with BAD_ARG where its form is wrong, with REGION_CLASS where its type may not reach the class, with DATA_FAULT and HM where a
sector fails its Hallmark, and without HM where a mask half or an operand has FAULT (R167); memory and the Drawers stay. -/
def Obligations.RequestsAreDroppedOrRefused : Prop :=
  (∀ (p : Nat) (k : ReqType) (r : PortReq) (s : State), p < 32 → s.life.porstN = true →
    (s.life.closing = true → s.flag F.PT_STAT_RELEASED p = true → ∃ t, exec (k.instr p r) s = .next t ∧ t = { s with regs := t.regs } ∧
      t.fld F.LC_DROPS_COUNT 0 = (s.fld F.LC_DROPS_COUNT 0 + 1) % 2 ^ 48 ∧
      RegsBut s t (fun o => o = Reg.offset .LC_DROPS 0 ∨ o = Reg.offset .MW_IRQ_CAUSE 0)) ∧
    (s.life.closing = false ∨ s.flag F.PT_STAT_RELEASED p = false → s.flag F.PT_STAT_FAULT p = true → ∃ t, exec (k.instr p r) s = .next t ∧ t = { s with regs := t.regs } ∧
      t.fld F.PT_PROTO_COUNT p = (s.fld F.PT_PROTO_COUNT p + 1) % 2 ^ 48 ∧
      RegsBut s t (fun o => o = Reg.offset .PT_PROTO p ∨ o = Reg.offset .MW_IRQ_CAUSE 0)) ∧
    (s.life.closing = false ∨ s.flag F.PT_STAT_RELEASED p = false → s.flag F.PT_STAT_FAULT p = false → r.hdr.good k.code = false →
      ∃ t, exec (k.instr p r) s = .next t ∧ t = { s with regs := t.regs } ∧
        t.fld F.PT_PROTO_COUNT p = (s.fld F.PT_PROTO_COUNT p + 1) % 2 ^ 48 ∧ t.fld F.PT_FLAGS_HCRC_ERR p = 1 ∧
        t.fld F.PT_STAT_FAULT p = 1 ∧ t.bit F.MW_IRQ_CAUSE_EVENT 0 1 = true ∧
        RegsBut s t (fun o => o = Reg.offset .PT_PROTO p ∨ o = Reg.offset .PT_FLAGS p ∨ o = Reg.offset .PT_STAT p ∨
          o = Reg.offset .MW_IRQ_CAUSE 0)) ∧
    (s.life.closing = false ∨ s.flag F.PT_STAT_RELEASED p = false → s.flag F.PT_STAT_FAULT p = false → r.hdr.good k.code = true →
      r.hdr.tc.toNat < 2 → ((s.port p).account r.hdr.p r.hdr.tc.toNat).held.hdr = 0 ∨
        ((s.port p).account r.hdr.p r.hdr.tc.toNat).held.sect < carried k r.hdr →
      ∃ t, exec (k.instr p r) s = .next t ∧ t = { s with regs := t.regs } ∧
        t.fld F.PT_PROTO_COUNT p = (s.fld F.PT_PROTO_COUNT p + 1) % 2 ^ 48 ∧ t.fld F.PT_FLAGS_NO_CREDIT p = 1 ∧
        RegsBut s t (fun o => o = Reg.offset .PT_PROTO p ∨ o = Reg.offset .PT_FLAGS p ∨ o = Reg.offset .MW_IRQ_CAUSE 0))) ∧
  ∀ (p : Nat) (k : ReqType) (r : PortReq) (st : Status) (hm : Bool) (s : State), s.taken p k r → k ≠ .acc → k ≠ .door →
    windowOf r.hdr.a = .memory → s.regionHeld r.hdr.a = false →
    (st, hm) = (if s.partOk p r.hdr = false then (.notPermitted, false)
      else if s.formOk k r.hdr = false then (.badArg, false)
      else if s.permitted k r.hdr = false then (.notPermitted, false)
      else if s.classOk k r.hdr = false then (.regionClass, false)
      else if failing (inbound k r) ≠ 0 then (.dataFault, true) else ((badOperand k r).getD .ok, false)) → st ≠ .ok →
    ∃ t, exec (k.instr p r) s = .next t ∧
      s.answered t p r.hdr st hm (if k = .atom ∧ st = .dataFault ∧ hm = false then [faultSec] else []) ∧ s.otherPorts t p ∧ t.mem = s.mem ∧
      t.draws = s.draws ∧ t.anv = s.anv ∧ t.pl = s.pl ∧ t.ports.waits = s.ports.waits ∧
      (hm = false → RegsBut s t (fun o => o = Reg.offset .MW_IRQ_CAUSE 0)) ∧
      (hm = true → t.fld F.PT_HM_COUNT p = (s.fld F.PT_HM_COUNT p + failing (inbound k r)) % 2 ^ 48 ∧
        t.fld F.PT_FLAGS_HM_IN p = 1)

/-- RD (R173, R189): a read of sectors that the slices hold is answered with them, and memory holds what it held; a read of a Drawer page
shows its status and doorbell words. RNDRD and DOOR (R115, R275): random reads give the words of the partition's generator from the index
its window names; a doorbell moves its tail or head where the occupancy allows it, and is counted and refused where it does not. -/
def Obligations.ReadsAndDoorbellsAreAnswered : Prop :=
  ((∀ (p : Nat) (r : PortReq) (ds : List SectorBits) (s : State), s.accepts p .rd r → windowOf r.hdr.a = .memory →
    ds.length = r.hdr.len → s.cached r.hdr.a ds → s.ports.waits = [] → (∀ n, (s.chan n).retry = []) →
    s.rangeHeld r.hdr.a (64 * r.hdr.len) = false → s.draws.buckets = [] →
    ∃ t, exec (.rd p r) s = .next t ∧ s.answered t p r.hdr .ok false (ds.map mkSec) ∧ s.otherPorts t p ∧
      (∀ l, t.now l = s.now l) ∧ s.arrayKept t (fun _ => False) ∧ t.draws = s.draws ∧ t.anv = s.anv ∧ t.pl = s.pl ∧
      RegsBut s t (fun o => o = Reg.offset .SB_HITS 0 ∨ o = Reg.offset .MW_IRQ_CAUSE 0)) ∧
  ∀ (p d : Nat) (r : PortReq) (s : State), s.accepts p .rd r → windowOf r.hdr.a = .drawer → d = r.hdr.a / 65536 % 64 →
    r.hdr.a % 65536 = 0 →
    ∃ t, exec (.rd p r) s = .next t ∧
      s.answered t p r.hdr .ok false [mkSec (ofWords [0, 0, s.view .DR_STAT d, s.view .DR_DB d, 0, 0, 0, 0])] ∧
      s.otherPorts t p ∧ t.mem = s.mem ∧ t.draws = s.draws ∧ t.anv = s.anv ∧ RegsBut s t (fun _ => False)) ∧
  (∀ (p w n : Nat) (r : PortReq) (s : State), s.accepts p .rndrd r → windowOf r.hdr.a = .random → n = r.hdr.a / 2 ^ 34 % 64 →
    w = 4 * 2 ^ s.fld F.CR_RCTX1_WCODE n →
    ∃ t, exec (.rndrd p r) s = .next t ∧ (∃ xs, s.answered t p r.hdr .ok false xs ∧ xs.length = r.hdr.len ∧
      ∀ k < r.hdr.len, ∀ j < 512 / w, (xs.getD k (mkSec 0)).data.toNat / 2 ^ (w * j) % 2 ^ w =
        Gen.bits (s.seed n) w (s.fld F.CR_RCTX1_INDEX_BASE n + 8 * (r.hdr.a % 2 ^ 34) / w + 512 / w * k + j)
          (BitVec.ofNat 32 (s.fld F.CR_RCTX0_STREAM n)) (BitVec.ofNat 32 (s.fld F.CR_RCTX0_DRAW n)) % 2 ^ w) ∧
      s.otherPorts t p ∧ t.mem = s.mem ∧ t.draws = s.draws ∧ RegsBut s t (fun _ => False)) ∧
  (∀ (p d v : Nat) (r : PortReq) (x : InSector) (s : State), s.accepts p .door r → windowOf r.hdr.a = .drawer → d = r.hdr.a / 65536 % 64 →
    r.sectors = [x] → x.fault = false → x.data.toNat = v → v < 2 ^ 17 → s.flag F.DR_CTL_ENABLE d = true →
    (r.hdr.a % 65536 = 0 → (v + 2 ^ 17 - s.sqHead d) % 2 ^ 17 ≤ s.sqSize d →
      ∃ t, exec (.door p r) s = .next t ∧ s.answered t p r.hdr .ok false [] ∧ t.sqTail d = v ∧ t.cqHead d = s.cqHead d ∧
        RegsBut s t (fun o => o = Reg.offset .DR_DB d) ∧ t.mem = s.mem ∧ t.draws = s.draws) ∧
    (r.hdr.a % 65536 = 8 → (s.cqTail d + 2 ^ 17 - v) % 2 ^ 17 ≤ s.cqSize d →
      ∃ t, exec (.door p r) s = .next t ∧ s.answered t p r.hdr .ok false [] ∧ t.cqHead d = v ∧ t.sqTail d = s.sqTail d ∧
        RegsBut s t (fun o => o = Reg.offset .DR_DB d) ∧ t.mem = s.mem ∧ t.draws = s.draws) ∧
    (r.hdr.a % 65536 = 0 → s.sqSize d < (v + 2 ^ 17 - s.sqHead d) % 2 ^ 17 →
      ∃ t, exec (.door p r) s = .next t ∧ s.answered t p r.hdr .badArg false [] ∧
        t.fld F.DR_ERR_DOOR_ERR d = Nat.min (s.fld F.DR_ERR_DOOR_ERR d + 1) (2 ^ F.DR_ERR_DOOR_ERR.w - 1) ∧
        RegsBut s t (fun o => o = Reg.offset .DR_ERR d) ∧ t.mem = s.mem ∧ t.draws = s.draws))

/-- WR, WR_FINAL, WR_FINAL_LAND and HELD_REQUEST_RELEASE (R164, R173, R176, R188, R223): a write of whole sectors puts them into their
slices, one with FAULT as the Fault sector (R167, R233); a masked one changes the enabled bytes; a WR_FINAL waits, and lands as a write once no earlier write of its port and group waits; a
request held for a clean way is served as if it came now. -/
def Obligations.WritesLand : Prop :=
  (∀ (p : Nat) (r : PortReq) (s : State), s.accepts p .wr r → windowOf r.hdr.a = .memory → r.hdr.isMasked = false →
    r.sectors.length = r.hdr.len → s.noRequests → s.rangeHeld r.hdr.a (64 * r.hdr.len) = false →
    (∀ i < r.hdr.len, ∀ l, s.locate (r.hdr.a + 64 * i) = some l → s.chanState l.n = 0 ∧ s.hasRoom l) →
    ∃ t, exec (.wr p r) s = .next t ∧ s.answered t p r.hdr .ok false [] ∧ s.otherPorts t p ∧
      (∀ i < r.hdr.len, ∀ l, s.locate (r.hdr.a + 64 * i) = some l →
        (t.sliceHas l).map Held.sec = some (r.sectors.getD i ⟨0, 0, true⟩).toSec) ∧
      (∀ l, (∀ i < r.hdr.len, s.locate (r.hdr.a + 64 * i) ≠ some l) → t.now l = s.now l) ∧
      s.arrayKept t (fun _ => False) ∧ t.draws = s.draws ∧ t.anv = s.anv ∧ t.pl = s.pl) ∧
  (∀ (p : Nat) (r : PortReq) (x m : InSector) (d : SectorBits) (l : Loc) (s : State), s.accepts p .wr r → windowOf r.hdr.a = .memory →
    r.hdr.isMasked = true → r.sectors = [x, m] → x.fault = false → m.fault = false → m.data.toNat < 2 ^ 64 → m.data ≠ 0 →
    s.noRequests → s.rangeHeld r.hdr.a 64 = false → s.locate r.hdr.a = some l → s.cached r.hdr.a [d] → s.chanState l.n = 0 →
    s.draws.buckets = [] → s.hasRoom l →
    ∃ t, exec (.wr p r) s = .next t ∧ s.answered t p r.hdr .ok false [] ∧ s.otherPorts t p ∧
      (∀ j < 64, byteOf (t.now l) j = if m.data.getLsbD j then byteOf x.data j else byteOf d j) ∧
      (∀ l', l' ≠ l → t.now l' = s.now l') ∧ s.arrayKept t (fun _ => False) ∧ t.draws = s.draws ∧ t.anv = s.anv ∧ t.pl = s.pl) ∧
  (∀ (p : Nat) (r : PortReq) (s : State), s.accepts p .wrFinal r → windowOf r.hdr.a = .memory →
    ∃ t, exec (.wrFinal p r) s = .next t ∧ t.ports.waits = s.ports.waits ++ [⟨⟨p, s.ports.nextSeq, .wrFinal, r, true, false⟩, .final⟩] ∧
      t.ports.nextSeq = s.ports.nextSeq + 1 ∧ Tab.get (fun _ => false) (t.port p).tags r.hdr.tag.toNat = true ∧ t.sent = s.sent ∧
      t.mem = s.mem ∧ t.draws = s.draws ∧ t.anv = s.anv ∧ RegsBut s t (fun _ => False)) ∧
  ∀ (i : Instr) (p : Nat) (q : Req) (why : Why) (s : State), s.ports.waits = [⟨q, why⟩] → q.port = p → q.kind = .wrFinal →
    (why = .final ∧ i = .wrFinalLand p q.r.hdr.tag ∨ why = .cleanWay ∧ i = .heldRequestRelease p q.r.hdr.tag) →
    (∀ n, (s.chan n).retry = []) → q.r.hdr.a % 2048 + 64 * q.r.hdr.len ≤ 2048 → q.r.hdr.a % 64 = 0 →
    q.r.sectors.length = q.r.hdr.len → (∀ x ∈ q.r.sectors, x.fault = false ∧ x.good = true) →
    s.regionHeld q.r.hdr.a = false → s.rangeHeld q.r.hdr.a (64 * q.r.hdr.len) = false → (s.locate q.r.hdr.a).isSome = true →
    (∀ i < q.r.hdr.len, ∀ l, s.locate (q.r.hdr.a + 64 * i) = some l → s.chanState l.n = 0 ∧ s.hasRoom l) →
    ∃ t, exec i s = .next t ∧ t.ports.waits = [] ∧ s.answered t p q.r.hdr .ok false [] ∧ s.otherPorts t p ∧
      (∀ i < q.r.hdr.len, ∀ l, s.locate (q.r.hdr.a + 64 * i) = some l → t.now l = (q.r.sectors.getD i ⟨0, 0, true⟩).data) ∧
      (∀ l, (∀ i < q.r.hdr.len, s.locate (q.r.hdr.a + 64 * i) ≠ some l) → t.now l = s.now l) ∧
      s.arrayKept t (fun _ => False) ∧ t.draws = s.draws ∧ t.anv = s.anv ∧ t.pl = s.pl

/-- ATOM (R174): the old value goes back zero-extended, and its place holds the sum, the extreme, the operand, or on a match the second
operand; the rest of the sector and every other sector stay. ACC (R85 to R87): contributions that an OPEN bucket without spilled lines takes
are each added to their element in modular arithmetic, and ARRIVED counts them; the bucket that has all of them is COMPLETE. -/
def Obligations.AtomsAndContributionsModify : Prop :=
  (∀ (p w at_ old new : Nat) (r : PortReq) (x : InSector) (d : SectorBits) (l : Loc) (s : State), s.accepts p .atom r →
    windowOf r.hdr.a = .memory → r.sectors = [x] → x.fault = false → w = (if r.hdr.asz = 1 then 64 else 32) →
    x.data.toNat < 2 ^ (if r.hdr.aop = 6 then 2 * w else w) → s.noRequests → s.rangeHeld r.hdr.a (w / 8) = false →
    s.locate (r.hdr.a / 64 * 64) = some l → s.locate r.hdr.a = some l → s.cached (r.hdr.a / 64 * 64) [d] → s.chanState l.n = 0 → s.draws.buckets = [] → s.hasRoom l →
    at_ = 8 * (r.hdr.a % 64) → old = d.toNat / 2 ^ at_ % 2 ^ w →
    (new = match r.hdr.aop.toNat with
      | 0 => (old + x.data.toNat) % 2 ^ w
      | 1 => Nat.max old x.data.toNat
      | 2 => Nat.min old x.data.toNat
      | 3 => if (BitVec.ofNat w old).toInt < (BitVec.ofNat w x.data.toNat).toInt then x.data.toNat else old
      | 4 => if (BitVec.ofNat w x.data.toNat).toInt < (BitVec.ofNat w old).toInt then x.data.toNat else old
      | 5 => x.data.toNat
      | _ => if old = x.data.toNat % 2 ^ w then x.data.toNat / 2 ^ w else old) →
    ∃ t, exec (.atom p r) s = .next t ∧ s.answered t p r.hdr .ok false [mkSec (BitVec.ofNat 512 old)] ∧ s.otherPorts t p ∧
      (∀ k < 512, (t.now l).getLsbD k = if at_ ≤ k ∧ k < at_ + w then new.testBit (k - at_) else d.getLsbD k) ∧
      (∀ l', l' ≠ l → t.now l' = s.now l') ∧ s.arrayKept t (fun _ => False) ∧ t.draws = s.draws ∧ t.anv = s.anv ∧ t.pl = s.pl) ∧
  ∀ (p i0 : Nat) (r : PortReq) (b : Bucket) (cs : List Contribution) (s : State), s.accepts p .acc r → windowOf r.hdr.a = .memory →
    s.draws.buckets = [b] → s.bucketAt r.hdr.a = some b → b.owner = r.hdr.p → b.st = .opened → b.spilled = [] → b.closer = none →
    accRulesHold b r.hdr r.sectors = true → cs = contributions b r.hdr r.sectors → b.arrived + cs.length ≤ b.nelem * b.expect →
    i0 = (r.hdr.a - b.base) / 8 → s.noRequests → s.rangeStops ⟨p, s.ports.nextSeq, .acc, r, true, false⟩ = none →
    ∃ t, exec (.acc p r) s = .next t ∧
      s.answered t p r.hdr (if cs.any (fun c => (c.window b.bx).2) then .okClamped else .ok) false [] ∧ s.otherPorts t p ∧
      (∃ b', t.draws.buckets = [b'] ∧ b'.base = b.base ∧ b'.arrived = b.arrived + cs.length ∧
        b'.st = (if b.arrived + cs.length = b.nelem * b.expect then .complete else .opened) ∧
        (∀ j < cs.length, Tab.get (fun _ => 0#64) b'.acc (i0 + j) =
          Num.dxAdd (Tab.get (fun _ => 0#64) b.acc (i0 + j)) ((cs.getD j (.word 0)).window b.bx).1) ∧
        (∀ j, j < i0 ∨ i0 + cs.length ≤ j → Tab.get (fun _ => 0#64) b'.acc j = Tab.get (fun _ => 0#64) b.acc j)) ∧
      t.mem = s.mem ∧ t.anv = s.anv ∧ t.pl = s.pl ∧ t.draws.drawer = s.draws.drawer

/-- BLOCK_WRITE_SEND, RSP, CRD, RSP_TMO and RSP_DATA (R160, R168, R177, R182): the oldest block write of a port goes out under the lowest
free tag and with its request header when the partner's credits allow it, the credits fall, and a RECALL_ACT's first write gives it its
RESULT; its RSP frees the tag; credits add up to their field's limit; a tag whose time is over is abandoned, and the command's record will
say DEGRADED; an RSP without its block write, and an RSP_DATA, are protocol errors; an undefined TYPE is answered with BAD_OPCODE (R172). -/
def Obligations.BlockWritesAreSent : Prop :=
  (∀ (p k : Nat) (w : OutWrite) (rest : List OutWrite) (s : State), p < 32 → s.flag F.PT_STAT_FAULT p = false → s.life.drain = none →
    (s.port p).outq = w :: rest → (s.port p).freeTag = some k → (∀ x ∈ w.secs, x.good = true) →
    1 ≤ s.fld F.PT_STAT_OUT_HDR p → w.secs.length ≤ s.fld F.PT_STAT_OUT_SECT p →
    ∃ t, exec (.blockWriteSend p) s = .next t ∧ t.sent = .blockWrite p k (w.header k w.secs.length) w :: s.sent ∧
      (s.isArmed w.drawer w.pos = false → ∀ c, s.cmd w.drawer w.pos = some c → c.opcode = Op.recallAct.code → c.arg 2 0 44 = w.addr →
        t.cmd w.drawer w.pos = some { c with result := s.gtc }) ∧
      t.port p = { s.port p with
        outq := rest
        btags := Tab.set (fun _ => none) (s.port p).btags k (some ⟨w.drawer, w.pos, w.final, s.power.cycles, false⟩) } ∧ s.otherPorts t p ∧
      t.fld F.PT_STAT_OUT_HDR p = s.fld F.PT_STAT_OUT_HDR p - 1 ∧
      t.fld F.PT_STAT_OUT_SECT p = s.fld F.PT_STAT_OUT_SECT p - w.secs.length ∧
      RegsBut s t (fun o => o = Reg.offset .PT_STAT p) ∧ t.mem = s.mem ∧ t.anv = s.anv) ∧
  (∀ (p : Nat) (h : RspHdr) (b : BlockTag) (s : State), p < 32 → s.life.porstN = true → s.flag F.PT_STAT_FAULT p = false →
    h.good = true → Tab.get (fun _ => none) (s.port p).btags h.tag.toNat = some b → b.abandoned = false → h.status = 0 →
    ∃ t, exec (.rsp p h) s = .next t ∧
      t = s.setPort p { s.port p with btags := Tab.set (fun _ => none) (s.port p).btags h.tag.toNat none }) ∧
  (∀ (p : Nat) (h : RspHdr) (s : State), p < 32 → s.life.porstN = true → s.flag F.PT_STAT_FAULT p = false → h.good = true →
    (Tab.get (fun _ => none) (s.port p).btags h.tag.toNat = none) →
    ∃ t, exec (.rsp p h) s = .next t ∧ t = { s with regs := t.regs } ∧ t.fld F.PT_FLAGS_BAD_TYPE p = 1 ∧
      t.fld F.PT_PROTO_COUNT p = (s.fld F.PT_PROTO_COUNT p + 1) % 2 ^ 48) ∧
  (∀ (p n : Nat) (code : BitVec 4) (r : PortReq) (s : State), p < 32 → s.life.porstN = true → s.flag F.PT_STAT_FAULT p = false →
    s.life.closing = false → r.hdr.good code = true → n = (if code = 9 then r.hdr.addr.toNat / 2 ^ 9 % 32 + 1 else 0) → r.hdr.tc.toNat < 2 →
    1 ≤ ((s.port p).account r.hdr.p r.hdr.tc.toNat).held.hdr → n ≤ ((s.port p).account r.hdr.p r.hdr.tc.toNat).held.sect →
    Tab.get (fun _ => false) (s.port p).tags r.hdr.tag.toNat = false →
    (code = 9 → ∃ t, exec (.rspData p code r) s = .next t ∧ t.fld F.PT_FLAGS_BAD_TYPE p = 1 ∧
      t.fld F.PT_PROTO_COUNT p = (s.fld F.PT_PROTO_COUNT p + 1) % 2 ^ 48 ∧ (t.port p).tags = (s.port p).tags ∧ s.otherPorts t p ∧
      t.sent.filter (fun o => !o.isCredit) = s.sent.filter (fun o => !o.isCredit) ∧ t.mem = s.mem ∧ t.draws = s.draws ∧
      RegsBut s t (fun o => o = Reg.offset .PT_PROTO p ∨ o = Reg.offset .PT_FLAGS p ∨ o = Reg.offset .MW_IRQ_CAUSE 0)) ∧
    (code = 0 ∨ 10 ≤ code.toNat → ∃ t, exec (.rspData p code r) s = .next t ∧ s.answered t p r.hdr .badOpcode false [] ∧ s.otherPorts t p ∧
      t.mem = s.mem ∧ t.draws = s.draws ∧ RegsBut s t (fun _ => False))) ∧
  (∀ (p : Nat) (h : BitVec 10) (c : BitVec 12) (s : State), p < 32 → s.life.porstN = true →
    ∃ t, exec (.crd p h c) s = .next t ∧ t = { s with regs := t.regs } ∧
      t.fld F.PT_STAT_OUT_HDR p = Nat.min (s.fld F.PT_STAT_OUT_HDR p + h.toNat) (2 ^ F.PT_STAT_OUT_HDR.w - 1) ∧
      t.fld F.PT_STAT_OUT_SECT p = Nat.min (s.fld F.PT_STAT_OUT_SECT p + c.toNat) (2 ^ F.PT_STAT_OUT_SECT.w - 1) ∧
      RegsBut s t (fun o => o = Reg.offset .PT_STAT p)) ∧
  ∀ (p k : Nat) (b : BlockTag) (c : Cmd) (s : State), p < 32 → Tab.get (fun _ => none) (s.port p).btags k = some b → b.abandoned = false →
    b.sent + 2 ^ s.fld F.PT_CTL_RSP_TMO_LOG2 p ≤ s.power.cycles → s.cmd b.drawer b.pos = some c →
    ∃ t, exec (.rspTmo p k) s = .next t ∧
      t.port p = { s.port p with btags := Tab.set (fun _ => none) (s.port p).btags k (some { b with abandoned := true }) } ∧
      t.cmd b.drawer b.pos = some { c with portStatus := some (c.portStatus.getD .degraded) } ∧
      t.fld F.PT_FLAGS_RSP_TMO p = 1 ∧ t.bit F.MW_IRQ_CAUSE_EVENT 0 1 = true ∧
      RegsBut s t (fun o => o = Reg.offset .PT_FLAGS p ∨ o = Reg.offset .MW_IRQ_CAUSE 0) ∧ t.mem = s.mem

/-- PORT_RESET, PORT_RESET_DONE, STARVE and REGULATOR_RESUME (R171, R181, R182, R224): a reset sets RESETTING; with every partner tag
answered it ends with RESETTING and FAULT clear, no block tag in use, the pools at the sizes of PT_CREDp and the port interrupt; STARVE
lines take their levels; a regulator with tokens lets the returns it held go. -/
def Obligations.PortsRecover : Prop :=
  (∀ (p : Nat) (s : State), p < 32 → s.csrOpen = true → ∃ t, exec (.portReset p) s = .next t ∧ t = { s with regs := t.regs } ∧
    t.reg .PT_STAT p = Fld.into F.PT_STAT_RESETTING (s.reg .PT_STAT p) 1 ∧ RegsBut s t (fun o => o = Reg.offset .PT_STAT p)) ∧
  (∀ (p : Nat) (s : State), p < 32 → s.flag F.PT_STAT_RESETTING p = true → (s.port p).busyTags = 0 → s.heldReqs p = [] → (s.port p).btags = [] →
    ∃ t, exec (.portResetDone p) s = .next t ∧
      t.fld F.PT_STAT_RESETTING p = 0 ∧ t.fld F.PT_STAT_FAULT p = 0 ∧ (t.port p).btags = [] ∧
      (t.port p).size 0 = ⟨Nat.min (s.fld F.PT_CRED_TC0_HDR p) 1024, Nat.min (s.fld F.PT_CRED_TC0_SECT p) 4096⟩ ∧
      (t.port p).size 1 = ⟨1024 - Nat.min (s.fld F.PT_CRED_TC0_HDR p) 1024, 4096 - Nat.min (s.fld F.PT_CRED_TC0_SECT p) 4096⟩ ∧
      (∀ n tc, s.shares p n tc = true → tc < 2 → n < 64 → ((t.port p).account n tc).held = t.share p n tc) ∧
      t.bit F.MW_IRQ_CAUSE_EVENT 0 1 = true ∧ s.otherPorts t p ∧ t.mem = s.mem ∧ t.draws = s.draws ∧
      RegsBut s t (fun o => o = Reg.offset .PT_STAT p ∨ o = Reg.offset .MW_IRQ_CAUSE 0)) ∧
  (∀ (p : Nat) (a b : Bool) (s : State), p < 32 →
    exec (.starve p a b) s = .next (s.setPort p { s.port p with starve0 := a, starve1 := b })) ∧
  ∀ (n : Nat) (s : State), n < 64 → s.dry n = false → s.creditsHeld = false → (∀ p < 32, s.flag F.PT_STAT_FAULT p = false) →
    ∃ t, exec (.regulatorResume n) s = .next t ∧ (∀ p < 32, ∀ h ∈ (t.port p).returns, h.part ≠ n) ∧
      (∀ p < 32, (t.port p).returns = (s.port p).returns.filter fun h => s.dry h.part) ∧
      t = { s with
        sent := t.sent
        ports := { s.ports with port := t.ports.port } }

/-! ## The management port (07) -/

/-- READ, WRITE, ENUM and MGT_RESPONSE (R184 to R186): a READ for this block is answered with the register's word, a WRITE does what R341
says of the register and is answered with its status, a packet for another block goes on downstream with a fresh CRC, the last block refuses
it, and one with a failing CRC is dropped and counted; an undefined KIND, and an offset that is no multiple of 8 or lies beyond CSR space,
are answered BAD_ARG, and what may not be reached yet NOT_PERMITTED; ENUM numbers the block and is passed on raised by one, a value of 64 or
more leaves it without a number, and the last block answers with the count. -/
def Obligations.ManagementPort : Prop :=
  (∀ (m : MgtPkt) (s : State), s.mgtUp = true → mgtGood 1 m = true → s.flag F.PT_MGT_ID_ASSIGNED 0 = true →
    s.fld F.PT_MGT_ID_BLOCK_ID 0 = m.bid.toNat → badOffset m.offset = false → s.mgtMay m.offset.toNat = true →
    m.offset.toNat ≠ Reg.offset .CR_NS_DATA 3 →
    ∃ t, exec (.read 1 m) s = .next t ∧
      t.sent = .mgtUp 9 (mgtSeal 9 { m with
        w0hi := 0
        dataLo := (s.csrRead m.offset.toNat).1.setWidth 32
        dataHi := ((s.csrRead m.offset.toNat).1 >>> 32).setWidth 32 }) :: s.sent ∧
      t = { s with sent := t.sent }) ∧
  (∀ (m : MgtPkt) (s : State), s.mgtUp = true → mgtGood 2 m = true → s.flag F.PT_MGT_ID_ASSIGNED 0 = true →
    s.fld F.PT_MGT_ID_BLOCK_ID 0 = m.bid.toNat → badOffset m.offset = false → s.mgtMay m.offset.toNat = true →
    m.offset.toNat ≠ Reg.offset .PT_MGT_ID 0 →
    ∃ t, exec (.write m) s = .next t ∧
      (∃ a, t.sent = .mgtUp 9 a :: (s.csrWrite m.offset.toNat (m.dataHi ++ m.dataLo)).2.sent ∧
        a.w0hi.toNat = (s.csrWrite m.offset.toNat (m.dataHi ++ m.dataLo)).1.code ∧ a.bid = m.bid ∧ a.tag = m.tag ∧ mgtGood 9 a = true) ∧
      t = { (s.csrWrite m.offset.toNat (m.dataHi ++ m.dataLo)).2 with
        sent := t.sent
        freeCtr := (s.csrWrite m.offset.toNat (m.dataHi ++ m.dataLo)).2.freeCtr + 1 }) ∧
  (∀ (i : Instr) (kind : BitVec 4) (m : MgtPkt) (st : Status) (s : State),
    i = .read kind m ∧ kind ≠ 2 ∧ kind ≠ 3 ∨ i = .write m ∧ kind = 2 → s.mgtUp = true → mgtGood kind m = true →
    s.flag F.PT_MGT_ID_ASSIGNED 0 = true → s.fld F.PT_MGT_ID_BLOCK_ID 0 = m.bid.toNat →
    (kind ≠ 1 ∧ kind ≠ 2 ∨ badOffset m.offset = true) ∧ st = .badArg ∨
      (kind = 1 ∨ kind = 2) ∧ badOffset m.offset = false ∧ s.mgtMay m.offset.toNat = false ∧ st = .notPermitted →
    ∃ t, exec i s = .next t ∧
      (∃ a, t.sent = .mgtUp 9 a :: s.sent ∧ a.w0hi.toNat = st.code ∧ a.bid = m.bid ∧ a.tag = m.tag ∧ mgtGood 9 a = true) ∧
      t = { s with
        sent := t.sent
        freeCtr := s.freeCtr + 1 }) ∧
  (∀ (i : Instr) (kind : BitVec 4) (m : MgtPkt) (s : State), i = .read kind m ∧ kind ≠ 2 ∧ kind ≠ 3 ∨ i = .write m ∧ kind = 2 → s.mgtUp = true →
    (mgtGood kind m = false → ∃ t, exec i s = .next t ∧ t = { s with regs := t.regs } ∧
      t.fld F.PT_MGT_STAT_CRC_DROPS 0 = Nat.min (s.fld F.PT_MGT_STAT_CRC_DROPS 0 + 1) (2 ^ F.PT_MGT_STAT_CRC_DROPS.w - 1) ∧
      RegsBut s t (fun o => o = Reg.offset .PT_MGT_STAT 0)) ∧
    (mgtGood kind m = true → s.flag F.PT_MGT_ID_ASSIGNED 0 = false ∨ s.fld F.PT_MGT_ID_BLOCK_ID 0 ≠ m.bid.toNat →
      s.life.dnPresent = true → exec i s = .next (s.emit (.mgtDown kind (mgtSeal kind m)))) ∧
    (mgtGood kind m = true → s.flag F.PT_MGT_ID_ASSIGNED 0 = false ∨ s.fld F.PT_MGT_ID_BLOCK_ID 0 ≠ m.bid.toNat →
      s.life.dnPresent = false → ∃ t, exec i s = .next t ∧
        (∃ a, t.sent = .mgtUp 9 a :: s.sent ∧ a.w0hi.toNat = Status.badArg.code ∧ a.tag = m.tag ∧ mgtGood 9 a = true) ∧
        t.fld F.PT_MGT_STAT_BAD_BID 0 = Nat.min (s.fld F.PT_MGT_STAT_BAD_BID 0 + 1) (2 ^ F.PT_MGT_STAT_BAD_BID.w - 1) ∧
        RegsBut s t (fun o => o = Reg.offset .PT_MGT_STAT 0))) ∧
  (∀ (m : MgtPkt) (s : State), s.mgtUp = true → mgtGood 3 m = true →
    ∃ t, exec (.enum m) s = .next t ∧
      (m.dataLo.toNat < 64 → t.fld F.PT_MGT_ID_BLOCK_ID 0 = m.dataLo.toNat ∧ t.fld F.PT_MGT_ID_ASSIGNED 0 = 1) ∧
      (64 ≤ m.dataLo.toNat → t.fld F.PT_MGT_ID_BLOCK_ID 0 = 0 ∧ t.fld F.PT_MGT_ID_ASSIGNED 0 = 0) ∧
      RegsBut s t (fun o => o = Reg.offset .PT_MGT_ID 0) ∧ t.sent.tail = s.sent ∧
      (s.life.dnPresent = true → t.sent.head? = some (.mgtDown 3 (mgtSeal 3 { m with dataLo := m.dataLo + 1 }))) ∧
      (s.life.dnPresent = false → ∃ a, t.sent.head? = some (.mgtUp 9 a) ∧ mgtGood 9 a = true ∧ a.w0hi.toNat = Status.ok.code ∧
        a.tag = m.tag ∧ a.bid.toNat = t.fld F.PT_MGT_ID_BLOCK_ID 0 ∧
        (m.dataLo.toNat < 64 → a.dataLo.toNat = m.dataLo.toNat + 1 ∧ a.dataHi = 0) ∧
        (64 ≤ m.dataLo.toNat → a.dataLo.toNat = 64 ∧ a.dataHi.toNat = 2 ^ 8)) ∧
      t = { s with
        sent := t.sent
        regs := t.regs }) ∧
  ∀ (m : MgtPkt) (s : State), s.mgtUp = true → mgtGood 9 m = true →
    exec (.mgtResponse m) s = .next (s.emit (.mgtUp 9 (mgtSeal 9 m)))

/-! ## Time, SYNC and the Crucible (11) -/

/-- SYNC frames (R282, R286): outside the ring every frame is copied through; inside it, one whose CRC fails is dropped and counted. ARRIVE,
WITHDRAW, RELEASE and RELEASE_REPEAT (R286): the root counts arrivals, forwards those of others, and on the last one sends RELEASE with GTC
+ MARGIN, to be sent again 256 ticks later; a withdrawal takes one back; a RELEASE gives every waiting BARRIER of its BAR_ID its opening
time, once, and goes on unless this block sent that very frame, which it then drops (log 60: how a block knows its own is the model's). -/
def Obligations.SyncCountsBarriers : Prop :=
  (∀ (f : SyncFrame) (n : Nat) (i : Instr) (k : BitVec 4) (s : State), s.life.porstN = true → s.lc ≠ lcPll →
    i = .align f n ∧ k = 1 ∨ i = .arrive f ∧ k = 2 ∨ i = .release f ∧ k = 3 ∨ i = .withdraw f ∧ k = 4 →
    (s.flag F.GT_CTL_SYNC_EN 0 = false → exec i s = .next (s.emit (.sync k f))) ∧
    (s.flag F.GT_CTL_SYNC_EN 0 = true → f.crc ≠ crc16 0xFFFF#16 (k.setWidth 8 :: (bytesOf 9 f.payload).reverse) →
      ∃ t, exec i s = .next t ∧ t = { s with regs := t.regs } ∧
        t.fld F.GT_SYNC_STAT_CRC_DROPS 0 = Nat.min (s.fld F.GT_SYNC_STAT_CRC_DROPS 0 + 1) (2 ^ F.GT_SYNC_STAT_CRC_DROPS.w - 1) ∧
        RegsBut s t (fun o => o = Reg.offset .GT_SYNC_STAT 0))) ∧
  (∀ (f g : SyncFrame) (bar m : Nat) (s : State), s.life.porstN = true → s.lc ≠ lcPll → s.flag F.GT_CTL_SYNC_EN 0 = true →
    f.crc = crc16 0xFFFF#16 (2#8 :: (bytesOf 9 f.payload).reverse) → s.flag F.GT_CTL_ROOT 0 = true →
    f.payload.toNat / 16 % 64 ≠ s.fld F.PT_MGT_ID_BLOCK_ID 0 → bar = f.payload.toNat % 16 → m = f.payload.toNat / 1024 % 64 →
    g = syncFrame 3 (BitVec.ofNat 72 (bar + 16 * ((s.gtc + s.fld F.GT_BAR_MARGIN_MARGIN 0) % 2 ^ 64))) →
    (s.arrived bar + 1 ≠ m + 1 → ∃ t, exec (.arrive f) s = .next t ∧ t.arrived bar = s.arrived bar + 1 ∧
      (∀ b, b ≠ bar → t.arrived b = s.arrived b) ∧ t.sent = .sync 2 f :: s.sent ∧
      t = { s with
        sent := t.sent
        time := { s.time with arrivals := t.time.arrivals } }) ∧
    (s.arrived bar = m → ∃ t, exec (.arrive f) s = .next t ∧ t.arrived bar = 0 ∧ (∀ b, b ≠ bar → t.arrived b = s.arrived b) ∧
      t.sent = .sync 3 g :: .sync 2 f :: s.sent ∧ t.time.repeats = s.time.repeats ++ [⟨bar, g, s.tick + 256⟩] ∧
      t = { s with
        sent := t.sent
        time := { s.time with
          arrivals := t.time.arrivals
          repeats := t.time.repeats
          released := s.time.released ++ [g] } })) ∧
  (∀ (f : SyncFrame) (bar : Nat) (s : State), s.life.porstN = true → s.lc ≠ lcPll → s.flag F.GT_CTL_SYNC_EN 0 = true →
    f.crc = crc16 0xFFFF#16 (4#8 :: (bytesOf 9 f.payload).reverse) → s.flag F.GT_CTL_ROOT 0 = true →
    f.payload.toNat / 16 % 64 ≠ s.fld F.PT_MGT_ID_BLOCK_ID 0 → bar = f.payload.toNat % 16 →
    ∃ t, exec (.withdraw f) s = .next t ∧ t.arrived bar = s.arrived bar - 1 ∧ (∀ b, b ≠ bar → t.arrived b = s.arrived b) ∧
      t.sent = .sync 4 f :: s.sent ∧ t = { s with
        sent := t.sent
        time := { s.time with arrivals := t.time.arrivals } }) ∧
  (∀ (f : SyncFrame) (bar r : Nat) (s : State), s.life.porstN = true → s.lc ≠ lcPll → s.flag F.GT_CTL_SYNC_EN 0 = true →
    f.crc = crc16 0xFFFF#16 (3#8 :: (bytesOf 9 f.payload).reverse) → bar = f.payload.toNat % 16 → r = f.payload.toNat / 16 % 2 ^ 64 →
    ∃ t, exec (.release f) s = .next t ∧
      (f ∉ s.time.released → t.sent = .sync 3 f :: s.sent ∧ t.time.released = s.time.released) ∧
      (f ∈ s.time.released → t.sent = s.sent ∧ t.time.released = s.time.released.erase f) ∧
      (∀ d < 64, (t.drawer d).barrier = (s.drawer d).barrier.map fun b =>
        if b.id = bar ∧ b.release = none then { b with release := some r } else b) ∧
      (∀ d, (t.drawer d).cmds = (s.drawer d).cmds) ∧ t.regs = s.regs ∧ t.mem = s.mem ∧ t.ports = s.ports) ∧
  ∀ (bar : Fin 16) (x : Repeat) (s : State), s.time.repeats = [x] → x.bar = bar.val → x.due ≤ s.tick → s.flag F.GT_CTL_SYNC_EN 0 = true →
    ∃ t, exec (.releaseRepeat bar) s = .next t ∧ t.sent = .sync 3 x.frame :: s.sent ∧ t.time.repeats = [] ∧
      t = { s with
        sent := t.sent
        time := { s.time with
          repeats := []
          released := s.time.released ++ [x.frame] } }

/-- ALIGN, ALIGN_HOLD_END, SEND_ALIGN and ADVANCE (R268, R283): a value not below GTC is taken at once, and the block's own ALIGN carries
the new GTC; a lower one holds GTC until the tick count has caught up; the root sends ALIGN with its GTC; ADVANCE raises STEP by one. -/
def Obligations.TimeIsAligned : Prop :=
  (∀ (f : SyncFrame) (n v : Nat) (s : State), s.life.porstN = true → s.lc ≠ lcPll → s.flag F.GT_CTL_SYNC_EN 0 = true →
    f.crc = crc16 0xFFFF#16 (1#8 :: (bytesOf 9 f.payload).reverse) → s.flag F.GT_CTL_ROOT 0 = false →
    s.flag F.GT_CTL_ACCEPT_ALIGN 0 = true → s.fld F.GT_SYNC_DLY_DLY 0 % 16 = 0 →
    v = (f.payload.toNat % 2 ^ 64 + n + s.fld F.GT_SYNC_DLY_DLY 0 / 16) % 2 ^ 64 →
    (s.gtc ≤ v → (∀ d < 64, (s.drawer d).launch = none ∧ (s.drawer d).barrier = none) →
      ∃ t, exec (.align f n) s = .next t ∧ t.gtc = v ∧ t.fld F.GT_CTL_ALIGNED 0 = 1 ∧ t.time.holdUntil = none ∧
        t.fld F.GT_SYNC_STAT_LAST_ALIGN_DELTA 0 = Nat.min (v - s.gtc) 32767 ∧
        t.sent = .sync 1 (syncFrame 1 (BitVec.ofNat 72 v)) :: s.sent ∧
        RegsBut s t (fun o => o = Reg.offset .GT_TIME 0 ∨ o = Reg.offset .GT_CTL 0 ∨ o = Reg.offset .GT_SYNC_STAT 0) ∧
        t.mem = s.mem ∧ t.draws = s.draws ∧ t.ports = s.ports) ∧
    (v < s.gtc → exec (.align f n) s = .next
      { s with time := { s.time with holdUntil := some (s.tick + (s.gtc - v)), holdBy := s.gtc - v } })) ∧
  (∀ (x : Nat) (s : State), s.time.holdUntil = some x → x ≤ s.tick → s.time.holdBy ≤ 32767 →
    ∃ t, exec .alignHoldEnd s = .next t ∧ t.time.holdUntil = none ∧ t.gtc = s.gtc ∧ t.fld F.GT_CTL_ALIGNED 0 = 1 ∧
      t.fld F.GT_SYNC_STAT_LAST_ALIGN_DELTA 0 = (65536 - s.time.holdBy) % 65536 ∧
      (s.flag F.GT_CTL_SYNC_EN 0 = true → t.sent = .sync 1 (syncFrame 1 (BitVec.ofNat 72 s.gtc)) :: s.sent) ∧
      RegsBut s t (fun o => o = Reg.offset .GT_CTL 0 ∨ o = Reg.offset .GT_SYNC_STAT 0)) ∧
  (∀ (s : State), s.csrOpen = true → s.flag F.GT_CTL_ROOT 0 = true → s.flag F.GT_CTL_SYNC_EN 0 = true →
    exec .sendAlign s = .next (s.emit (.sync 1 (syncFrame 1 (BitVec.ofNat 72 s.gtc))))) ∧
  ∀ (s : State), s.csrOpen = true → ∃ t, exec .advance s = .next t ∧
    t.fld F.GT_STEP_STEP 0 = (s.fld F.GT_STEP_STEP 0 + 1) % 2 ^ F.GT_STEP_STEP.w ∧ t = { s with regs := t.regs } ∧
    RegsBut s t (fun o => o = Reg.offset .GT_STEP 0)

/-- SEED_STAGE, SEED_COMMIT, SEED_REQ, SEED_READY and SEED_CONSUME (R271, R277, R332): words 0 to 2 of a seed are staged and the write of
word 3 commits all four of that partition alone; a request with four healthy oscillators begins to collect, with fewer it is refused with
SEED_ERR; 1,024 raw bits become a waiting seed, and reading its last word clears it. NS_EN, NS_RESTART and OSC_SAMPLE (R276, Table 11-4):
NS_EN takes its bit; a restart gives every failed oscillator a fresh start-up test; the 41st equal sample in a row fails an oscillator,
which is marked, counted and excluded, and raises the Crucible interrupt; samples of healthy ones join the seed being collected. -/
def Obligations.SeedsAndNoiseSource : Prop :=
  ((∀ (n : Fin 64) (w : Fin 3) (v : Word) (s : State), s.csrOpen = true → ∃ t, exec (.seedStage n w v) s = .next t ∧
    t.staged n.val w.val = v ∧ (∀ m k, k < 3 → (m, k) ≠ (n.val, w.val) → t.staged m k = s.staged m k) ∧
    t = { s with time := { s.time with staged := t.time.staged } }) ∧
  (∀ (n : Fin 64) (v : Word) (s : State), s.csrOpen = true → ∃ t, exec (.seedCommit n v) s = .next t ∧
    t.seed n.val = v ++ s.staged n.val 2 ++ s.staged n.val 1 ++ s.staged n.val 0 ∧
    (∀ m < 64, m ≠ n.val → t.seed m = s.seed m) ∧ t = { s with regs := t.regs } ∧
    RegsBut s t (fun o => ∃ k < 4, o = Reg.offset .CR_SEED (4 * n.val + k))) ∧
  (∀ (s : State), s.csrOpen = true → s.time.seedBits = none → s.flag F.CR_NS_STAT_SEED_READY 0 = false →
    (4 ≤ s.healthy.length → exec .seedReq s = .next { s with time := { s.time with seedBits := some [] } }) ∧
    (s.healthy.length < 4 → ∃ t, exec .seedReq s = .next t ∧ t.fld F.CR_NS_STAT_SEED_ERR 0 = 1 ∧
      t.bit F.MW_IRQ_CAUSE_EVENT 0 6 = true ∧ t = { s with regs := t.regs } ∧
      RegsBut s t (fun o => o = Reg.offset .CR_NS_STAT 0 ∨ o = Reg.offset .MW_IRQ_CAUSE 0))) ∧
  (∀ (l : List Bool) (s : State), s.time.seedBits = some l → l.length = 1024 → 4 ≤ s.healthy.length →
    ∃ t, exec .seedReady s = .next t ∧ t.time.seedBits = none ∧ t.fld F.CR_NS_STAT_SEED_READY 0 = 1 ∧
      t.bit F.MW_IRQ_CAUSE_EVENT 0 6 = true ∧
      (∀ w < 4, t.reg .CR_NS_DATA w = BitVec.ofNat 64 ((seedCondition l).toNat / 2 ^ (64 * w))) ∧
      RegsBut s t (fun o => o = Reg.offset .CR_NS_STAT 0 ∨ o = Reg.offset .MW_IRQ_CAUSE 0 ∨ ∃ w < 4, o = Reg.offset .CR_NS_DATA w)) ∧
  ∀ (s : State), s.csrOpen = true → s.flag F.CR_NS_STAT_SEED_READY 0 = true → ∃ t, exec .seedConsume s = .next t ∧
    t.fld F.CR_NS_STAT_SEED_READY 0 = 0 ∧ (∀ w < 4, t.reg .CR_NS_DATA w = 0) ∧ t = { s with regs := t.regs } ∧
    RegsBut s t (fun o => o = Reg.offset .CR_NS_STAT 0 ∨ ∃ w < 4, o = Reg.offset .CR_NS_DATA w)) ∧
  (∀ (b : Bool) (s : State), s.csrOpen = true → ∃ t, exec (.nsEn b) s = .next t ∧ t.fld F.CR_CTL_NS_EN 0 = (if b then 1 else 0) ∧
    t = { s with regs := t.regs } ∧ RegsBut s t (fun o => o = Reg.offset .CR_CTL 0)) ∧
  (∀ (s : State), s.csrOpen = true → ∃ t, exec .nsRestart s = .next t ∧ t.fld F.CR_NS_STAT_OSC_FAIL 0 = 0 ∧
    (∀ k < 8, t.osc k = if s.bit F.CR_NS_STAT_OSC_FAIL 0 k then Osc.fresh else s.osc k) ∧
    RegsBut s t (fun o => o = Reg.offset .CR_NS_STAT 0) ∧ t.time.staged = s.time.staged ∧ t.mem = s.mem) ∧
  (∀ (x : BitVec 8) (k : Nat) (s : State), s.life.porstN = true → s.flag F.CR_CTL_NS_EN 0 = true → k < 8 →
    s.bit F.CR_NS_STAT_OSC_FAIL 0 k = false → (s.osc k).last = some (x.getLsbD k) → (s.osc k).run = 40 →
    ∃ t, exec (.oscSample x) s = .next t ∧ t.bit F.CR_NS_STAT_OSC_FAIL 0 k = true ∧ t.osc k = Osc.fresh ∧
      t.bit F.MW_IRQ_CAUSE_EVENT 0 6 = true ∧
      RegsBut s t (fun o => o = Reg.offset .CR_NS_STAT 0 ∨ o = Reg.offset .MW_IRQ_CAUSE 0) ∧ t.mem = s.mem ∧ t.draws = s.draws) ∧
  ∀ (x : BitVec 8) (l : List Bool) (s : State), s.life.porstN = true → s.flag F.CR_CTL_NS_EN 0 = true → s.time.seedBits = some l →
    l.length + 8 ≤ 1024 → (∀ k < 8, s.oscOk k = true ∧ (s.osc k).last = some (!x.getLsbD k) ∧ (s.osc k).winPos = 0) →
    ∃ t, exec (.oscSample x) s = .next t ∧ t.time.seedBits = some (l ++ (List.range 8).map fun k => x.getLsbD k) ∧
      t.regs = s.regs ∧ t.mem = s.mem ∧ t.draws = s.draws

/-! ## Registers with a row of their own (05, 09, 13, 14) -/

/-- DRAWER_ENABLE, DRAWER_DISABLE and DR_DB_WRITE (R113, R115, R124): rings that R113 admits put every position at 0 and ENABLE at 1; others
set CFG_ERR and the Drawer-error cause; a ring with a retired channel is lost at once; disabling clears ENABLE and RING_LOST alone; a write of DR_DBn takes both positions where both
occupancies allow it. MW_IRQ_SET and REGISTER_WRITE (R335, R341): the written cause bits are set and the others kept; a write of a register
whose fields act by their access alone replaces each RW field, clears the bits written 1 of each W1C field and leaves every other bit and
register; a write of no register's offset changes nothing. -/
def Obligations.RegisterCommandsAct : Prop :=
  ((∀ (n : Fin 64) (s : State), s.csrOpen = true → s.flag F.DR_CTL_ENABLE n.val = false →
    (s.ringOk n.val (s.sqBase n.val) (64 * s.sqSize n.val) (s.fld F.DR_SQ_BASE_SQ_LOG2 n.val) = true →
      s.ringOk n.val (s.cqBase n.val) (32 * s.cqSize n.val) (s.fld F.DR_CQ_BASE_CQ_LOG2 n.val) = true → s.ringRetired n.val = false →
      ∃ t, exec (.drawerEnable n) s = .next t ∧ t.fld F.DR_CTL_ENABLE n.val = 1 ∧ t.sqHead n.val = 0 ∧ t.cqTail n.val = 0 ∧
        t.sqTail n.val = 0 ∧ t.cqHead n.val = 0 ∧ t.fld F.DR_STAT_RING_LOST n.val = 0 ∧
        t.drawer n.val = { s.drawer n.val with
          records := 0
          completed := 0
          epoch := if (s.drawer n.val).cmds = [] then 0 else (s.drawer n.val).epoch + 1 } ∧
        (∀ e, e ≠ n.val → t.drawer e = s.drawer e) ∧ t.mem = s.mem ∧
        RegsBut s t (fun o => o = Reg.offset .DR_CTL n.val ∨ o = Reg.offset .DR_STAT n.val ∨ o = Reg.offset .DR_DB n.val)) ∧
    (s.ringOk n.val (s.sqBase n.val) (64 * s.sqSize n.val) (s.fld F.DR_SQ_BASE_SQ_LOG2 n.val) = true →
      s.ringOk n.val (s.cqBase n.val) (32 * s.cqSize n.val) (s.fld F.DR_CQ_BASE_CQ_LOG2 n.val) = true → s.ringRetired n.val = true →
      ∃ t, exec (.drawerEnable n) s = .next t ∧ t.fld F.DR_CTL_ENABLE n.val = 1 ∧ t.fld F.DR_STAT_RING_LOST n.val = 1 ∧
        t.bit F.MW_IRQ_CAUSE_EVENT 0 0 = true ∧ (∀ c ∈ (t.drawer n.val).cmds, c.lostRing = true) ∧ t.mem = s.mem) ∧
    (s.ringOk n.val (s.sqBase n.val) (64 * s.sqSize n.val) (s.fld F.DR_SQ_BASE_SQ_LOG2 n.val) = false ∨
        s.ringOk n.val (s.cqBase n.val) (32 * s.cqSize n.val) (s.fld F.DR_CQ_BASE_CQ_LOG2 n.val) = false →
      ∃ t, exec (.drawerEnable n) s = .next t ∧ t.fld F.DR_CTL_ENABLE n.val = 0 ∧ t.fld F.DR_CTL_CFG_ERR n.val = 1 ∧
        t.bit F.MW_IRQ_CAUSE_EVENT 0 7 = true ∧ t = { s with regs := t.regs } ∧
        RegsBut s t (fun o => o = Reg.offset .DR_CTL n.val ∨ o = Reg.offset .MW_IRQ_CAUSE 0))) ∧
  (∀ (n : Fin 64) (s : State), s.csrOpen = true → ∃ t, exec (.drawerDisable n) s = .next t ∧
    t = { s with regs := t.regs } ∧ RegsAre s t
      [(.DR_CTL, n.val, Fld.into F.DR_CTL_ENABLE (s.reg .DR_CTL n.val) 0),
       (.DR_STAT, n.val, Fld.into F.DR_STAT_RING_LOST (s.reg .DR_STAT n.val) 0)]) ∧
  ∀ (n : Fin 64) (v : Word) (a b : Nat) (s : State), s.csrOpen = true → s.flag F.DR_CTL_ENABLE n.val = true → a = v.toNat % 2 ^ 17 →
    b = v.toNat / 2 ^ 32 % 2 ^ 17 → (a + 2 ^ 17 - s.sqHead n.val) % 2 ^ 17 ≤ s.sqSize n.val →
    (s.cqTail n.val + 2 ^ 17 - b) % 2 ^ 17 ≤ s.cqSize n.val →
    ∃ t, exec (.drDbWrite n v) s = .next t ∧ t.sqTail n.val = a ∧ t.cqHead n.val = b ∧ t = { s with regs := t.regs } ∧
      RegsBut s t (fun o => o = Reg.offset .DR_DB n.val)) ∧
  (∀ (v : BitVec 8) (s : State), s.csrOpen = true → ∃ t, exec (.mwIrqSet v) s = .next t ∧ t = { s with regs := t.regs } ∧
    t.fld F.MW_IRQ_CAUSE_EVENT 0 = s.fld F.MW_IRQ_CAUSE_EVENT 0 ||| v.toNat ∧ t.fld F.MW_IRQ_CAUSE_DRAWER 0 = s.fld F.MW_IRQ_CAUSE_DRAWER 0 ∧
    RegsBut s t (fun o => o = Reg.offset .MW_IRQ_CAUSE 0)) ∧
  (∀ (o : BitVec 24) (v : Word) (r : Reg) (i : Nat) (s : State), s.csrOpen = true → Reg.ofOffset o.toNat = some (r, i) →
    r ∈ [.MW_IRQ_MASK, .PT_FLAGS, .IN_STAT, .GT_SYNC_DLY, .CR_RCTX0, .CR_RCTX1, .PA_PORTS, .AV_ASSAY_STAT] →
    ∃ t, exec (.registerWrite o v) s = .next t ∧ t = { s with regs := t.regs } ∧ RegsBut s t (fun x => x = o.toNat) ∧
      ∀ f ∈ r.fields, (f.acc = .rw → t.fld f.fld i = Fld.of f.fld v) ∧ (f.acc = .ro ∨ f.acc = .wo → t.fld f.fld i = s.fld f.fld i) ∧
        (f.acc = .w1c → ∀ k < f.fld.w, t.bit f.fld i k = (s.bit f.fld i k && !(Fld.of f.fld v).testBit k))) ∧
  ∀ (o : BitVec 24) (v : Word) (s : State), Reg.ofOffset o.toNat = none ∨ s.csrOpen = false → exec (.registerWrite o v) s = .next s

/-- FLUSH, FLUSH_DONE, RES_WAYS and RES_WAYS_DONE (R221, R222): with every channel in service a flush leaves no dirty sector in any slice
and every sector's data as they were, and FLUSHING falls with FLUSH_DONE; RES_WAYS takes a value up to 12 while no bucket lives, and
RES_CHANGING falls once every set fits. -/
def Obligations.SideboardIsControlled : Prop :=
  (∀ (s : State), s.csrOpen = true → s.allServed → s.draws.buckets = [] → s.sound →
    ∃ t, exec .flush s = .next t ∧ t.fld F.SB_STAT_FLUSHING 0 = 1 ∧ (∀ l, l.k < 2 ^ 26 → t.now l = s.now l) ∧
      (∀ n, (t.slice n).dirtyBursts = []) ∧ RegsBut s t (fun o => o = Reg.offset .SB_STAT 0) ∧ t.ports = s.ports ∧ t.draws = s.draws) ∧
  (∀ (s : State), s.flag F.SB_STAT_FLUSHING 0 = true → (∀ n, (s.slice n).dirtyBursts = []) →
    ∃ t, exec .flushDone s = .next t ∧ t.reg .SB_STAT 0 = Fld.into F.SB_STAT_FLUSHING (s.reg .SB_STAT 0) 0 ∧
      t = { s with regs := t.regs } ∧ RegsBut s t (fun o => o = Reg.offset .SB_STAT 0)) ∧
  (∀ (v : BitVec 4) (s : State), s.csrOpen = true → v.toNat ≤ 12 → v.toNat ≠ s.fld F.SB_CTL_RES_WAYS 0 → s.draws.buckets = [] →
    s.mem.slices = [] → ∃ t, exec (.resWays v) s = .next t ∧ t = { s with regs := t.regs } ∧ RegsAre s t
      [(.SB_CTL, 0, Fld.into F.SB_CTL_RES_WAYS (s.reg .SB_CTL 0) v.toNat),
       (.SB_STAT, 0, Fld.into F.SB_STAT_RES_CHANGING (s.reg .SB_STAT 0) 1)]) ∧
  (∀ (v : BitVec 4) (s : State), s.csrOpen = true → 12 < v.toNat ∨ v.toNat ≠ s.fld F.SB_CTL_RES_WAYS 0 ∧ s.draws.buckets ≠ [] →
    exec (.resWays v) s = .next s) ∧
  ∀ (s : State), s.flag F.SB_STAT_RES_CHANGING 0 = true → s.mem.slices = [] → ∃ t, exec .resWaysDone s = .next t ∧
    t = { s with regs := t.regs } ∧ RegsAre s t [(.SB_STAT, 0, Fld.into F.SB_STAT_RES_CHANGING (s.reg .SB_STAT 0) 0)]

/-- BUREAU_SYNC, BUREAU_WRITE, BUREAU_WRITE_DONE and ERRSUM_REFRESH (R320): an event asks for a write; the write takes it, with WRITING set
and PREPARED clear, and does nothing where none is asked for, one runs or the block is not in service; after step 4 the other bank is
current with the next SEQ and its header and body on the flash; after step 5 the bank it left holds the body too and is prepared; a failed
step sets WRITE_ERR and the life-cycle cause and takes back neither; 24 hours of GTC ask for a refresh. -/
def Obligations.BureauIsWritten : Prop :=
  (∀ (s : State), s.csrOpen = true → exec .bureauSync s = .next (s.setBureau { s.life.bureau with pending := true })) ∧
  (∀ (s : State), s.life.bureau.pending = true → s.life.bureau.writing = none → s.bureauFree = true →
    ∃ t, exec .bureauWrite s = .next t ∧ t.fld F.LC_BUREAU_WRITING 0 = 1 ∧ t.fld F.LC_BUREAU_PREPARED 0 = 0 ∧
      t.life.bureau.pending = false ∧ t.life.bureau.writing.isSome = true ∧ t.life.bureau.banked = false ∧
      t.life.bureau.retired = s.life.bureau.retired ∧ t.life.bureau.repairs = s.life.bureau.repairs ∧
      RegsBut s t (fun o => o = Reg.offset .LC_BUREAU 0) ∧ t.mem = s.mem) ∧
  (∀ (s : State), s.life.bureau.pending = false ∨ s.life.bureau.writing.isSome = true ∨ s.bureauFree = false →
    exec .bureauWrite s = .next s) ∧
  (∀ (body h : List Byte) (k q : Nat) (s : State), s.life.bureau.writing = some body → s.life.bureau.banked = false →
    k = (if s.flag F.LC_BUREAU_EMPTY 0 = true ∧ s.fld F.LC_BUREAU_SEQ 0 = 0 then 0 else 1 - s.fld F.LC_BUREAU_CUR_BANK 0) →
    q = (s.fld F.LC_BUREAU_SEQ 0 + 1) % 2 ^ 32 → h = BankHead.seal ⟨q, body.length, false, 0, 0, 0, 0, 0, 0⟩ body →
    (∃ t, exec (.bureauWriteDone .verified) s = .next t ∧ t.fld F.LC_BUREAU_CUR_BANK 0 = k ∧ t.fld F.LC_BUREAU_SEQ 0 = q ∧
      t.fld F.LC_BUREAU_PREPARED 0 = s.fld F.LC_BUREAU_PREPARED 0 ∧ t.fld F.LC_BUREAU_WRITING 0 = s.fld F.LC_BUREAU_WRITING 0 ∧
      t.life.bureau = { s.life.bureau with banked := true, body := body } ∧ t.sent = .flash k h body :: s.sent ∧
      RegsBut s t (fun o => o = Reg.offset .LC_BUREAU 0) ∧ t.mem = s.mem) ∧
    ∃ t, exec (.bureauWriteDone .prepared) s = .next t ∧ t.fld F.LC_BUREAU_CUR_BANK 0 = k ∧ t.fld F.LC_BUREAU_SEQ 0 = q ∧
      t.fld F.LC_BUREAU_PREPARED 0 = 1 ∧ t.fld F.LC_BUREAU_WRITING 0 = 0 ∧
      t.life.bureau = { s.life.bureau with writing := none, body := body } ∧
      t.sent = .flash (1 - k) [] body :: .flash k h body :: s.sent ∧ RegsBut s t (fun o => o = Reg.offset .LC_BUREAU 0) ∧ t.mem = s.mem) ∧
  (∀ (body : List Byte) (s : State), s.life.bureau.writing = some body → s.life.bureau.banked = true →
    exec (.bureauWriteDone .verified) s = .next s ∧
    ∃ t, exec (.bureauWriteDone .prepared) s = .next t ∧ t.fld F.LC_BUREAU_CUR_BANK 0 = s.fld F.LC_BUREAU_CUR_BANK 0 ∧
      t.fld F.LC_BUREAU_SEQ 0 = s.fld F.LC_BUREAU_SEQ 0 ∧ t.fld F.LC_BUREAU_PREPARED 0 = 1 ∧ t.fld F.LC_BUREAU_WRITING 0 = 0 ∧
      t.life.bureau = { s.life.bureau with writing := none, banked := false } ∧
      t.sent = .flash (1 - s.fld F.LC_BUREAU_CUR_BANK 0) [] body :: s.sent ∧
      RegsBut s t (fun o => o = Reg.offset .LC_BUREAU 0) ∧ t.mem = s.mem) ∧
  (∀ (body : List Byte) (s : State), s.life.bureau.writing = some body → ∃ t, exec (.bureauWriteDone .failed) s = .next t ∧
    t.fld F.LC_BUREAU_WRITE_ERR 0 = 1 ∧ t.fld F.LC_BUREAU_WRITING 0 = 0 ∧ t.bit F.MW_IRQ_CAUSE_EVENT 0 3 = true ∧
    t.fld F.LC_BUREAU_CUR_BANK 0 = s.fld F.LC_BUREAU_CUR_BANK 0 ∧ t.fld F.LC_BUREAU_SEQ 0 = s.fld F.LC_BUREAU_SEQ 0 ∧
    t.life.bureau = { s.life.bureau with writing := none, banked := false } ∧ t.sent = s.sent ∧
    RegsBut s t (fun o => o = Reg.offset .LC_BUREAU 0 ∨ o = Reg.offset .MW_IRQ_CAUSE 0)) ∧
  (∀ (o : BureauStep) (s : State), s.life.bureau.writing = none → exec (.bureauWriteDone o) s = .next s) ∧
  ∀ (s : State),
    (s.lc = lcReleased → s.life.bureau.lastRefresh + 86400 * 1600000000 ≤ s.gtc →
      exec .errsumRefresh s = .next (s.setBureau { s.life.bureau with lastRefresh := s.gtc, pending := true })) ∧
    (s.lc ≠ lcReleased ∨ s.gtc < s.life.bureau.lastRefresh + 86400 * 1600000000 → exec .errsumRefresh s = .next s)

/-! ## Integrity (10) -/

/-- DRAM_READ_DONE and CORRECT_WRITE_BACK (R230, R232, R233): a clean Guarded sector answers its RD with OK; one wrong bit is corrected,
answered with OK_CORRECTED, counted, and queued for write-back; two wrong bits in a word answer with DATA_FAULT and the Fault sector, and
reset the channel; a bit that flips in a gap register on the way answers with DATA_FAULT and counts in PAR_GAP (R236, R237), and the stack's
data stand. A write-back restores data and check bits of the oldest corrected sector unless its slice holds it dirty, and waits while its
bank group computes (R149). -/
def Obligations.ReadsReturn : Prop :=
  (∀ (n : Nat) (d : Desc) (l : Loc) (s : State), s.oneRead n d l → ∃ t, exec (.dramReadDone n [] []) s = .next t ∧
    s.answered t d.req.port d.req.r.hdr .ok false [mkSec (s.rawSector l)] ∧ t.chan n = { s.chan n with retry := [], turns := (t.chan n).turns } ∧
    s.otherPorts t d.req.port ∧ s.arrayKept t (fun _ => False) ∧ (∀ m < 256, t.chanState m = s.chanState m) ∧
    t.fld F.CE_CORR_COUNT n = s.fld F.CE_CORR_COUNT n) ∧
  (∀ (n j : Nat) (d : Desc) (l : Loc) (b : BitErr) (s : State), s.oneRead n d l →
    (b.check = 0 ∧ j < 64 ∧ b.data = 1#64 <<< j) ∨ (b.data = 0 ∧ j < 8 ∧ b.check = 1#8 <<< j) →
    ∃ t, exec (.dramReadDone n [(l.k, b)] []) s = .next t ∧
      s.answered t d.req.port d.req.r.hdr .okCorrected false [mkSec (s.rawSector l)] ∧ (t.chan n).retry = [] ∧
      (t.chan n).wback = (s.chan n).wback ++ [⟨l.k, s.rawSector l, some d.req.r.hdr.p⟩] ∧ s.otherPorts t d.req.port ∧
      s.arrayKept t (fun x => x = l) ∧ (∀ m < 256, t.chanState m = s.chanState m) ∧
      t.fld F.CE_CORR_COUNT n = (s.fld F.CE_CORR_COUNT n + 1) % 2 ^ 48) ∧
  (∀ (n i j : Nat) (d : Desc) (l : Loc) (b : BitErr) (s : State), s.oneRead n d l → b.check = 0 → i < j → j < 64 →
    b.data = 1#64 <<< i ^^^ 1#64 <<< j → ∃ t, exec (.dramReadDone n [(l.k, b)] []) s = .next t ∧
      s.answered t d.req.port d.req.r.hdr .dataFault false [faultSec] ∧ t.chanState n = 1 ∧ (t.chan n).cause = some l.k ∧
      (∀ m < 256, m ≠ n → t.chanState m = s.chanState m) ∧
      t.fld F.CE_UNCORR_COUNT n = (s.fld F.CE_UNCORR_COUNT n + 1) % 2 ^ 48 ∧ s.arrayKept t (fun x => x = l)) ∧
  (∀ (n i : Nat) (d : Desc) (l : Loc) (s : State), s.oneRead n d l → i < 512 →
    ∃ t, exec (.dramReadDone n [] [⟨(s.cell l).pc, .err, 1#512 <<< i⟩]) s = .next t ∧
      s.answered t d.req.port d.req.r.hdr .dataFault false [faultSec] ∧ t.mem.upsets = [] ∧ s.arrayKept t (fun _ => False) ∧
      t.fld F.IN_INTCNT_PAR_GAP 0 = Nat.min (s.fld F.IN_INTCNT_PAR_GAP 0 + 1) (2 ^ F.IN_INTCNT_PAR_GAP.w - 1) ∧
      (∀ m < 256, t.chanState m = s.chanState m) ∧ t.fld F.CE_CORR_COUNT n = s.fld F.CE_CORR_COUNT n) ∧
  ∀ (n k : Nat) (d : SectorBits) (p : Option Nat) (rest : List WBack) (s : State), n < 256 → s.chanState n = 0 →
    (s.chan n).selfRefresh = false → (s.chan n).wback = ⟨k, d, p⟩ :: rest → s.ports.waits = [] → (∀ m, m ≠ n → (s.chan m).retry = []) →
    (s.chan n).retry = [] →
    (s.bankInMode ⟨n, k⟩ = true → exec (.correctWriteBack n) s = .next s) ∧
    (s.bankInMode ⟨n, k⟩ = false → (∀ h, s.sliceHas ⟨n, k⟩ = some h → h.dirty = false) → s.mem.upsets = [] →
      ∃ t, exec (.correctWriteBack n) s = .next t ∧ t.rawSector ⟨n, k⟩ = d ∧ t.rawChecks ⟨n, k⟩ = sectorChecks d ∧
        (∀ l, l.n < 256 → l.k < 2 ^ 26 → k < 2 ^ 26 → l ≠ ⟨n, k⟩ → t.rawSector l = s.rawSector l ∧ t.rawChecks l = s.rawChecks l) ∧
        t.chan n = { s.chan n with wback := rest } ∧ t.regs = s.regs ∧ t.draws = s.draws ∧ t.mem.slices = s.mem.slices) ∧
    (∀ h, s.bankInMode ⟨n, k⟩ = false → s.sliceHas ⟨n, k⟩ = some h → h.dirty = true → ∃ t, exec (.correctWriteBack n) s = .next t ∧
      t.chan n = { s.chan n with wback := rest } ∧ t.mem.dram = s.mem.dram ∧ t.mem.chk = s.mem.chk ∧ t.regs = s.regs)

/-- MEND_ROW_ISSUE (R215, R244): the oldest whole stripe row of a Mend unit whose members are all in service is written: each data member as
it arrived, the parity member the exclusive-or of all of them, with check bits, and no other sector changes; a unit without a whole row does
nothing, and neither does a row that a rebuild has taken (R247). -/
def Obligations.MendRowsAreIssued : Prop :=
  (∀ (c p : Nat) (r : MendRow) (s : State), c < 32 → s.stalled = false → (s.mend c).rows = [r] → s.rowWhole r = true → r.m < 2 ^ 21 →
    2 ≤ s.mendN → p = s.parityIdx c r.m → (∀ i < s.mendN, s.chanState (32 * s.rowMember p i + c) = 0) →
    (∀ i < s.mendN, s.fld F.CE_PL_STAT_BG_MODE (32 * s.rowMember p i + c) = 0) → s.mem.upsets = [] → s.rowTaken c r.m = false →
    s.mendSites.Nodup → (∀ u ∈ s.mendSites, u < 8) →
    (∀ i < 32 * (s.mendN - 1), ∀ x, Tab.get (fun _ => none) r.secs i = some x → x.good = true ∧ x.fault = false) →
    ∃ t, exec (.mendRowIssue c) s = .next t ∧ (t.mend c).rows = [] ∧
      (∀ i < s.mendN - 1, ∀ k < 32, ∀ x, Tab.get (fun _ => none) r.secs (32 * i + k) = some x →
        t.rawSector ⟨32 * s.rowMember p i + c, 32 * r.m + k⟩ = x.data) ∧
      (∀ k < 32, t.rawSector ⟨32 * s.rowMember p (s.mendN - 1) + c, 32 * r.m + k⟩ =
        (List.range (s.mendN - 1)).foldl (fun y i => y ^^^ t.rawSector ⟨32 * s.rowMember p i + c, 32 * r.m + k⟩) 0) ∧
      (∀ i < s.mendN, ∀ k < 32, t.rawChecks ⟨32 * s.rowMember p i + c, 32 * r.m + k⟩ =
        sectorChecks (t.rawSector ⟨32 * s.rowMember p i + c, 32 * r.m + k⟩)) ∧
      (∀ l, l.n < 256 → l.k < 2 ^ 26 → (l.k / 32 ≠ r.m ∨ l.n % 32 ≠ c) → t.rawSector l = s.rawSector l ∧ t.rawChecks l = s.rawChecks l) ∧
      (∀ n < 256, t.chanState n = s.chanState n) ∧ t.draws = s.draws ∧ t.anv = s.anv) ∧
  ∀ (c : Nat) (s : State), c < 32 → (∀ r ∈ (s.mend c).rows, s.rowWhole r = false ∨ s.rowTaken c r.m = true) → exec (.mendRowIssue c) s = .next s

/-! ## Planisher units (06) -/

/-- PLANISHER_WINDOW_WRITE, PLANISHER_WINDOW_READ and PLANISHER_OPERAND_ACCESS (R19, R138 to R141, Tables 6-2 and 6-3): a transfer to a bank
group in Planisher mode with its Hallmark and zeros on the ECC lanes writes the control registers, with which a pass begins, or 64 B of the
payload buffer; one that fails its check leaves the unit's contents and sets WIN_ERR, and the second in a row WIN_FAIL, and it ends the
unit's work for a running command; a reserved offset is not written; on a Plain position an RD delivers the array's sector to the unit, and
a WR writes what the unit presents with check bytes of 0; elsewhere nothing happens. -/
def Obligations.WindowAndOperandAccesses : Prop :=
  (∀ (a : BitVec 44) (d : SectorBits) (h : BitVec 64) (s : State),
    windowUnit a = none ∨ (∃ n k off, windowUnit a = some (n, k, off) ∧ (s.inMode n k = false ∨ off % 64 ≠ 0)) →
    exec (.planisherWindowWrite a d h) s = .next s ∧ exec (.planisherWindowRead a h) s = .next s) ∧
  (∀ (a : BitVec 44) (d : SectorBits) (h : BitVec 64) (n k off u : Nat) (s : State), windowUnit a = some (n, k, off) → u = 8 * n + k →
    s.inMode n k = true → off % 64 = 0 →
    (h = (hallmark d).setWidth 64 → off = 0 → ∃ t, exec (.planisherWindowWrite a d h) s = .next t ∧
      t.unit u = { s.unit u with
        pctl := sectorWord d 0
        param0 := sectorWord d 1
        param1 := sectorWord d 2
        param2 := sectorWord d 3
        fails := 0
        step := 0
        seen := [] } ∧ (∀ v, v ≠ u → t.unit v = s.unit v) ∧ t = { s with pl := t.pl }) ∧
    (h = (hallmark d).setWidth 64 → 0x800 ≤ off → off < 0x1000 → ∃ t, exec (.planisherWindowWrite a d h) s = .next t ∧
      (∀ j, Tab.get (fun _ => 0) (t.unit u).payload j = if j = (off - 0x800) / 64 then d else Tab.get (fun _ => 0) (s.unit u).payload j) ∧
      t.unit u = { s.unit u with
        payload := (t.unit u).payload
        fails := 0 } ∧ (∀ v, v ≠ u → t.unit v = s.unit v) ∧ t = { s with pl := t.pl }) ∧
    (h ≠ (hallmark d).setWidth 64 → off = 0 ∨ (0x800 ≤ off ∧ off < 0x1000) → ∃ t, exec (.planisherWindowWrite a d h) s = .next t ∧
      t.unit u = { s.unit u with
        err := true
        fails := (s.unit u).fails + 1
        lost := (t.unit u).lost } ∧ s.windowFailed t n u ∧ t.fld F.CE_PL_STAT_WIN_ERR n = 1 ∧
      RegsBut s t (fun o => o = Reg.offset .CE_PL_STAT n) ∧ t = { s with regs := t.regs, pl := t.pl }) ∧
    (1 ≤ off → off < 0x800 ∨ 0x1000 ≤ off → exec (.planisherWindowWrite a d h) s = .next s)) ∧
  (∀ (a : BitVec 44) (h : BitVec 64) (n k off u : Nat) (s : State), windowUnit a = some (n, k, off) → u = 8 * n + k →
    s.inMode n k = true → off % 64 = 0 →
    (h = (hallmark ((s.unit u).read off)).setWidth 64 → ∃ t, exec (.planisherWindowRead a h) s = .next t ∧
      t.unit u = { s.unit u with fails := 0 } ∧ (∀ v, v ≠ u → t.unit v = s.unit v) ∧ t = { s with pl := t.pl }) ∧
    (h ≠ (hallmark ((s.unit u).read off)).setWidth 64 → ∃ t, exec (.planisherWindowRead a h) s = .next t ∧
      t.unit u = { s.unit u with
        fails := (s.unit u).fails + 1
        lost := (t.unit u).lost } ∧ s.windowFailed t n u ∧ t.fld F.CE_PL_STAT_WIN_ERR n = 1 ∧
      RegsBut s t (fun o => o = Reg.offset .CE_PL_STAT n) ∧ t = { s with regs := t.regs, pl := t.pl })) ∧
  (∀ (n m k : Nat) (bg : Fin 8) (x : PlAccess) (s : State), s.inMode n bg.val = false ∨ s.bankOf ⟨n, 32 * m + k⟩ ≠ bg.val ∨
    s.locPlainClass ⟨n, 32 * m + k⟩ = false ∨ 32 ≤ k ∨ s.positions n ≤ m → exec (.planisherOperandAccess n bg x m k) s = .next s) ∧
  ∀ (n m k u : Nat) (bg : Fin 8) (l : Loc) (s : State), s.inMode n bg.val = true → n < 256 → k < 32 → m < s.positions n → m < 2 ^ 21 →
    l = ⟨n, 32 * m + k⟩ → u = 8 * n + bg.val → s.bankOf l = bg.val → s.locPlainClass l = true → (s.chan n).retry = [] →
    (exec (.planisherOperandAccess n bg .act m k) s = .next s) ∧ (exec (.planisherOperandAccess n bg .pre m k) s = .next s) ∧
    (∃ t, exec (.planisherOperandAccess n bg .rd m k) s = .next t ∧ t.unit u = (s.unit u).take k (s.rawSector l) ∧
      ((s.unit u).op = none → ∀ j, Tab.get (fun _ => 0) (t.unit u).seg j =
        if j = k then s.rawSector l else Tab.get (fun _ => 0) (s.unit u).seg j) ∧
      (∀ v, v ≠ u → t.unit v = s.unit v) ∧ t = { s with pl := t.pl }) ∧
    ∃ t, exec (.planisherOperandAccess n bg .wr m k) s = .next t ∧ t.rawChecks l = List.replicate 8 0#8 ∧
      (∀ d, (s.unit u).present k = some d → t.rawSector l = d) ∧
      (∀ x, x.n < 256 → x.k < 2 ^ 26 → x ≠ l → t.rawSector x = s.rawSector x ∧ t.rawChecks x = s.rawChecks x) ∧
      t.pl = s.pl ∧ t.regs = s.regs ∧ t.draws = s.draws ∧ t.anv = s.anv

/-! ## Glizo slots (03) -/

/-- R51: a result changes only its own bits, and only in the cycle in which it becomes visible; until then the register reads as before.
MOV, ADD, SUB, MUL, FMA, FMS, MIN, MAX, ABS, NEG, SEL and SCALE (R52, R63, R65, Table 3-5): two cycles on, each element of dst that passes
the guard takes the exact result of the operands rounded once to nearest even, and Fault where an operand it uses is Fault; the other
elements and registers stand. -/
def Obligations.ArithmeticSlotsLand : Prop :=
  (∀ (x : Anvil) (l : Landing), x.landing = [l] →
    (x.cyc + 1 < l.at_ → x.advance = { x with cyc := x.cyc + 1 }) ∧
    (l.at_ ≤ x.cyc + 1 → x.advance.landing = [] ∧ x.advance.cyc = x.cyc + 1 ∧ x.advance.work = x.work ∧
      (l.toQ = false → (∀ r, x.advance.pred r = x.pred r) ∧ (∀ r, r ≠ l.r → x.advance.rd r = x.rd r) ∧
        ∀ j < 2048, (x.advance.rd l.r).getLsbD j = if l.mask.getLsbD j then l.val.getLsbD j else (x.rd l.r).getLsbD j) ∧
      (l.toQ = true → (∀ r, x.advance.rd r = x.rd r) ∧ (∀ r, r ≠ l.r → x.advance.pred r = x.pred r) ∧
        (l.r ≠ 0 → ∀ j < 256, (x.advance.pred l.r).getLsbD j = if l.mask.getLsbD j then l.val.getLsbD j else (x.pred l.r).getLsbD j)))) ∧
  ∀ (o : AbOp) (sl : SlotAB) (i : Issue) (x : Site) (s : State), s.runsAb o i x → o.isCmp = false → o.isPair = false →
    ∃ t, exec (o.instr sl i) s = .next t ∧
      s.lanesLand t i.anvil 2 i.word.dst.toNat i.word.format.lane (2048 / i.word.format.lane) (s.passes i i.word.format.lane) fun e =>
        match o.exact (s.argA o i x e) (s.argB i x e) (s.argC i e)
          (predBit ((s.anvil i.anvil).pred (i.word.srcC.toNat % 8)) i.word.format.lane e) with
        | some u => (Num.encode i.word.format i.word.flt .nearest (.dy u)).code
        | none => i.word.format.faultCode

/-- CMPLT, CMPEQ, TWOSUM and FTWOSUM (R30, R46, R52, Table 3-5): a compare fills the predicate bits of each element that passes the guard
with its answer, false where an operand is Fault; a pair sum gives the rounded sum in dst, and in dst + 1 what the rounding left, +0 when
the sum overflows; FTWOSUM so where the first operand is 0 or not the smaller. -/
def Obligations.ComparesAndPairs : Prop :=
  (∀ (o : AbOp) (sl : SlotAB) (i : Issue) (x : Site) (j : Nat) (s : State), s.runsAb o i x → o.isCmp = true →
    j = i.word.format.lane / 8 → ∃ t, exec (o.instr sl i) s = .next t ∧
      ∃ l, s.landed t i.anvil [l] ∧ l.at_ = (s.anvil i.anvil).cyc + 2 ∧ l.toQ = true ∧ l.r = i.word.dst.toNat ∧
        ∀ e < 2048 / i.word.format.lane, laneOf j l.mask e = (if s.passes i i.word.format.lane e then 2 ^ j - 1 else 0) ∧
          laneOf j l.val e = (match s.argA o i x e, s.argB i x e with
            | .dy a, .dy b => if (if o = .cmplt then a.lt b else a.eq b) = true then 2 ^ j - 1 else 0
            | _, _ => 0)) ∧
  ∀ (o : AbOp) (sl : SlotAB) (i : Issue) (x : Site) (s : State), s.runsAb o i x → o.isPair = true → ∃ t, exec (o.instr sl i) s = .next t ∧
    ∃ h, ∃ l, s.landed t i.anvil [h, l] ∧ h.at_ = (s.anvil i.anvil).cyc + (if o = .twosum then 3 else 2) ∧ l.at_ = h.at_ ∧
      h.toQ = false ∧ l.toQ = false ∧ h.r = i.word.dst.toNat ∧ l.r = i.word.dst.toNat + 1 ∧ h.mask = l.mask ∧
      ∀ e < 64, laneOf 32 h.mask e = (if s.passes i 32 e then 2 ^ 32 - 1 else 0) ∧
        ∀ a, s.argA o i x e = .dy a → ∀ b, s.argB i x e = .dy b → o = .twosum ∨ b.abs.le a.abs = true ∨ a.isZero = true →
          ∀ r, r = Num.encode .df32 i.word.flt .nearest (.dy (a.add b)) →
            laneOf 32 h.val e = r.code % 2 ^ 32 ∧ (r.ovf = true → laneOf 32 l.val e = 0) ∧
            (r.ovf = false → ∀ g, Num.decode .df32 r.code = .dy g →
              laneOf 32 l.val e = (Num.encode .df32 i.word.flt .nearest (.dy ((a.add b).sub g))).code % 2 ^ 32)

/-- RCP, RSQ, SQRT, EXP2, LOG2, LMUL, LTOF and FTOL (R66, R67, Table 3-6): each element that passes the guard takes its result after the
operation's latency; zero, negative and Fault operands give what R67 says. -/
def Obligations.SpecialFunctionSlots : Prop :=
  (∀ (o : COp) (i : Issue) (x : Site) (k : Nat) (s : State), s.issuesAt i x → o.legal i.word = true → x.fits (o.fits i.word) = true →
    k = Nat.max (o.src i.word).lane (o.dst i.word).lane → ∃ t, exec (o.instr i) s = .next t ∧
      s.lanesLand t i.anvil (match o with | .exp2 | .log2 => 6 | .lmul => 2 | _ => 4) i.word.dst.toNat (o.dst i.word).lane (2048 / k)
        (s.passes i k) fun e => (o.value i.word ((s.anvil i.anvil).elem (o.src i.word) i.word.srcA e)
          ((s.anvil i.anvil).elem (o.src i.word) i.word.srcB e)).code) ∧
  ∀ (w : SlotWord) (a b : Num.Val), (∀ o : COp, o ≠ .lmul → (o.value w .fault b).code = (o.dst w).faultCode) ∧
    (COp.lmul.value w .fault b).code = w.format.faultCode ∧ (COp.lmul.value w a .fault).code = w.format.faultCode ∧
    ∀ u : Num.Dy, a = .dy u →
      (u.isZero = true → COp.sqrt.value w a b = ⟨0, false⟩ ∧ (COp.rcp.value w a b = Num.overflow .df32 w.flt false) ∧
        COp.rsq.value w a b = Num.overflow .df32 w.flt false ∧ COp.log2.value w a b = Num.overflow .df32 w.flt true ∧
        COp.ftol.value w a b = ⟨2 ^ (w.format.width - 2), false⟩ ∧ COp.ltof.value w a b = ⟨0, false⟩) ∧
      (u.isZero = false → u.isNeg = true → (COp.rsq.value w a b).code = Num.Fmt.df32.faultCode ∧
        (COp.sqrt.value w a b).code = Num.Fmt.df32.faultCode ∧ (COp.log2.value w a b).code = Num.Fmt.df32.faultCode) ∧
      (u.lt ⟨-150, 0⟩ = true → COp.exp2.value w a b = ⟨0, false⟩)

/-- LD, ST, CVT and RND (R39, R55, R56, R58, R60, R62, R68, R70, R74, R75, Table 3-7): LD brings the iteration's elements, which its stream
unit has fetched or which an unscaled stream holds, into dst, +0 in inactive lanes; ST gives the active lanes to its stream by logical index,
with the taps that it names, and a group that cannot go yet waits in the write-behind; with its prefetch empty, or its write-behind full,
either waits; CVT rounds each element into its target format, to nearest or by the command's random bits where the target is narrower; RND
fills dst with the bits of the command's random stream at DRAW_BASE + K. ASSAY, HIST, MAXACC, END and SLOT_NOP (R43, R63, R71 to R73, Table
3-7): the active lanes' squares add to the sum of their kind, which does not depend on their order, or each counts in its histogram bin, or
raises the maximum and the counts of its capture set; nothing else changes; END and the all-zero word change nothing. -/
def Obligations.StreamAndMeasuringSlots : Prop :=
  ((∀ (i : Issue) (x : Site) (g : Target) (m : Nat) (tl : Tile) (y : Fetched) (s : State), s.issuesAt i x → x.target = some g →
    DOp.ld.legal i.word = true → x.fits (DOp.ld.fits i.word) = true → i.word.top = false →
    (g.e.ins.find? fun y => y.1 == i.word.srcA.toNat) = some (m, tl) →
    (s.anvil i.anvil).fetchedAt i.word.srcA.toNat g.k g.lo = some y →
    ∃ t, exec (.ld i) s = .next t ∧ (∀ b, b ≠ i.anvil → t.anvil b = s.anvil b) ∧ t = { s with anv := t.anv } ∧ ∃ l,
      t.anvil i.anvil = { s.anvil i.anvil with
        landing := (s.anvil i.anvil).landing ++ [l]
        fetched := (s.anvil i.anvil).fetched.erase y } ∧ l.at_ = (s.anvil i.anvil).cyc + 1 ∧
      l.toQ = false ∧ l.r = i.word.dst.toNat ∧ ∀ e < 2048 / i.word.format.lane,
        laneOf i.word.format.lane l.mask e = 2 ^ i.word.format.lane - 1 ∧
        laneOf i.word.format.lane l.val e = Num.toLane i.word.format (Num.encode i.word.format (e < g.act && tl.ovf) .nearest
          (if e < g.act then y.vals.getD e .fault else .dy .zero)).code % 2 ^ i.word.format.lane) ∧
  (∀ (i : Issue) (x : Site) (g : Target) (m : Nat) (tl : Tile) (d : Nat → SectorBits) (s : State), s.issuesAt i x → x.target = some g →
    DOp.ld.legal i.word = true → x.fits (DOp.ld.fits i.word) = true → i.word.top = false →
    (g.e.ins.find? fun y => y.1 == i.word.srcA.toNat) = some (m, tl) → tl.scaleMode = 0 → g.lo + g.act ≤ tl.elems →
    (s.anvil i.anvil).fetchedAt i.word.srcA.toNat g.k g.lo = none → s.groupReady tl g.lo g.act = true →
    s.draws.buckets = [] → s.runOf g.run.drawer g.run.pos = some g.run →
    (∀ p < g.act, ∀ a, a = tl.wordAddr (tl.at_ (g.lo + p)) / 64 * 64 → s.cached a [d a]) →
    ∃ t, exec (.ld i) s = .next t ∧ (∀ b, b ≠ i.anvil → t.anvil b = s.anvil b) ∧ s.arrayKept t (fun _ => False) ∧ t.ports = s.ports ∧
      RegsBut s t (fun o => o = Reg.offset .SB_HITS 0 ∨ o = Reg.offset .MW_IRQ_CAUSE 0) ∧ ∃ l,
      t.anvil i.anvil = { s.anvil i.anvil with
        landing := (s.anvil i.anvil).landing ++ [l]
        nextIn := (t.anvil i.anvil).nextIn } ∧ l.at_ = (s.anvil i.anvil).cyc + 1 ∧
      l.toQ = false ∧ l.r = i.word.dst.toNat ∧ ∀ e < 2048 / i.word.format.lane,
        laneOf i.word.format.lane l.mask e = 2 ^ i.word.format.lane - 1 ∧
        laneOf i.word.format.lane l.val e = (if e < g.act then
            Num.toLane i.word.format (Num.encode i.word.format tl.ovf .nearest (tl.valueWith 0 (tl.at_ (g.lo + e)).2
              (sectorWord (d (tl.wordAddr (tl.at_ (g.lo + e)) / 64 * 64)) (tl.wordAddr (tl.at_ (g.lo + e)) % 64 / 8)) false)).code
          else Num.toLane i.word.format (Num.encode i.word.format false .nearest (.dy .zero)).code) % 2 ^ i.word.format.lane) ∧
  (∀ (i : Issue) (x : Site) (o : DOp) (s : State), s.slotSite i.anvil i.ctx = some x → s.streamWaits i.anvil o i.word x = true →
    exec (o.instr i) s = .next s) ∧
  (∀ (i : Issue) (x : Site) (g : Target) (m q : Nat) (tl : Tile) (vs : List Num.Val) (s : State), s.issuesAt i x → x.target = some g →
    DOp.st.legal i.word = true → x.fits (DOp.st.fits i.word) = true → i.word.top = false →
    (g.e.outs.find? fun y => y.1 == i.word.dst.toNat) = some (m, tl) → (s.anvil i.anvil).behind = [] →
    s.streamWaits i.anvil .st i.word x = false →
    vs = ((List.range g.act).map fun p => (s.anvil i.anvil).elem i.word.format i.word.srcA p) →
    q = Tab.get (fun _ => 0) g.e.ssq 0 + (vs.map (Num.squareUnits g.e.asc)).sum → i.word.mod.getLsbD 0 = false ∨ q < 2 ^ 128 →
    ∃ t, exec (.st i) s = .next t ∧ t = { s with anv := t.anv } ∧ (∀ b, b ≠ i.anvil → t.anvil b = s.anvil b) ∧
      t.anvil i.anvil = { s.anvil i.anvil with
        behind := if s.groupGoes tl g.lo g.act then [] else [⟨i.word.dst.toNat, g.k, g.lo, vs⟩] } ∧
      t.anv.kernels = s.anv.kernels ∧ ∃ e, t.anv.runs = (s.setEntry g.run g.k e).anv.runs ∧
      e = { g.e with
        stored := e.stored
        ssq := e.ssq
        faultLanes := if i.word.mod.getLsbD 0 then Nat.min (g.e.faultLanes + (vs.filter (· == .fault)).length) (2 ^ 32 - 1)
          else g.e.faultLanes } ∧
      (∀ j, Tab.get (fun _ => 0) e.ssq j = if j = 0 ∧ i.word.mod.getLsbD 0 = true then q else Tab.get (fun _ => 0) g.e.ssq j) ∧
      (∀ n, n ≠ i.word.dst.toNat → n ≠ 4 → (e.stored.find? fun y => y.1 == n) = g.e.stored.find? fun y => y.1 == n) ∧
      ∀ n c, n = i.word.dst.toNat ∧ s.groupGoes tl g.lo g.act = true ∨ n = 4 ∧ i.word.mod.getLsbD 1 = true ∧ g.e.emit.isSome = true →
        (e.stored.find? fun y => y.1 == n) = some (n, c) →
        ∀ p < g.act, (∀ q < g.act, g.e.index (g.lo + p) = g.e.index (g.lo + q) → p = q) →
          Tab.get (fun _ => .fault) c (g.e.index (g.lo + p)) = vs.getD p .fault) ∧
  (∀ (i : Issue) (x : Site) (n : Nat) (r : Nat → Num.Rnd) (s : State), s.issuesAt i x → DOp.cvt.legal i.word = true →
    x.fits (DOp.cvt.fits i.word) = true → n = (match x.width with | some k => 2048 / k | none => cvtElems i.word) →
    i.word.top = false ∧ (∀ e, r e = .nearest) ∨ (∃ g, i.word.top = true ∧ x.target = some g ∧ ∀ e, r e =
      if i.word.dstFmt.width < i.word.srcFmt.width then .stoch (rnBits i.word.cvtRn) (Gen.bits g.run.seed (rnBits i.word.cvtRn)
        (g.e.index (g.lo + e)) g.e.rstream (g.run.drawBase + BitVec.ofNat 32 (1024 + x.bundle))) else .nearest) →
    ∃ t, exec (.cvt i) s = .next t ∧
      s.lanesLand t i.anvil 2 i.word.dst.toNat i.word.dstFmt.lane n (fun _ => true) fun e =>
        Num.toLane i.word.dstFmt (Num.encode i.word.dstFmt (i.word.mod.getLsbD 0) (r e)
          ((s.anvil i.anvil).elem i.word.srcFmt i.word.srcA e)).code) ∧
  ∀ (i : Issue) (x : Site) (g : Target) (n k : Nat) (s : State), s.issuesAt i x → x.target = some g → DOp.rnd.legal i.word = true →
    x.fits (DOp.rnd.fits i.word) = true → x.width = some k → n = 2048 / k → ∃ t, exec (.rnd i) s = .next t ∧
      s.lanesLand t i.anvil 1 i.word.dst.toNat i.word.format.lane n (fun _ => true) fun e =>
        Gen.bits g.run.seed i.word.format.lane (g.e.index (g.lo + e)) g.e.rstream
          (g.run.drawBase + BitVec.ofNat 32 (32 * i.word.srcA.toNat + i.word.srcB.toNat))) ∧
  (∀ (i : Issue) (x : Site) (g : Target) (k q : Nat) (vs : List Num.Val) (s : State), s.issuesAt i x → x.target = some g →
    DOp.assay.legal i.word = true → x.fits (DOp.assay.fits i.word) = true → k = i.word.mod.toNat →
    vs = ((List.range g.act).map fun p => (s.anvil i.anvil).elem i.word.format i.word.srcA p) →
    q = Tab.get (fun _ => 0) g.e.ssq k + (vs.map (Num.squareUnits g.e.asc)).sum → q < 2 ^ 128 →
    ∃ t, exec (.assay i) s = .next t ∧ ∃ e, s.entryNow t g e ∧
      e = { g.e with
        ssq := e.ssq
        faultLanes := Nat.min (g.e.faultLanes + (vs.filter (· == .fault)).length) (2 ^ 32 - 1) } ∧
      ∀ j, Tab.get (fun _ => 0) e.ssq j = if j = k then q else Tab.get (fun _ => 0) g.e.ssq j) ∧
  (∀ (i : Issue) (x : Site) (g : Target) (vs : List Num.Val) (s : State), s.issuesAt i x → x.target = some g →
    DOp.hist.legal i.word = true → x.fits (DOp.hist.fits i.word) = true →
    vs = ((List.range g.act).map fun p => (s.anvil i.anvil).elem i.word.format i.word.srcA p) →
    (∀ j, Tab.get (fun _ => 0) g.e.hist j + vs.length < 2 ^ 32) → ∃ t, exec (.hist i) s = .next t ∧ ∃ e, s.entryNow t g e ∧
      e = { g.e with hist := e.hist } ∧ ∀ j, Tab.get (fun _ => 0) e.hist j = Tab.get (fun _ => 0) g.e.hist j +
        (vs.filter fun v => 64 * i.word.mod.toNat + Num.histBin g.e.hb v == j).length) ∧
  (∀ (i : Issue) (x : Site) (g : Target) (k : Nat) (vs : List Num.Val) (c : Capture) (s : State), s.issuesAt i x → x.target = some g →
    DOp.maxacc.legal i.word = true → x.fits (DOp.maxacc.fits i.word) = true → k = i.word.mod.toNat →
    vs = ((List.range g.act).map fun p => (s.anvil i.anvil).elem i.word.format i.word.srcA p) →
    c = Tab.get (fun _ => .zero) g.e.caps k → c.nFault + vs.length < 2 ^ 32 → c.nOvf + vs.length < 2 ^ 32 →
    ∃ t, exec (.maxacc i) s = .next t ∧ ∃ e, s.entryNow t g e ∧ e = { g.e with caps := e.caps } ∧
      (∀ j, j ≠ k → Tab.get (fun _ => .zero) e.caps j = Tab.get (fun _ => .zero) g.e.caps j) ∧
      Tab.get (fun _ => .zero) e.caps k = ⟨vs.foldl Num.raiseMax c.maxAbs, c.nFault + (vs.filter (· == .fault)).length,
        c.nOvf + (vs.filter fun v => (Num.encode i.word.dstFmt false .nearest v).ovf).length⟩) ∧
  ∀ (i : Issue) (s : State), exec (.end_ i) s = .next s ∧ exec (.slotNop i) s = .next s

/-! ## The whole machine -/

/-- Every command completes with a next state, whatever the state: the model has no fault and no refusal, so every step is safe (log 3: a
command whose event cannot occur changes nothing). No command touches the queue or takes back a free value: exec leaves the waiting commands
as they are, and the count of free values never falls (log 1, log 4: both are the model's). -/
def Obligations.EveryCommandCompletes : Prop :=
  (∀ (c : Instr) (s : State), ∃ t, exec c s = .next t ∧ t.pending = s.pending ∧ s.freeCtr ≤ t.freeCtr) ∧ ∀ s : State, Safe s

/-- Memory keeps its canonical form in every step from every state that has it (the form is the model's). -/
def Obligations.MemoryStaysCanonical : Prop :=
  ∀ (s t : State), s.mem.wf = true → step s = .next t → t.mem.wf = true

/-- The lines of the slices go on naming sectors of their channel, once each, in every step (the form is the model's). -/
def Obligations.LinesStayInTheirChannel : Prop :=
  ∀ (s t : State), s.linesFit → step s = .next t → t.linesFit

/-- R326, Table 13-8: at reset memory is in its canonical form with nothing listed, no slice holds a line, no command waits, no port keeps a
request, and every register reads its Reset column. -/
def Obligations.ResetIsCanonical : Prop :=
  State.reset.mem.wf = true ∧ State.reset.mem.dram = [] ∧ State.reset.mem.chk = [] ∧ State.reset.linesFit ∧ State.reset.pending = [] ∧
    State.reset.noRequests ∧ ∀ r i, State.reset.reg r i = r.resetWord i

/-! ## Codes and formats (02, 10) -/

/-- R228, R230: bit j of a check byte is the exclusive-or of the data bits whose column has bit j; the columns are those of Table 10-1: 56
of weight 3 in increasing order, eight of weight 5, all distinct; every single wrong bit of a word or of its check byte is put right, every
two wrong bits of the word are uncorrectable, and a word with its own check byte is clean. -/
def Obligations.SecDedCorrectsAndDetects : Prop :=
  hsiao.take 56 = ((List.range 256).filter fun h => ((List.range 8).filter h.testBit).length == 3) ∧
  hsiao.drop 56 = [0x1F, 0x3E, 0x7C, 0xF8, 0xF1, 0xE3, 0xC7, 0x8F] ∧
  (∀ h ∈ hsiao.drop 56, ((List.range 8).filter h.testBit).length = 5) ∧ (hsiao ++ (List.range 8).map (2 ^ ·)).Nodup ∧
  ∀ w : Word, (∀ j < 8, (checkByte w).getLsbD j =
      (List.range 64).foldl (fun x i => x ^^ (w.getLsbD i && (hsiao.getD i 0).testBit j)) false) ∧
    verdict (syndrome w (checkByte w)) = .clean ∧
    (∀ i < 64, corrected (w ^^^ 1#64 <<< i) (verdict (syndrome (w ^^^ 1#64 <<< i) (checkByte w))) = w) ∧
    (∀ j < 8, corrected w (verdict (syndrome w (checkByte w ^^^ 1#8 <<< j))) = w ∧
      verdict (syndrome w (checkByte w ^^^ 1#8 <<< j)) = .correctedCheck) ∧
    ∀ i < 64, ∀ j < 64, i ≠ j → verdict (syndrome (w ^^^ 1#64 <<< i ^^^ 1#64 <<< j) (checkByte w)) = .uncorrectable

/-- R166: two sectors that differ in one bit have different Hallmarks, so a sector with one wrong bit fails its check. -/
def Obligations.HallmarkFindsAFlippedBit : Prop :=
  ∀ (d : SectorBits) (k : Nat), k < 512 → hallmark (d ^^^ 1#512 <<< k) ≠ hallmark d

/-- R26, R30: the sign bit alone reads as zero, and no conversion and no operation of slots A to C gives it as a DF result; comparison is by
value, the spare code is +M, and a Fault operand makes CMPLT and CMPEQ false and MIN and MAX Fault. -/
def Obligations.ZeroAndComparisons : Prop :=
  (∀ f : Num.Fmt, f.isDF = true →
    (∃ a, Num.decode f (2 ^ (f.width - 1)) = .dy a ∧ a.isZero = true) ∧ Num.decode f (2 ^ (f.width - 1) - 1) = Num.decode f f.maxCode ∧
    (∀ (flt : Bool) (r : Num.Rnd) (v : Num.Val), (Num.encode f flt r v).code ≠ 2 ^ (f.width - 1)) ∧
    ∀ (o : AbOp) (flt p : Bool) (a b c : Num.Val), (o.value f flt a b c p).code ≠ 2 ^ (f.width - 1)) ∧
  (∀ (o : COp) (w : SlotWord) (a b : Num.Val), o.legal w = true → (o.dst w).isDF = true → (o.value w a b).code ≠ 2 ^ ((o.dst w).width - 1)) ∧
  (∀ (fast flt : Bool) (a b : Num.Val), (pairSum fast flt a b).1 ≠ 2 ^ 31 ∧ (pairSum fast flt a b).2 ≠ 2 ^ 31) ∧
  (∀ a b : Num.Dy, AbOp.cmplt.holds (.dy a) (.dy b) = decide (ratOf a < ratOf b) ∧
    AbOp.cmpeq.holds (.dy a) (.dy b) = decide (ratOf a = ratOf b)) ∧
  ∀ (f : Num.Fmt) (flt p : Bool) (v c : Num.Val) (o : AbOp),
    (o = .cmplt ∨ o = .cmpeq → o.holds .fault v = false ∧ o.holds v .fault = false) ∧
    (o = .min ∨ o = .max → (o.value f flt .fault v c p).code = f.faultCode ∧ (o.value f flt v .fault c p).code = f.faultCode)

/-- R45: LMUL takes the exclusive-or of the signs and the sum of the two L exactly; a zero operand gives zero, a sum above the range
overflows, a sum at or below the zero code gives zero, and a negative product with L = −1 takes L = 0. -/
def Obligations.LogProductsAreExact : Prop :=
  ∀ (f : Num.Fmt) (flt n m : Bool) (l k top : Int) (g : Nat), f = .dl16 ∨ f = .dl8 → g = f.logBits → top = 2 ^ (f.width - 2) →
    (-top < l + k → l + k < top → ¬((n != m) = true ∧ l + k = -1) →
      Num.decode f (Num.lmul f flt (.lg n l g) (.lg m k g)).code = .lg (n != m) (l + k) g ∧ (Num.lmul f flt (.lg n l g) (.lg m k g)).ovf = false) ∧
    ((n != m) = true → l + k = -1 → Num.decode f (Num.lmul f flt (.lg n l g) (.lg m k g)).code = .lg true 0 g) ∧
    (top ≤ l + k → Num.lmul f flt (.lg n l g) (.lg m k g) = Num.overflow f flt (n != m)) ∧
    (l + k ≤ -top → Num.decode f (Num.lmul f flt (.lg n l g) (.lg m k g)).code = .dy .zero) ∧
    ∀ a : Num.Dy, Num.decode f (Num.lmul f flt (.dy a) (.lg m k g)).code = .dy .zero ∧
      Num.decode f (Num.lmul f flt (.lg n l g) (.dy a)).code = .dy .zero ∧ Num.decode f (Num.lmul f flt (.dy a) (.dy a)).code = .dy .zero

/-- R33, R41, R88: a contribution enters the window as the nearest multiple of its unit, ties to even, clamped to 2^47 − 1 and marked when
it is larger, and Fault as the Fault pattern, to which any addition gives Fault; up to 2^16 such contributions add up to their exact sum, or
to Fault where one of them is Fault, so the sum does not depend on their order. -/
def Obligations.BucketSumsAreExact : Prop :=
  (∀ (bx code : Nat) (a : Num.Dy) (r : Int), r = (a.scaleBy (174 - (bx : Int))).toIntRne →
    (|(r : ℚ) - ratOf a / 2 ^ ((bx : Int) - 174)| ≤ 1 / 2 ∧ (|(r : ℚ) - ratOf a / 2 ^ ((bx : Int) - 174)| = 1 / 2 → r % 2 = 0)) ∧
    Num.toWindow bx (.dy a) = (if 2 ^ 47 - 1 < r then (BitVec.ofInt 64 (2 ^ 47 - 1), true)
      else if r < -(2 ^ 47 - 1) then (BitVec.ofInt 64 (-(2 ^ 47 - 1)), true) else (BitVec.ofInt 64 r, false)) ∧
    (code < 255 → ∃ b, Num.applyScale code (.dy a) = .dy b ∧ ratOf b = ratOf a * 2 ^ ((code : Int) - 127)) ∧
    Num.applyScale 255 (.dy a) = .fault ∧ Num.toWindow bx .fault = (0x8000000000000000#64, false)) ∧
  (∀ (bx : Nat) (x : BitVec 64), Num.windowVal bx x = (if x = 0x8000000000000000#64 then .fault else .dy ⟨x.toInt, (bx : Int) - 127 - 47⟩) ∧
    Num.dxAdd x 0x8000000000000000#64 = 0x8000000000000000#64 ∧ Num.dxAdd 0x8000000000000000#64 x = 0x8000000000000000#64) ∧
  ∀ l : List (BitVec 64), l.length ≤ 2 ^ 16 → (∀ x ∈ l, x = Num.dxFault ∨ x.toInt.natAbs ≤ 2 ^ 47 - 1) →
    (Num.dxFault ∈ l → l.foldl Num.dxAdd 0 = Num.dxFault) ∧
    (Num.dxFault ∉ l → (l.foldl Num.dxAdd 0).toInt = (l.map BitVec.toInt).sum) ∧
    ∀ m : List (BitVec 64), l.Perm m → m.foldl Num.dxAdd 0 = l.foldl Num.dxAdd 0
end

