-- ==== Sys2Proof/Laws/Tab.lean ====
section
/-!
SUPPORT. What reading a sparse table after a write gives, and that a write keeps the canonical form.
-/

namespace Sys2Proof.Tab

variable {α : Type}

theorem get_insert_same (d : Nat → α) (t : Tab α) (i : Nat) (v : α) : get d (insert t i v) i = v := by
  induction t with
  | nil => simp [insert, get]
  | cons e t ih =>
    obtain ⟨j, w⟩ := e
    by_cases h : i = j
    · simp [insert, get, h]
    · by_cases h2 : i < j <;> simp [insert, get, h, h2, ih]

theorem get_insert_other (d : Nat → α) (t : Tab α) (i k : Nat) (v : α) (hk : k ≠ i) :
    get d (insert t i v) k = get d t k := by
  induction t with
  | nil => simp [insert, get, hk]
  | cons e t ih =>
    obtain ⟨j, w⟩ := e
    by_cases h : i = j
    · subst h; simp [insert, get, hk]
    · by_cases h2 : i < j <;> simp [insert, get, h, h2, hk, ih]

theorem get_erase_same (d : Nat → α) (t : Tab α) (i : Nat) : get d (erase t i) i = d i := by
  induction t with
  | nil => simp [erase, get]
  | cons e t ih =>
    obtain ⟨j, w⟩ := e
    by_cases h : j = i
    · simpa [erase, h] using ih
    · have h' : i ≠ j := fun x => h x.symm
      simpa [erase, h, get, h'] using ih

theorem get_erase_other (d : Nat → α) (t : Tab α) (i k : Nat) (hk : k ≠ i) :
    get d (erase t i) k = get d t k := by
  induction t with
  | nil => simp [erase, get]
  | cons e t ih =>
    obtain ⟨j, w⟩ := e
    by_cases h : j = i
    · subst h; simpa [erase, get, hk] using ih
    · simp only [erase, ne_eq, h, not_false_eq_true, decide_true, List.filter_cons_of_pos, get]
      by_cases h3 : k = j
      · simp [h3]
      · simpa [h3, erase] using ih

variable [DecidableEq α]

@[simp] theorem get_set_same (d : Nat → α) (t : Tab α) (i : Nat) (v : α) : get d (set d t i v) i = v := by
  unfold set
  by_cases h : v = d i
  · simp [h, get_erase_same]
  · simp [h, get_insert_same]

theorem get_set_other (d : Nat → α) (t : Tab α) (i k : Nat) (v : α) (hk : k ≠ i) :
    get d (set d t i v) k = get d t k := by
  unfold set
  by_cases h : v = d i
  · simp [h, get_erase_other _ _ _ _ hk]
  · simp [h, get_insert_other _ _ _ _ _ hk]

theorem wfFrom_mono (d : Nat → α) {lo lo' : Nat} (h : lo' ≤ lo) (t : Tab α) (hw : wfFrom d lo t = true) :
    wfFrom d lo' t = true := by
  cases t with
  | nil => rfl
  | cons e t =>
    obtain ⟨j, w⟩ := e
    simp only [wfFrom, Bool.and_eq_true, decide_eq_true_eq] at hw ⊢
    exact ⟨⟨by omega, hw.1.2⟩, hw.2⟩

theorem wfFrom_erase (d : Nat → α) (lo : Nat) (t : Tab α) (i : Nat) (hw : wfFrom d lo t = true) :
    wfFrom d lo (erase t i) = true := by
  induction t generalizing lo with
  | nil => rfl
  | cons e t ih =>
    obtain ⟨j, w⟩ := e
    simp only [wfFrom, Bool.and_eq_true, decide_eq_true_eq] at hw
    by_cases h : j = i
    · have := wfFrom_mono d (show lo ≤ j + 1 by omega) _ (ih (j + 1) hw.2)
      simpa [erase, h] using this
    · have := ih (j + 1) hw.2
      simp only [erase, ne_eq, h, not_false_eq_true, decide_true, List.filter_cons_of_pos, wfFrom,
        Bool.and_eq_true, decide_eq_true_eq]
      exact ⟨hw.1, by simpa [erase] using this⟩

theorem wfFrom_insert (d : Nat → α) (lo : Nat) (t : Tab α) (i : Nat) (v : α) (hlo : lo ≤ i) (hv : v ≠ d i)
    (hw : wfFrom d lo t = true) : wfFrom d lo (insert t i v) = true := by
  induction t generalizing lo with
  | nil => simp [insert, wfFrom, hlo, hv]
  | cons e t ih =>
    obtain ⟨j, w⟩ := e
    simp only [wfFrom, Bool.and_eq_true, decide_eq_true_eq] at hw
    by_cases h : i = j
    · subst h; simp [insert, wfFrom, hlo, hv, hw.2]
    · by_cases h2 : i < j
      · simp only [insert, h, if_false, h2, if_true, wfFrom, Bool.and_eq_true, decide_eq_true_eq]
        exact ⟨⟨hlo, hv⟩, ⟨by omega, hw.1.2⟩, hw.2⟩
      · simp only [insert, h, if_false, h2, wfFrom, Bool.and_eq_true, decide_eq_true_eq]
        exact ⟨hw.1, ih (j + 1) (by omega) hw.2⟩

/-- A write keeps the canonical form. -/
theorem wf_set (d : Nat → α) (t : Tab α) (i : Nat) (v : α) (hw : wf d t = true) : wf d (set d t i v) = true := by
  unfold set wf
  by_cases h : v = d i
  · simpa [h] using wfFrom_erase d 0 t i hw
  · simpa [h] using wfFrom_insert d 0 t i v (Nat.zero_le _) h hw

theorem wf_setMany (d : Nat → α) (vs : List α) (t : Tab α) (i : Nat) (hw : wf d t = true) :
    wf d (setMany d t i vs) = true := by
  induction vs generalizing t i with
  | nil => exact hw
  | cons v vs ih => exact ih _ _ (wf_set d t i v hw)

/-- Writing a run of values leaves every index outside the run alone. -/
theorem get_setMany_other (d : Nat → α) (vs : List α) (t : Tab α) (i k : Nat) (hk : k < i ∨ i + vs.length ≤ k) :
    get d (setMany d t i vs) k = get d t k := by
  induction vs generalizing t i with
  | nil => rfl
  | cons v vs ih =>
    simp only [setMany, List.length_cons] at hk ⊢
    rw [ih _ _ (by omega), get_set_other _ _ _ _ _ (by omega)]

/-- Inside the run, the value written is read. -/
theorem get_setMany_in (d : Nat → α) (vs : List α) (t : Tab α) (i j : Nat) (hj : j < vs.length) :
    get d (setMany d t i vs) (i + j) = vs[j] := by
  induction vs generalizing t i j with
  | nil => simp at hj
  | cons v vs ih =>
    cases j with
    | zero => simp only [setMany, Nat.add_zero, List.getElem_cons_zero]
              rw [get_setMany_other _ _ _ _ _ (by omega), get_set_same]
    | succ j =>
      have := ih (set d t i v) (i + 1) j (by simpa using hj)
      simp only [setMany, List.getElem_cons_succ]
      rw [← this]; congr 1; omega

end Sys2Proof.Tab
end

