-- ==== Sys2Proof/Laws/Regs.lean ====
section
/-!
SUPPORT. What a register or a field reads after a register, a field or a bit was written.
-/

namespace Sys2Proof.Machine

/-! ## Words -/

@[simp] theorem reg_setReg_same (s : State) (r : Reg) (i : Nat) (v : Word) : (s.setReg r i v).reg r i = v :=
  Tab.get_set_same _ _ _ _

theorem get_setReg_other (s : State) (r : Reg) (i : Nat) (v : Word) (d : Nat → Word) (o : Nat)
    (h : o ≠ r.offset i) : Tab.get d (s.setReg r i v).regs o = Tab.get d s.regs o := by
  unfold State.setReg
  dsimp only
  unfold Tab.set
  split
  · exact Tab.get_erase_other _ _ _ _ h
  · exact Tab.get_insert_other _ _ _ _ _ h

theorem reg_setReg_other (s : State) (r r' : Reg) (i j : Nat) (v : Word) (h : r'.offset j ≠ r.offset i) :
    (s.setReg r i v).reg r' j = s.reg r' j := get_setReg_other s r i v _ _ h

/-! ## Fields of a word -/

theorem Fld.testBit_of (f : Fld) (w : Word) (k : Nat) :
    (Fld.of f w).testBit k = (decide (k < f.w) && w.getLsbD (f.lo + k)) := by
  simp [Fld.of, Nat.testBit_mod_two_pow, Nat.testBit_div_two_pow, BitVec.getLsbD, Nat.add_comm]

theorem Fld.getLsbD_into (f : Fld) (w : Word) (v k : Nat) : (Fld.into f w v).getLsbD k =
    (decide (k < 64) && if f.lo ≤ k ∧ k < f.lo + f.w then v.testBit (k - f.lo) else w.getLsbD k) := by
  have e1 : ∀ n, (((2 ^ f.w - 1) * 2 ^ f.lo).testBit n) = (decide (f.lo ≤ n) && decide (n - f.lo < f.w)) := by
    intro n
    rw [Nat.testBit_mul_two_pow, Nat.testBit_two_pow_sub_one]
  have e2 : ∀ n, ((v % 2 ^ f.w * 2 ^ f.lo).testBit n) =
      (decide (f.lo ≤ n) && (decide (n - f.lo < f.w) && v.testBit (n - f.lo))) := by
    intro n
    rw [Nat.testBit_mul_two_pow, Nat.testBit_mod_two_pow]
  unfold Fld.into
  simp only [BitVec.getLsbD_or, BitVec.getLsbD_and, BitVec.getLsbD_not, BitVec.getLsbD_ofNat, e1, e2]
  by_cases h64 : k < 64
  · by_cases h1 : f.lo ≤ k
    · by_cases h2 : k < f.lo + f.w
      · have : k - f.lo < f.w := by omega
        simp [h64, h1, h2, this]
      · have : ¬ k - f.lo < f.w := by omega
        simp [h64, h1, h2, this]
    · simp [h64, h1]
  · have : w.getLsbD k = false := BitVec.getLsbD_of_ge w k (by omega)
    simp [h64]

theorem Fld.of_into_same (f : Fld) (w : Word) (v : Nat) (h : f.lo + f.w ≤ 64) :
    Fld.of f (Fld.into f w v) = v % 2 ^ f.w := by
  apply Nat.eq_of_testBit_eq
  intro k
  rw [Fld.testBit_of, Fld.getLsbD_into, Nat.testBit_mod_two_pow]
  by_cases hk : k < f.w
  · have h1 : f.lo + k < 64 := by omega
    simp [hk, h1]
  · simp [hk]

theorem Fld.of_into_other (f g : Fld) (w : Word) (v : Nat) (h : g.lo + g.w ≤ f.lo ∨ f.lo + f.w ≤ g.lo) :
    Fld.of g (Fld.into f w v) = Fld.of g w := by
  apply Nat.eq_of_testBit_eq
  intro k
  rw [Fld.testBit_of, Fld.testBit_of, Fld.getLsbD_into]
  by_cases hk : k < g.w
  · have h1 : ¬ (f.lo ≤ g.lo + k ∧ g.lo + k < f.lo + f.w) := by omega
    by_cases h64 : g.lo + k < 64
    · simp [hk, h1, h64]
    · have : w.getLsbD (g.lo + k) = false := BitVec.getLsbD_of_ge w _ (by omega)
      simp [hk, h64, this]
  · simp [hk]

theorem Fld.of_lt (f : Fld) (w : Word) : Fld.of f w < 2 ^ f.w := Nat.mod_lt _ (Nat.two_pow_pos _)

/-! ## Fields of the state -/

theorem fld_put_same (s : State) (f : Fld) (i v : Nat) (h : f.lo + f.w ≤ 64) :
    (s.put f i v).fld f i = v % 2 ^ f.w := by
  simp only [State.fld, State.put, reg_setReg_same]
  exact Fld.of_into_same f _ v h

theorem fld_put_field (s : State) (f g : Fld) (i v : Nat) (hr : g.reg = f.reg)
    (h : g.lo + g.w ≤ f.lo ∨ f.lo + f.w ≤ g.lo) : (s.put f i v).fld g i = s.fld g i := by
  simp only [State.fld, State.put, hr, reg_setReg_same]
  exact Fld.of_into_other f g _ v h

theorem fld_put_other (s : State) (f g : Fld) (i j v : Nat) (h : g.reg.offset j ≠ f.reg.offset i) :
    (s.put f i v).fld g j = s.fld g j := by
  simp only [State.fld, State.put]
  rw [reg_setReg_other _ _ _ _ _ _ h]

theorem fld_setReg_other (s : State) (r : Reg) (g : Fld) (i j : Nat) (v : Word) (h : g.reg.offset j ≠ r.offset i) :
    (s.setReg r i v).fld g j = s.fld g j := by
  simp only [State.fld]
  rw [reg_setReg_other _ _ _ _ _ _ h]

theorem fld_setReg_same (s : State) (g : Fld) (i : Nat) (v : Word) : (s.setReg g.reg i v).fld g i = Fld.of g v := by
  simp [State.fld]

theorem reg_put_same (s : State) (f : Fld) (i v : Nat) :
    (s.put f i v).reg f.reg i = Fld.into f (s.reg f.reg i) v := reg_setReg_same _ _ _ _

theorem reg_put_other (s : State) (f : Fld) (r : Reg) (i j v : Nat) (h : r.offset j ≠ f.reg.offset i) :
    (s.put f i v).reg r j = s.reg r j := reg_setReg_other _ _ _ _ _ _ h

theorem get_put_other (s : State) (f : Fld) (i v : Nat) (d : Nat → Word) (o : Nat) (h : o ≠ f.reg.offset i) :
    Tab.get d (s.put f i v).regs o = Tab.get d s.regs o := get_setReg_other _ _ _ _ _ _ h

/-! ## Interrupt causes -/

/-- R336: an event sets its bit of MW_IRQ_CAUSE and changes no other. -/
theorem reg_raise_same (s : State) (c : Cause) :
    (s.raise c).reg .MW_IRQ_CAUSE 0 = s.reg .MW_IRQ_CAUSE 0 ||| BitVec.ofNat 64 (2 ^ (4 + c.bit)) := by
  apply BitVec.eq_of_getLsbD_eq
  intro k hk
  have e : (s.raise c).reg .MW_IRQ_CAUSE 0 =
      Fld.into F.MW_IRQ_CAUSE_EVENT (s.reg .MW_IRQ_CAUSE 0) (s.fld F.MW_IRQ_CAUSE_EVENT 0 ||| 2 ^ c.bit) := by
    simp only [State.raise, State.putBit, if_true]
    exact reg_put_same s F.MW_IRQ_CAUSE_EVENT 0 _
  rw [e, Fld.getLsbD_into]
  simp only [BitVec.getLsbD_or, BitVec.getLsbD_ofNat, Nat.testBit_or, Nat.testBit_two_pow, hk]
  have hb : c.bit < 8 := by cases c <;> simp [Cause.bit]
  have e2 : (s.fld F.MW_IRQ_CAUSE_EVENT 0).testBit (k - 4) =
      (decide (k - 4 < 8) && (s.reg .MW_IRQ_CAUSE 0).getLsbD (4 + (k - 4))) := Fld.testBit_of _ _ _
  by_cases h1 : F.MW_IRQ_CAUSE_EVENT.lo ≤ k ∧ k < F.MW_IRQ_CAUSE_EVENT.lo + F.MW_IRQ_CAUSE_EVENT.w
  · have h2 : 4 ≤ k ∧ k < 4 + 8 := h1
    simp only [h1, and_self, if_true]
    have lo : F.MW_IRQ_CAUSE_EVENT.lo = 4 := rfl
    rw [lo, e2]
    have h3 : 4 + (k - 4) = k := by omega
    have h4 : k - 4 < 8 := by omega
    simp only [h3, h4, decide_true, Bool.true_and]
    have h5 : (c.bit = k - 4) ↔ (4 + c.bit = k) := by omega
    simp [h5]
  · have h2 : ¬ (4 ≤ k ∧ k < 4 + 8) := h1
    simp only [h1, if_false]
    have h5 : ¬ (4 + c.bit = k) := by omega
    simp [h5]

theorem get_raise_other (s : State) (c : Cause) (d : Nat → Word) (o : Nat) (h : o ≠ 0x18) :
    Tab.get d (s.raise c).regs o = Tab.get d s.regs o := by
  simp only [State.raise, State.putBit]
  exact get_put_other _ _ _ _ _ _ h

theorem reg_raise_other (s : State) (c : Cause) (r : Reg) (i : Nat) (h : r.offset i ≠ 0x18) :
    (s.raise c).reg r i = s.reg r i := get_raise_other s c _ _ h

/-- A register's word depends on the register table alone. -/
theorem State.reg_congr {s t : State} (h : s.regs = t.regs) (r : Reg) (i : Nat) : s.reg r i = t.reg r i := by
  simp only [State.reg, h]

theorem State.fld_congr {s t : State} (h : s.regs = t.regs) (f : Fld) (i : Nat) : s.fld f i = t.fld f i := by
  simp only [State.fld, State.reg, h]

end Sys2Proof.Machine
end

