-- ==== Sys2Proof/Laws/Frames.lean ====
section
/-!
SUPPORT. How `RegsAre` and `RegsBut` of a state follow from those of the state before one more write.
-/

namespace Sys2Proof.Machine

theorem RegsAre.congr {s t t' : State} {ws : List (Reg × Nat × Word)} (h : t.regs = t'.regs) (g : RegsAre s t' ws) :
    RegsAre s t ws := by
  refine ⟨fun e he => ?_, fun d o ho => ?_⟩
  · rw [State.reg_congr h]
    exact g.1 e he
  · rw [h]
    exact g.2 d o ho

theorem RegsAre.refl (s : State) : RegsAre s s [] := ⟨by simp, fun _ _ _ => rfl⟩

/-- One more register is written, at an offset of its own. -/
theorem RegsAre.cons {s t : State} {ws : List (Reg × Nat × Word)} (g : RegsAre s t ws) (r : Reg) (i : Nat) (v : Word)
    (h : ∀ e ∈ ws, e.1.offset e.2.1 ≠ r.offset i) : RegsAre s (t.setReg r i v) ((r, i, v) :: ws) := by
  refine ⟨fun e he => ?_, fun d o ho => ?_⟩
  · rcases List.mem_cons.mp he with rfl | he
    · exact reg_setReg_same _ _ _ _
    · rw [reg_setReg_other _ _ _ _ _ _ (h e he)]
      exact g.1 e he
  · rw [get_setReg_other _ _ _ _ _ _ (ho (r, i, v) (by simp))]
    exact g.2 d o fun e he => ho e (by simp [he])

/-- The register written last is written once more. -/
theorem RegsAre.again {s t : State} {ws : List (Reg × Nat × Word)} {r : Reg} {i : Nat} {w : Word}
    (g : RegsAre s t ((r, i, w) :: ws)) (v : Word) (h : ∀ e ∈ ws, e.1.offset e.2.1 ≠ r.offset i) :
    RegsAre s (t.setReg r i v) ((r, i, v) :: ws) := by
  refine ⟨fun e he => ?_, fun d o ho => ?_⟩
  · rcases List.mem_cons.mp he with rfl | he
    · exact reg_setReg_same _ _ _ _
    · rw [reg_setReg_other _ _ _ _ _ _ (h e he)]
      exact g.1 e (by simp [he])
  · rw [get_setReg_other _ _ _ _ _ _ (ho (r, i, v) (by simp))]
    exact g.2 d o fun e he => by
      rcases List.mem_cons.mp he with rfl | he
      · exact ho (_, _, v) (by simp)
      · exact ho e (by simp [he])

/-- The words of a register that is not written are as before. -/
theorem RegsAre.reg_other {s t : State} {ws : List (Reg × Nat × Word)} (g : RegsAre s t ws) (r : Reg) (i : Nat)
    (h : ∀ e ∈ ws, r.offset i ≠ e.1.offset e.2.1) : t.reg r i = s.reg r i := g.2 _ _ h

theorem RegsBut.refl (s : State) (p : Nat → Prop) : RegsBut s s p := fun _ _ _ => rfl

theorem RegsBut.trans {s t u : State} {p : Nat → Prop} (h : RegsBut s t p) (g : RegsBut t u p) : RegsBut s u p :=
  fun d o ho => (g d o ho).trans (h d o ho)

theorem RegsBut.setReg {s t : State} {p : Nat → Prop} (h : RegsBut s t p) (r : Reg) (i : Nat) (v : Word)
    (hp : p (r.offset i)) : RegsBut s (t.setReg r i v) p := fun d o ho => by
  rw [get_setReg_other _ _ _ _ _ _ (fun e => ho (by rw [e]; exact hp))]
  exact h d o ho

theorem RegsBut.congr {s t t' : State} {p : Nat → Prop} (h : t.regs = t'.regs) (g : RegsBut s t' p) :
    RegsBut s t p := fun d o ho => by
  rw [h]
  exact g d o ho

end Sys2Proof.Machine
end

