-- ==== Sys2Proof/Laws/Keeps.lean ====
section
/-!
SUPPORT. What every operation keeps: the queue is untouched, free values are not drawn twice, and memory stays in its
canonical form.  The base operations.
-/

namespace Sys2Proof.Machine

/-- The queue is `q`, at least `n` free values have been drawn, and memory is in canonical form. -/
structure Good (q : List Instr) (n : Nat) (s : State) : Prop where
  queue : s.pending = q
  free : n ≤ s.freeCtr
  mem : s.mem.wf = true

/-- `Good` of the state in an optional answer. -/
def GoodO (q : List Instr) (n : Nat) (o : Option State) : Prop := ∀ t, o = some t → Good q n t

/-- `Good` of the next state of an outcome. -/
def GoodN (q : List Instr) (n : Nat) (o : Host.Outcome State Fault Refusal) : Prop := ∀ t, o = .next t → Good q n t

section
variable {q : List Instr} {n : Nat} {s : State}

theorem good_next (h : Good q n s) : GoodN q n (.next s) := by
  intro t e
  cases e
  exact h

theorem good_some (h : Good q n s) : GoodO q n (some s) := by
  intro t e
  cases e
  exact h

theorem good_none : GoodO q n none := by
  intro t e
  cases e

theorem good_getD {o : Option State} (ho : GoodO q n o) (h : Good q n s) : Good q n (o.getD s) := by
  cases o with
  | none => exact h
  | some t => exact ho t rfl

theorem good_map {o : Option State} {f : State → State} (ho : GoodO q n o) (hf : ∀ s, Good q n s → Good q n (f s)) :
    GoodO q n (o.map f) := by
  intro t e
  cases o with
  | none => cases e
  | some u =>
    cases e
    exact hf u (ho u rfl)

theorem good_ite {c : Prop} [Decidable c] {a b : State} (ha : Good q n a) (hb : Good q n b) :
    Good q n (if c then a else b) := by
  split <;> assumption

theorem goodO_ite {c : Prop} [Decidable c] {a b : Option State} (ha : GoodO q n a) (hb : GoodO q n b) :
    GoodO q n (if c then a else b) := by
  split <;> assumption

theorem goodN_ite {c : Prop} [Decidable c] {a b : Host.Outcome State Fault Refusal} (ha : GoodN q n a)
    (hb : GoodN q n b) : GoodN q n (if c then a else b) := by
  split <;> assumption

theorem foldl_keeps {α β : Type} {P : β → Prop} {f : β → α → β} (hf : ∀ b x, P b → P (f b x)) (l : List α) :
    ∀ b, P b → P (l.foldl f b) := by
  induction l with
  | nil => exact fun _ h => h
  | cons x l ih => exact fun b h => ih _ (hf b x h)

theorem good_foldl {α : Type} {f : State → α → State} {l : List α} (h : Good q n s)
    (hf : ∀ s x, Good q n s → Good q n (f s x)) : Good q n (l.foldl f s) := foldl_keeps hf l s h

theorem good_foldl2 {α β : Type} {f : β × State → α → β × State} {l : List α} {b : β × State} (h : Good q n b.2)
    (hf : ∀ b x, Good q n b.2 → Good q n (f b x).2) : Good q n (l.foldl f b).2 :=
  foldl_keeps (P := fun b : β × State => Good q n b.2) hf l b h

theorem good_foldl3 {α β γ : Type} {f : β × γ × State → α → β × γ × State} {l : List α} {b : β × γ × State}
    (h : Good q n b.2.2) (hf : ∀ b x, Good q n b.2.2 → Good q n (f b x).2.2) : Good q n (l.foldl f b).2.2 :=
  foldl_keeps (P := fun b : β × γ × State => Good q n b.2.2) hf l b h

theorem good_foldl4 {α β γ δ : Type} {f : β × γ × δ × State → α → β × γ × δ × State} {l : List α}
    {b : β × γ × δ × State} (h : Good q n b.2.2.2) (hf : ∀ b x, Good q n b.2.2.2 → Good q n (f b x).2.2.2) :
    Good q n (l.foldl f b).2.2.2 :=
  foldl_keeps (P := fun b : β × γ × δ × State => Good q n b.2.2.2) hf l b h

/-- A change of any part but the queue, the counter of free values and memory. -/
theorem good_upd {a1 a3 a4 a6 a7 a8 a9 a10 a11 a12} (h : Good q n s) :
    Good q n ⟨s.pending, a1, s.freeCtr, a3, a4, s.mem, a6, a7, a8, a9, a10, a11, a12⟩ := ⟨h.1, h.2, h.3⟩

/-- The same with a free value drawn. -/
theorem good_drawn {a1 a3 a4 a6 a7 a8 a9 a10 a11 a12} (h : Good q n s) :
    Good q n ⟨s.pending, a1, s.freeCtr + 1, a3, a4, s.mem, a6, a7, a8, a9, a10, a11, a12⟩ :=
  ⟨h.1, Nat.le_succ_of_le h.2, h.3⟩

/-- A change of memory outside DRAM. -/
theorem good_mem {a1 a3 a4 a6 a7 a8 a9 a10 a11 a12 b1 b2 b3 b4 b5} (h : Good q n s) :
    Good q n ⟨s.pending, a1, s.freeCtr, a3, a4, ⟨s.mem.dram, s.mem.chk, s.mem.ground, b1, b2, b3, b4, b5⟩, a6, a7, a8, a9,
      a10, a11, a12⟩ := ⟨h.1, h.2, h.3⟩

end

/-! ## DRAM -/

theorem wf_filter {α : Type} [DecidableEq α] (d d' : Nat → α) (p : Nat × α → Bool) (t : Tab α) :
    ∀ lo, Tab.wfFrom d lo t = true → (∀ e ∈ t.filter p, e.2 ≠ d' e.1) → Tab.wfFrom d' lo (t.filter p) = true := by
  induction t with
  | nil => exact fun _ _ _ => rfl
  | cons e t ih =>
    obtain ⟨i, v⟩ := e
    intro lo hw hd
    simp only [Tab.wfFrom, Bool.and_eq_true, decide_eq_true_eq] at hw
    cases hp : p (i, v) with
    | false =>
      rw [List.filter_cons_of_neg (by simp [hp])] at hd ⊢
      exact Tab.wfFrom_mono d' (by omega) _ (ih _ hw.2 hd)
    | true =>
      rw [List.filter_cons_of_pos (by simp [hp])] at hd ⊢
      simp only [Tab.wfFrom, Bool.and_eq_true, decide_eq_true_eq]
      exact ⟨⟨hw.1.1, hd (i, v) (by simp)⟩, ih _ hw.2 fun e he => hd e (by simp [he])⟩

theorem wf_restrict {α : Type} [DecidableEq α] (d : Nat → α) (p : Nat → Bool) (t : Tab α) :
    ∀ lo, Tab.wfFrom d lo t = true → Tab.wfFrom d lo (Tab.restrict p t) = true := by
  intro lo hw
  refine wf_filter d d _ t lo hw ?_
  intro e he
  have hm : e ∈ t := List.mem_of_mem_filter he
  clear he p
  induction t generalizing lo with
  | nil => cases hm
  | cons x t ih =>
    obtain ⟨i, v⟩ := x
    simp only [Tab.wfFrom, Bool.and_eq_true, decide_eq_true_eq] at hw
    cases hm with
    | head => exact hw.1.2
    | tail _ h => exact ih _ hw.2 h

/-- A write of a sector keeps the canonical form. -/
theorem writeRaw_wf (s : State) (l : Loc) (d : SectorBits) (cs : List Byte) (h : s.mem.wf = true) :
    (s.writeRaw l d cs).mem.wf = true := by
  simp only [Mem.wf, Bool.and_eq_true] at h ⊢
  exact ⟨Tab.wf_setMany _ _ _ _ h.1, Tab.wf_setMany _ _ _ _ h.2⟩

/-- New ground keeps the canonical form. -/
theorem reground_wf (m : Mem) (p : Nat → Bool) (g : List Ground) (h : m.wf = true) : (m.reground p g).wf = true := by
  simp only [Mem.wf, Bool.and_eq_true] at h ⊢
  constructor
  · have w := wf_restrict m.dataBlank (fun a => !p (a / 64)) m.dram 0 h.1
    refine wf_filter m.dataBlank _ _ _ 0 w ?_
    intro e he
    exact bne_iff_ne.mp (List.mem_filter.mp he).2
  · have w := wf_restrict m.chkBlank (fun a => !p (a / 8)) m.chk 0 h.2
    refine wf_filter m.chkBlank _ _ _ 0 w ?_
    intro e he
    exact bne_iff_ne.mp (List.mem_filter.mp he).2

section
variable {q : List Instr} {n : Nat} {s : State}

theorem good_State_writeRaw {l d cs} (h : Good q n s) : Good q n (s.writeRaw l d cs) :=
  ⟨h.1, h.2, writeRaw_wf s l d cs h.3⟩

/-- A change of ground, with what it changes beside DRAM. -/
theorem good_reground {a1 a3 a4 a6 a7 a8 a9 a10 a11 a12 p g} (h : Good q n s) :
    Good q n ⟨s.pending, a1, s.freeCtr, a3, a4, s.mem.reground p g, a6, a7, a8, a9, a10, a11, a12⟩ :=
  ⟨h.1, h.2, reground_wf _ _ _ h.3⟩

theorem good_reground_drawn {a1 a3 a4 a6 a7 a8 a9 a10 a11 a12 p g} (h : Good q n s) :
    Good q n ⟨s.pending, a1, s.freeCtr + 1, a3, a4, s.mem.reground p g, a6, a7, a8, a9, a10, a11, a12⟩ :=
  ⟨h.1, Nat.le_succ_of_le h.2, reground_wf _ _ _ h.3⟩

theorem good_reground_touched {a1 a3 a4 a6 a7 a8 a9 a10 a11 a12 p g b1 b2 b3 b4 b5} (h : Good q n s) :
    Good q n ⟨s.pending, a1, s.freeCtr, a3, a4, ⟨(s.mem.reground p g).dram, (s.mem.reground p g).chk,
      (s.mem.reground p g).ground, b1, b2, b3, b4, b5⟩, a6, a7, a8, a9, a10, a11, a12⟩ :=
  ⟨h.1, h.2, reground_wf s.mem p g h.3⟩

end

end Sys2Proof.Machine
end

