-- ==== Sys2Proof/Laws/State.lean ====
section
/-!
SUPPORT. What each named update leaves alone: one lemma per part of the state and update, true by unfolding.
-/

namespace Sys2Proof.Machine

variable (s : State)

/-! `setReg` -/

@[simp] theorem State.setReg_pending (r : Reg) (i : Nat) (v : Word) : (s.setReg r i v).pending = s.pending := rfl
@[simp] theorem State.setReg_sent (r : Reg) (i : Nat) (v : Word) : (s.setReg r i v).sent = s.sent := rfl
@[simp] theorem State.setReg_freeCtr (r : Reg) (i : Nat) (v : Word) : (s.setReg r i v).freeCtr = s.freeCtr := rfl
@[simp] theorem State.setReg_tick (r : Reg) (i : Nat) (v : Word) : (s.setReg r i v).tick = s.tick := rfl
@[simp] theorem State.setReg_mem (r : Reg) (i : Nat) (v : Word) : (s.setReg r i v).mem = s.mem := rfl
@[simp] theorem State.setReg_ports (r : Reg) (i : Nat) (v : Word) : (s.setReg r i v).ports = s.ports := rfl
@[simp] theorem State.setReg_draws (r : Reg) (i : Nat) (v : Word) : (s.setReg r i v).draws = s.draws := rfl
@[simp] theorem State.setReg_power (r : Reg) (i : Nat) (v : Word) : (s.setReg r i v).power = s.power := rfl
@[simp] theorem State.setReg_life (r : Reg) (i : Nat) (v : Word) : (s.setReg r i v).life = s.life := rfl
@[simp] theorem State.setReg_time (r : Reg) (i : Nat) (v : Word) : (s.setReg r i v).time = s.time := rfl
@[simp] theorem State.setReg_anv (r : Reg) (i : Nat) (v : Word) : (s.setReg r i v).anv = s.anv := rfl
@[simp] theorem State.setReg_pl (r : Reg) (i : Nat) (v : Word) : (s.setReg r i v).pl = s.pl := rfl

/-! `put` -/

@[simp] theorem State.put_pending (f : Fld) (i v : Nat) : (s.put f i v).pending = s.pending := rfl
@[simp] theorem State.put_sent (f : Fld) (i v : Nat) : (s.put f i v).sent = s.sent := rfl
@[simp] theorem State.put_freeCtr (f : Fld) (i v : Nat) : (s.put f i v).freeCtr = s.freeCtr := rfl
@[simp] theorem State.put_tick (f : Fld) (i v : Nat) : (s.put f i v).tick = s.tick := rfl
@[simp] theorem State.put_mem (f : Fld) (i v : Nat) : (s.put f i v).mem = s.mem := rfl
@[simp] theorem State.put_ports (f : Fld) (i v : Nat) : (s.put f i v).ports = s.ports := rfl
@[simp] theorem State.put_draws (f : Fld) (i v : Nat) : (s.put f i v).draws = s.draws := rfl
@[simp] theorem State.put_power (f : Fld) (i v : Nat) : (s.put f i v).power = s.power := rfl
@[simp] theorem State.put_life (f : Fld) (i v : Nat) : (s.put f i v).life = s.life := rfl
@[simp] theorem State.put_time (f : Fld) (i v : Nat) : (s.put f i v).time = s.time := rfl
@[simp] theorem State.put_anv (f : Fld) (i v : Nat) : (s.put f i v).anv = s.anv := rfl
@[simp] theorem State.put_pl (f : Fld) (i v : Nat) : (s.put f i v).pl = s.pl := rfl

/-! `putBit` -/

@[simp] theorem State.putBit_pending (f : Fld) (i k : Nat) (b : Bool) : (s.putBit f i k b).pending = s.pending := rfl
@[simp] theorem State.putBit_sent (f : Fld) (i k : Nat) (b : Bool) : (s.putBit f i k b).sent = s.sent := rfl
@[simp] theorem State.putBit_freeCtr (f : Fld) (i k : Nat) (b : Bool) : (s.putBit f i k b).freeCtr = s.freeCtr := rfl
@[simp] theorem State.putBit_tick (f : Fld) (i k : Nat) (b : Bool) : (s.putBit f i k b).tick = s.tick := rfl
@[simp] theorem State.putBit_mem (f : Fld) (i k : Nat) (b : Bool) : (s.putBit f i k b).mem = s.mem := rfl
@[simp] theorem State.putBit_ports (f : Fld) (i k : Nat) (b : Bool) : (s.putBit f i k b).ports = s.ports := rfl
@[simp] theorem State.putBit_draws (f : Fld) (i k : Nat) (b : Bool) : (s.putBit f i k b).draws = s.draws := rfl
@[simp] theorem State.putBit_power (f : Fld) (i k : Nat) (b : Bool) : (s.putBit f i k b).power = s.power := rfl
@[simp] theorem State.putBit_life (f : Fld) (i k : Nat) (b : Bool) : (s.putBit f i k b).life = s.life := rfl
@[simp] theorem State.putBit_time (f : Fld) (i k : Nat) (b : Bool) : (s.putBit f i k b).time = s.time := rfl
@[simp] theorem State.putBit_anv (f : Fld) (i k : Nat) (b : Bool) : (s.putBit f i k b).anv = s.anv := rfl
@[simp] theorem State.putBit_pl (f : Fld) (i k : Nat) (b : Bool) : (s.putBit f i k b).pl = s.pl := rfl

/-! `raise` -/

@[simp] theorem State.raise_pending (c : Cause) : (s.raise c).pending = s.pending := rfl
@[simp] theorem State.raise_sent (c : Cause) : (s.raise c).sent = s.sent := rfl
@[simp] theorem State.raise_freeCtr (c : Cause) : (s.raise c).freeCtr = s.freeCtr := rfl
@[simp] theorem State.raise_tick (c : Cause) : (s.raise c).tick = s.tick := rfl
@[simp] theorem State.raise_mem (c : Cause) : (s.raise c).mem = s.mem := rfl
@[simp] theorem State.raise_ports (c : Cause) : (s.raise c).ports = s.ports := rfl
@[simp] theorem State.raise_draws (c : Cause) : (s.raise c).draws = s.draws := rfl
@[simp] theorem State.raise_power (c : Cause) : (s.raise c).power = s.power := rfl
@[simp] theorem State.raise_life (c : Cause) : (s.raise c).life = s.life := rfl
@[simp] theorem State.raise_time (c : Cause) : (s.raise c).time = s.time := rfl
@[simp] theorem State.raise_anv (c : Cause) : (s.raise c).anv = s.anv := rfl
@[simp] theorem State.raise_pl (c : Cause) : (s.raise c).pl = s.pl := rfl

/-! `countSat` -/

@[simp] theorem State.countSat_pending (f : Fld) (i k : Nat) : (s.countSat f i k).pending = s.pending := rfl
@[simp] theorem State.countSat_sent (f : Fld) (i k : Nat) : (s.countSat f i k).sent = s.sent := rfl
@[simp] theorem State.countSat_freeCtr (f : Fld) (i k : Nat) : (s.countSat f i k).freeCtr = s.freeCtr := rfl
@[simp] theorem State.countSat_tick (f : Fld) (i k : Nat) : (s.countSat f i k).tick = s.tick := rfl
@[simp] theorem State.countSat_mem (f : Fld) (i k : Nat) : (s.countSat f i k).mem = s.mem := rfl
@[simp] theorem State.countSat_ports (f : Fld) (i k : Nat) : (s.countSat f i k).ports = s.ports := rfl
@[simp] theorem State.countSat_draws (f : Fld) (i k : Nat) : (s.countSat f i k).draws = s.draws := rfl
@[simp] theorem State.countSat_power (f : Fld) (i k : Nat) : (s.countSat f i k).power = s.power := rfl
@[simp] theorem State.countSat_life (f : Fld) (i k : Nat) : (s.countSat f i k).life = s.life := rfl
@[simp] theorem State.countSat_time (f : Fld) (i k : Nat) : (s.countSat f i k).time = s.time := rfl
@[simp] theorem State.countSat_anv (f : Fld) (i k : Nat) : (s.countSat f i k).anv = s.anv := rfl
@[simp] theorem State.countSat_pl (f : Fld) (i k : Nat) : (s.countSat f i k).pl = s.pl := rfl

/-! `emit` -/

@[simp] theorem State.emit_pending (o : Sent) : (s.emit o).pending = s.pending := rfl
@[simp] theorem State.emit_freeCtr (o : Sent) : (s.emit o).freeCtr = s.freeCtr := rfl
@[simp] theorem State.emit_tick (o : Sent) : (s.emit o).tick = s.tick := rfl
@[simp] theorem State.emit_regs (o : Sent) : (s.emit o).regs = s.regs := rfl
@[simp] theorem State.emit_mem (o : Sent) : (s.emit o).mem = s.mem := rfl
@[simp] theorem State.emit_ports (o : Sent) : (s.emit o).ports = s.ports := rfl
@[simp] theorem State.emit_draws (o : Sent) : (s.emit o).draws = s.draws := rfl
@[simp] theorem State.emit_power (o : Sent) : (s.emit o).power = s.power := rfl
@[simp] theorem State.emit_life (o : Sent) : (s.emit o).life = s.life := rfl
@[simp] theorem State.emit_time (o : Sent) : (s.emit o).time = s.time := rfl
@[simp] theorem State.emit_anv (o : Sent) : (s.emit o).anv = s.anv := rfl
@[simp] theorem State.emit_pl (o : Sent) : (s.emit o).pl = s.pl := rfl

/-! `setSlice` -/

@[simp] theorem State.setSlice_pending (i : Nat) (v : Slice) : (s.setSlice i v).pending = s.pending := rfl
@[simp] theorem State.setSlice_sent (i : Nat) (v : Slice) : (s.setSlice i v).sent = s.sent := rfl
@[simp] theorem State.setSlice_freeCtr (i : Nat) (v : Slice) : (s.setSlice i v).freeCtr = s.freeCtr := rfl
@[simp] theorem State.setSlice_tick (i : Nat) (v : Slice) : (s.setSlice i v).tick = s.tick := rfl
@[simp] theorem State.setSlice_regs (i : Nat) (v : Slice) : (s.setSlice i v).regs = s.regs := rfl
@[simp] theorem State.setSlice_ports (i : Nat) (v : Slice) : (s.setSlice i v).ports = s.ports := rfl
@[simp] theorem State.setSlice_draws (i : Nat) (v : Slice) : (s.setSlice i v).draws = s.draws := rfl
@[simp] theorem State.setSlice_power (i : Nat) (v : Slice) : (s.setSlice i v).power = s.power := rfl
@[simp] theorem State.setSlice_life (i : Nat) (v : Slice) : (s.setSlice i v).life = s.life := rfl
@[simp] theorem State.setSlice_time (i : Nat) (v : Slice) : (s.setSlice i v).time = s.time := rfl
@[simp] theorem State.setSlice_anv (i : Nat) (v : Slice) : (s.setSlice i v).anv = s.anv := rfl
@[simp] theorem State.setSlice_pl (i : Nat) (v : Slice) : (s.setSlice i v).pl = s.pl := rfl

/-! `setChan` -/

@[simp] theorem State.setChan_pending (i : Nat) (v : Chan) : (s.setChan i v).pending = s.pending := rfl
@[simp] theorem State.setChan_sent (i : Nat) (v : Chan) : (s.setChan i v).sent = s.sent := rfl
@[simp] theorem State.setChan_freeCtr (i : Nat) (v : Chan) : (s.setChan i v).freeCtr = s.freeCtr := rfl
@[simp] theorem State.setChan_tick (i : Nat) (v : Chan) : (s.setChan i v).tick = s.tick := rfl
@[simp] theorem State.setChan_regs (i : Nat) (v : Chan) : (s.setChan i v).regs = s.regs := rfl
@[simp] theorem State.setChan_ports (i : Nat) (v : Chan) : (s.setChan i v).ports = s.ports := rfl
@[simp] theorem State.setChan_draws (i : Nat) (v : Chan) : (s.setChan i v).draws = s.draws := rfl
@[simp] theorem State.setChan_power (i : Nat) (v : Chan) : (s.setChan i v).power = s.power := rfl
@[simp] theorem State.setChan_life (i : Nat) (v : Chan) : (s.setChan i v).life = s.life := rfl
@[simp] theorem State.setChan_time (i : Nat) (v : Chan) : (s.setChan i v).time = s.time := rfl
@[simp] theorem State.setChan_anv (i : Nat) (v : Chan) : (s.setChan i v).anv = s.anv := rfl
@[simp] theorem State.setChan_pl (i : Nat) (v : Chan) : (s.setChan i v).pl = s.pl := rfl

/-! `setMend` -/

@[simp] theorem State.setMend_pending (i : Nat) (v : Mend) : (s.setMend i v).pending = s.pending := rfl
@[simp] theorem State.setMend_sent (i : Nat) (v : Mend) : (s.setMend i v).sent = s.sent := rfl
@[simp] theorem State.setMend_freeCtr (i : Nat) (v : Mend) : (s.setMend i v).freeCtr = s.freeCtr := rfl
@[simp] theorem State.setMend_tick (i : Nat) (v : Mend) : (s.setMend i v).tick = s.tick := rfl
@[simp] theorem State.setMend_regs (i : Nat) (v : Mend) : (s.setMend i v).regs = s.regs := rfl
@[simp] theorem State.setMend_ports (i : Nat) (v : Mend) : (s.setMend i v).ports = s.ports := rfl
@[simp] theorem State.setMend_draws (i : Nat) (v : Mend) : (s.setMend i v).draws = s.draws := rfl
@[simp] theorem State.setMend_power (i : Nat) (v : Mend) : (s.setMend i v).power = s.power := rfl
@[simp] theorem State.setMend_life (i : Nat) (v : Mend) : (s.setMend i v).life = s.life := rfl
@[simp] theorem State.setMend_time (i : Nat) (v : Mend) : (s.setMend i v).time = s.time := rfl
@[simp] theorem State.setMend_anv (i : Nat) (v : Mend) : (s.setMend i v).anv = s.anv := rfl
@[simp] theorem State.setMend_pl (i : Nat) (v : Mend) : (s.setMend i v).pl = s.pl := rfl

/-! `setPort` -/

@[simp] theorem State.setPort_pending (i : Nat) (v : Port) : (s.setPort i v).pending = s.pending := rfl
@[simp] theorem State.setPort_sent (i : Nat) (v : Port) : (s.setPort i v).sent = s.sent := rfl
@[simp] theorem State.setPort_freeCtr (i : Nat) (v : Port) : (s.setPort i v).freeCtr = s.freeCtr := rfl
@[simp] theorem State.setPort_tick (i : Nat) (v : Port) : (s.setPort i v).tick = s.tick := rfl
@[simp] theorem State.setPort_regs (i : Nat) (v : Port) : (s.setPort i v).regs = s.regs := rfl
@[simp] theorem State.setPort_mem (i : Nat) (v : Port) : (s.setPort i v).mem = s.mem := rfl
@[simp] theorem State.setPort_draws (i : Nat) (v : Port) : (s.setPort i v).draws = s.draws := rfl
@[simp] theorem State.setPort_power (i : Nat) (v : Port) : (s.setPort i v).power = s.power := rfl
@[simp] theorem State.setPort_life (i : Nat) (v : Port) : (s.setPort i v).life = s.life := rfl
@[simp] theorem State.setPort_time (i : Nat) (v : Port) : (s.setPort i v).time = s.time := rfl
@[simp] theorem State.setPort_anv (i : Nat) (v : Port) : (s.setPort i v).anv = s.anv := rfl
@[simp] theorem State.setPort_pl (i : Nat) (v : Port) : (s.setPort i v).pl = s.pl := rfl

/-! `setWaits` -/

@[simp] theorem State.setWaits_pending (v : List Wait) : (s.setWaits v).pending = s.pending := rfl
@[simp] theorem State.setWaits_sent (v : List Wait) : (s.setWaits v).sent = s.sent := rfl
@[simp] theorem State.setWaits_freeCtr (v : List Wait) : (s.setWaits v).freeCtr = s.freeCtr := rfl
@[simp] theorem State.setWaits_tick (v : List Wait) : (s.setWaits v).tick = s.tick := rfl
@[simp] theorem State.setWaits_regs (v : List Wait) : (s.setWaits v).regs = s.regs := rfl
@[simp] theorem State.setWaits_mem (v : List Wait) : (s.setWaits v).mem = s.mem := rfl
@[simp] theorem State.setWaits_draws (v : List Wait) : (s.setWaits v).draws = s.draws := rfl
@[simp] theorem State.setWaits_power (v : List Wait) : (s.setWaits v).power = s.power := rfl
@[simp] theorem State.setWaits_life (v : List Wait) : (s.setWaits v).life = s.life := rfl
@[simp] theorem State.setWaits_time (v : List Wait) : (s.setWaits v).time = s.time := rfl
@[simp] theorem State.setWaits_anv (v : List Wait) : (s.setWaits v).anv = s.anv := rfl
@[simp] theorem State.setWaits_pl (v : List Wait) : (s.setWaits v).pl = s.pl := rfl

/-! `setDrawer` -/

@[simp] theorem State.setDrawer_pending (i : Nat) (v : Drawer) : (s.setDrawer i v).pending = s.pending := rfl
@[simp] theorem State.setDrawer_sent (i : Nat) (v : Drawer) : (s.setDrawer i v).sent = s.sent := rfl
@[simp] theorem State.setDrawer_freeCtr (i : Nat) (v : Drawer) : (s.setDrawer i v).freeCtr = s.freeCtr := rfl
@[simp] theorem State.setDrawer_tick (i : Nat) (v : Drawer) : (s.setDrawer i v).tick = s.tick := rfl
@[simp] theorem State.setDrawer_regs (i : Nat) (v : Drawer) : (s.setDrawer i v).regs = s.regs := rfl
@[simp] theorem State.setDrawer_mem (i : Nat) (v : Drawer) : (s.setDrawer i v).mem = s.mem := rfl
@[simp] theorem State.setDrawer_ports (i : Nat) (v : Drawer) : (s.setDrawer i v).ports = s.ports := rfl
@[simp] theorem State.setDrawer_power (i : Nat) (v : Drawer) : (s.setDrawer i v).power = s.power := rfl
@[simp] theorem State.setDrawer_life (i : Nat) (v : Drawer) : (s.setDrawer i v).life = s.life := rfl
@[simp] theorem State.setDrawer_time (i : Nat) (v : Drawer) : (s.setDrawer i v).time = s.time := rfl
@[simp] theorem State.setDrawer_anv (i : Nat) (v : Drawer) : (s.setDrawer i v).anv = s.anv := rfl
@[simp] theorem State.setDrawer_pl (i : Nat) (v : Drawer) : (s.setDrawer i v).pl = s.pl := rfl

/-! `setAnvil` -/

@[simp] theorem State.setAnvil_pending (i : Nat) (v : Anvil) : (s.setAnvil i v).pending = s.pending := rfl
@[simp] theorem State.setAnvil_sent (i : Nat) (v : Anvil) : (s.setAnvil i v).sent = s.sent := rfl
@[simp] theorem State.setAnvil_freeCtr (i : Nat) (v : Anvil) : (s.setAnvil i v).freeCtr = s.freeCtr := rfl
@[simp] theorem State.setAnvil_tick (i : Nat) (v : Anvil) : (s.setAnvil i v).tick = s.tick := rfl
@[simp] theorem State.setAnvil_regs (i : Nat) (v : Anvil) : (s.setAnvil i v).regs = s.regs := rfl
@[simp] theorem State.setAnvil_mem (i : Nat) (v : Anvil) : (s.setAnvil i v).mem = s.mem := rfl
@[simp] theorem State.setAnvil_ports (i : Nat) (v : Anvil) : (s.setAnvil i v).ports = s.ports := rfl
@[simp] theorem State.setAnvil_draws (i : Nat) (v : Anvil) : (s.setAnvil i v).draws = s.draws := rfl
@[simp] theorem State.setAnvil_power (i : Nat) (v : Anvil) : (s.setAnvil i v).power = s.power := rfl
@[simp] theorem State.setAnvil_life (i : Nat) (v : Anvil) : (s.setAnvil i v).life = s.life := rfl
@[simp] theorem State.setAnvil_time (i : Nat) (v : Anvil) : (s.setAnvil i v).time = s.time := rfl
@[simp] theorem State.setAnvil_pl (i : Nat) (v : Anvil) : (s.setAnvil i v).pl = s.pl := rfl

/-! `setKernel` -/

@[simp] theorem State.setKernel_pending (i : Nat) (v : Option Kernel) : (s.setKernel i v).pending = s.pending := rfl
@[simp] theorem State.setKernel_sent (i : Nat) (v : Option Kernel) : (s.setKernel i v).sent = s.sent := rfl
@[simp] theorem State.setKernel_freeCtr (i : Nat) (v : Option Kernel) : (s.setKernel i v).freeCtr = s.freeCtr := rfl
@[simp] theorem State.setKernel_tick (i : Nat) (v : Option Kernel) : (s.setKernel i v).tick = s.tick := rfl
@[simp] theorem State.setKernel_regs (i : Nat) (v : Option Kernel) : (s.setKernel i v).regs = s.regs := rfl
@[simp] theorem State.setKernel_mem (i : Nat) (v : Option Kernel) : (s.setKernel i v).mem = s.mem := rfl
@[simp] theorem State.setKernel_ports (i : Nat) (v : Option Kernel) : (s.setKernel i v).ports = s.ports := rfl
@[simp] theorem State.setKernel_draws (i : Nat) (v : Option Kernel) : (s.setKernel i v).draws = s.draws := rfl
@[simp] theorem State.setKernel_power (i : Nat) (v : Option Kernel) : (s.setKernel i v).power = s.power := rfl
@[simp] theorem State.setKernel_life (i : Nat) (v : Option Kernel) : (s.setKernel i v).life = s.life := rfl
@[simp] theorem State.setKernel_time (i : Nat) (v : Option Kernel) : (s.setKernel i v).time = s.time := rfl
@[simp] theorem State.setKernel_pl (i : Nat) (v : Option Kernel) : (s.setKernel i v).pl = s.pl := rfl

/-! `setUnit` -/

@[simp] theorem State.setUnit_pending (i : Nat) (v : PUnit) : (s.setUnit i v).pending = s.pending := rfl
@[simp] theorem State.setUnit_sent (i : Nat) (v : PUnit) : (s.setUnit i v).sent = s.sent := rfl
@[simp] theorem State.setUnit_freeCtr (i : Nat) (v : PUnit) : (s.setUnit i v).freeCtr = s.freeCtr := rfl
@[simp] theorem State.setUnit_tick (i : Nat) (v : PUnit) : (s.setUnit i v).tick = s.tick := rfl
@[simp] theorem State.setUnit_regs (i : Nat) (v : PUnit) : (s.setUnit i v).regs = s.regs := rfl
@[simp] theorem State.setUnit_mem (i : Nat) (v : PUnit) : (s.setUnit i v).mem = s.mem := rfl
@[simp] theorem State.setUnit_ports (i : Nat) (v : PUnit) : (s.setUnit i v).ports = s.ports := rfl
@[simp] theorem State.setUnit_draws (i : Nat) (v : PUnit) : (s.setUnit i v).draws = s.draws := rfl
@[simp] theorem State.setUnit_power (i : Nat) (v : PUnit) : (s.setUnit i v).power = s.power := rfl
@[simp] theorem State.setUnit_life (i : Nat) (v : PUnit) : (s.setUnit i v).life = s.life := rfl
@[simp] theorem State.setUnit_time (i : Nat) (v : PUnit) : (s.setUnit i v).time = s.time := rfl
@[simp] theorem State.setUnit_anv (i : Nat) (v : PUnit) : (s.setUnit i v).anv = s.anv := rfl

/-! `setLife` -/

@[simp] theorem State.setLife_pending (v : Life) : (s.setLife v).pending = s.pending := rfl
@[simp] theorem State.setLife_sent (v : Life) : (s.setLife v).sent = s.sent := rfl
@[simp] theorem State.setLife_freeCtr (v : Life) : (s.setLife v).freeCtr = s.freeCtr := rfl
@[simp] theorem State.setLife_tick (v : Life) : (s.setLife v).tick = s.tick := rfl
@[simp] theorem State.setLife_regs (v : Life) : (s.setLife v).regs = s.regs := rfl
@[simp] theorem State.setLife_mem (v : Life) : (s.setLife v).mem = s.mem := rfl
@[simp] theorem State.setLife_ports (v : Life) : (s.setLife v).ports = s.ports := rfl
@[simp] theorem State.setLife_draws (v : Life) : (s.setLife v).draws = s.draws := rfl
@[simp] theorem State.setLife_power (v : Life) : (s.setLife v).power = s.power := rfl
@[simp] theorem State.setLife_time (v : Life) : (s.setLife v).time = s.time := rfl
@[simp] theorem State.setLife_anv (v : Life) : (s.setLife v).anv = s.anv := rfl
@[simp] theorem State.setLife_pl (v : Life) : (s.setLife v).pl = s.pl := rfl

/-! `setCmd` -/

@[simp] theorem State.setCmd_pending (d : Nat) (c : Cmd) : (s.setCmd d c).pending = s.pending := rfl
@[simp] theorem State.setCmd_sent (d : Nat) (c : Cmd) : (s.setCmd d c).sent = s.sent := rfl
@[simp] theorem State.setCmd_freeCtr (d : Nat) (c : Cmd) : (s.setCmd d c).freeCtr = s.freeCtr := rfl
@[simp] theorem State.setCmd_tick (d : Nat) (c : Cmd) : (s.setCmd d c).tick = s.tick := rfl
@[simp] theorem State.setCmd_regs (d : Nat) (c : Cmd) : (s.setCmd d c).regs = s.regs := rfl
@[simp] theorem State.setCmd_mem (d : Nat) (c : Cmd) : (s.setCmd d c).mem = s.mem := rfl
@[simp] theorem State.setCmd_ports (d : Nat) (c : Cmd) : (s.setCmd d c).ports = s.ports := rfl
@[simp] theorem State.setCmd_power (d : Nat) (c : Cmd) : (s.setCmd d c).power = s.power := rfl
@[simp] theorem State.setCmd_life (d : Nat) (c : Cmd) : (s.setCmd d c).life = s.life := rfl
@[simp] theorem State.setCmd_time (d : Nat) (c : Cmd) : (s.setCmd d c).time = s.time := rfl
@[simp] theorem State.setCmd_anv (d : Nat) (c : Cmd) : (s.setCmd d c).anv = s.anv := rfl
@[simp] theorem State.setCmd_pl (d : Nat) (c : Cmd) : (s.setCmd d c).pl = s.pl := rfl

/-! `finish` -/

@[simp] theorem State.finish_pending (d : Nat) (c : Cmd) (st : Status) (a b : Nat) : (s.finish d c st a b).pending = s.pending := rfl
@[simp] theorem State.finish_sent (d : Nat) (c : Cmd) (st : Status) (a b : Nat) : (s.finish d c st a b).sent = s.sent := rfl
@[simp] theorem State.finish_freeCtr (d : Nat) (c : Cmd) (st : Status) (a b : Nat) : (s.finish d c st a b).freeCtr = s.freeCtr := rfl
@[simp] theorem State.finish_tick (d : Nat) (c : Cmd) (st : Status) (a b : Nat) : (s.finish d c st a b).tick = s.tick := rfl
@[simp] theorem State.finish_regs (d : Nat) (c : Cmd) (st : Status) (a b : Nat) : (s.finish d c st a b).regs = s.regs := rfl
@[simp] theorem State.finish_mem (d : Nat) (c : Cmd) (st : Status) (a b : Nat) : (s.finish d c st a b).mem = s.mem := rfl
@[simp] theorem State.finish_ports (d : Nat) (c : Cmd) (st : Status) (a b : Nat) : (s.finish d c st a b).ports = s.ports := rfl
@[simp] theorem State.finish_power (d : Nat) (c : Cmd) (st : Status) (a b : Nat) : (s.finish d c st a b).power = s.power := rfl
@[simp] theorem State.finish_life (d : Nat) (c : Cmd) (st : Status) (a b : Nat) : (s.finish d c st a b).life = s.life := rfl
@[simp] theorem State.finish_time (d : Nat) (c : Cmd) (st : Status) (a b : Nat) : (s.finish d c st a b).time = s.time := rfl
@[simp] theorem State.finish_anv (d : Nat) (c : Cmd) (st : Status) (a b : Nat) : (s.finish d c st a b).anv = s.anv := rfl
@[simp] theorem State.finish_pl (d : Nat) (c : Cmd) (st : Status) (a b : Nat) : (s.finish d c st a b).pl = s.pl := rfl

@[simp] theorem State.setLife_life (v : Life) : (s.setLife v).life = v := rfl

end Sys2Proof.Machine
end

