-- ==== Sys2Proof/Machine/Flags.lean ====
section
/-!
DEFINITION. What the block shows on its flag outputs: the interrupt lines (R335) and THROTTLE_REQ (R304, R315).
-/

namespace Sys2Proof.Machine

/-- Bit `k` of MW_IRQ_CAUSE (Table 14-7), with the live DRAWER bits. -/
def State.cause (s : State) (k : Nat) : Bool := bitOf (s.view .MW_IRQ_CAUSE 0) k

/-- R315, R335: lines are held low until power-up step 2 ends. -/
def State.irqLive (s : State) : Bool := s.life.porstN && s.lc != lcPll && s.lc != lcBoot

/-- MW_IRQ line `k` (R335): lines 0 to 11 follow cause and mask, 12 to 14 are low, 15 is their summary. -/
def State.irqLine (s : State) (k : Nat) : Bool :=
  s.irqLive &&
    if k < 12 then s.cause k && s.bit F.MW_IRQ_MASK_ENABLE 0 k
    else k == 15 && (List.range 12).any fun j => s.cause j && s.bit F.MW_IRQ_MASK_ENABLE 0 j

/-- THROTTLE_REQ[3:0]. -/
def State.throttleReq (s : State) : Nat := s.throttle

end Sys2Proof.Machine
end

