-- ==== Sys2Proof/Tests/Base.lean ====
section
/-!
SUPPORT. Small states and operands for the tests, and lemmas that turn a statement's hypotheses into something Lean's
kernel can evaluate.
-/

namespace Sys2Proof.Tests

open Sys2Proof Sys2Proof.Machine

/-! ## States -/

/-- Write register fields. -/
def puts (s : State) (l : List (Fld × Nat × Nat)) : State := l.foldl (fun s e => s.put e.1 e.2.1 e.2.2) s

/-- A block in service: four used sites of 24 GiB with all their channels and Anvils, everything else as at reset. -/
def up : State :=
  { State.reset with
    regs := [(Reg.offset .MW_CONFIG 0, 0x030000333300000f#64), (Reg.offset .PW_CLK_STAT 0, 0x103#64),
        (Reg.offset .LC_STAT 0, 9#64)] ++
      ((List.range 64).map fun k => (Reg.offset .AV_ENG k, 1#64)) ++
      (List.range 128).map fun n => (Reg.offset .CE_STATE n, 0)
    life := { Life.reset with
      porstN := true
      wrstN := true
      pwrFailN := true
      coolantOk := true
      bureauDone := true
      firstTemp := true } }
theorem up_fields : up.flag F.PW_CLK_STAT_PLL_LOCK 0 = true ∧ up.flag F.PW_CLK_STAT_FUSE_DONE 0 = true ∧
    up.fld F.LC_STAT_STATE 0 = lcReleased ∧ up.fld F.MW_CONFIG_SITES_POPULATED 0 = 15 ∧
    up.fld F.MW_CONFIG_SITE_CAP 0 = 0x3333 ∧ up.fld F.MW_CONFIG_MEND_SITES 0 = 3 := by decide +kernel

/-- The state with another LC_STAT.STATE, with the fields given. -/
def at_ (lc : Nat) (l : List (Fld × Nat × Nat)) : State := puts (up.put F.LC_STAT_STATE 0 lc) l
def onLife (f : Life → Life) (s : State) : State := { s with life := f s.life }
def onPower (f : Power → Power) (s : State) : State := { s with power := f s.power }
def onTime (f : Time → Time) (s : State) : State := { s with time := f s.time }
def onDrawer (d : Nat) (f : Drawer → Drawer) (s : State) : State := s.setDrawer d (f (s.drawer d))
def onPort (p : Nat) (f : Port → Port) (s : State) : State := s.setPort p (f (s.port p))
def onChan (n : Nat) (f : Chan → Chan) (s : State) : State := s.setChan n (f (s.chan n))

/-- The state after a command; reset where there is none. -/
def after (c : Instr) (s : State) : State := match exec c s with
  | .next t => t
  | _ => .reset

/-! ## Operands -/

/-- A started command at position 9. -/
def cmd (o : Op) (ws : List Nat) : Cmd :=
  { pos := 9, words := (0x77#32 ++ BitVec.ofNat 32 o.code) :: ws.map (BitVec.ofNat 64), phase := .started, status := .ok,
    detail := 0, result := 0, late := false, order := 5, seed := 0, armedClose := false, lostEntry := false, holds := [],
    portStatus := none, soft := .ok, grants := 0, gone := false, lostRing := false, queuedOn := [] }

/-- A command that started with PA_CFG of its partition as given. -/
def granting (l : List (Fld × Nat × Nat)) (d : Nat) (c : Cmd) : Cmd := { c with grants := (puts up l).reg .PA_CFG d }

/-- The state with one more started command. -/
def withCmd (d : Nat) (c : Cmd) (s : State) : State := onDrawer d (fun x => { x with cmds := x.cmds ++ [c] }) s

/-- A sector of the words given, the rest 0. -/
def sec (ws : List Nat) : SectorBits := ofWords (((ws ++ List.replicate 8 0).take 8).map (BitVec.ofNat 64))

/-- A slice holds a sector, clean. -/
def hold (a : Nat) (x : SectorBits) (s : State) : State := match s.locate a with
  | some l => (s.slicePut l ⟨mkSec x, false⟩ 0).getD s
  | none => s
def holdAll (a : Nat) (xs : List SectorBits) (s : State) : State :=
  xs.zipIdx.foldl (fun s e => hold (a + 64 * e.2) e.1 s) s

/-- The array holds a sector with its check bytes. -/
def stored (a : Nat) (xs : List SectorBits) (s : State) : State :=
  xs.zipIdx.foldl (fun s e => match s.locate (a + 64 * e.2) with
    | some l => s.writeEncoded l e.1
    | none => s) s

/-- Drawer `d` alone is enabled, with rings of 32 entries at 0x3000 and 0x4000, SQ_HEAD 3 and SQ_TAIL 6. -/
def rings (d : Nat) (s : State) : State :=
  puts s [(F.DR_CTL_ENABLE, d, 1), (F.PA_CFG_ENABLE, d, 1), (F.DR_SQ_BASE_SQ_LOG2, d, 5), (F.DR_CQ_BASE_CQ_LOG2, d, 5),
    (F.DR_SQ_BASE_SQ_BASE, d, 3), (F.DR_CQ_BASE_CQ_BASE, d, 4), (F.DR_DB_SQ_TAIL, d, 6), (F.DR_STAT_SQ_HEAD, d, 3)]

/-- The words of a sector. -/
def words (x : SectorBits) : List Word := (List.range 8).map (sectorWord x)

/-- Two words of a tile descriptor, unscaled. -/
def tileWords (base fmt rows cols pitch : Nat) : List Nat := [base + fmt * 2 ^ 44, rows + cols * 2 ^ 32, pitch, 0]
def tile (base fmt rows cols pitch : Nat) : Tile := tileOf ((tileWords base fmt rows cols pitch).map (BitVec.ofNat 64))

/-- A request of partition 2 under tag 7. -/
def hdr (k : ReqType) (part a len : Nat) (f : ReqHdr → ReqHdr := id) : ReqHdr :=
  let h := f ⟨7, BitVec.ofNat 6 part, 1, BitVec.ofNat 44 a, BitVec.ofNat 5 (len - 1), 4, 0, 0, 0, 0, 0, 0⟩
  { h with hcrc := hcrcOf (h.low k.code) }
def inSec (x : SectorBits) : InSector := ⟨x, hallmark x, false⟩
def req (k : ReqType) (part a len : Nat) (xs : List SectorBits) (f : ReqHdr → ReqHdr := id) : PortReq :=
  ⟨hdr k part a len f, xs.map inSec⟩

/-- The credits of a port that two partitions share, granted whole. -/
def granted : Port :=
  { Port.empty with
    accounts := [(1, ⟨⟨448, 1792⟩, ⟨448, 1792⟩⟩), (5, ⟨⟨448, 1792⟩, ⟨448, 1792⟩⟩)]
    sizes := [(0, ⟨128, 512⟩), (1, ⟨896, 3584⟩)]
    pools := [(0, ⟨128, 512⟩)] }

/-- `up` with port 3 granted and open to partitions 0 and 2, and granule 0 of partition 2. -/
def ported : State :=
  { puts up [(F.PA_CFG_ENABLE, 0, 1), (F.PA_CFG_ENABLE, 2, 1), (F.PA_PORTS_PORT_MASK, 2, 0xFFFFFFFF), (F.RG_GRAN_OWNER, 0, 2)] with
    ports := { Ports.reset with port := [(3, granted)] } }

/-- A management packet with its CRC. -/
def mgt (kind : BitVec 4) (bid offset : Nat) (lo hi : Nat) : MgtPkt :=
  mgtSeal kind ⟨BitVec.ofNat 6 bid, 5, 0, BitVec.ofNat 24 offset, 0, BitVec.ofNat 32 lo, BitVec.ofNat 32 hi, 0⟩

/-- A fuse image with its CRC. -/
def fuseImage (k : Nat) : List (BitVec 32) :=
  let ws := (List.range 63).map fun i => BitVec.ofNat 32 (i * 77777 + k)
  ws ++ [crc32 (ws.flatMap fun w => bytesOf 4 w)]

/-- A Bureau bank. -/
def bank (seq : Nat) (shut : Bool) (retired : Nat) : List Byte :=
  let b := ({ Bureau.empty with retired := BitVec.ofNat 256 retired } : Bureau).encode
  BankHead.seal ⟨seq, b.length, shut, 77, 5, 0x900, 1, 2, 3⟩ b ++ b

/-- An RSP header with STATUS 0 under a tag. -/
def rspHdr (tag : Nat) : RspHdr :=
  let h : RspHdr := ⟨BitVec.ofNat 10 tag, 2, 1, 0, 0, 0⟩
  { h with hcrc := hcrcOf h.low }

/-! ## Buckets -/

/-- A bucket of 70 elements at 0x60800, opened by the command in Drawer 2. -/
def bkt (st : BState) : Bucket :=
  { openBucket (cmd .bucketOpen [0x60800 + 2 ^ 44 * 100 + 2 ^ 52 * 90, 70 + 2 ^ 21 * 3 + 2 ^ 37 * 2, 0]) 2 7 [] with
    st := st
    arrived := 5 }
def accBucket : Bucket :=
  { openBucket (cmd .bucketOpen [0x60800 + 2 ^ 44 * 100 + 2 ^ 52 * 90, 70 + 2 ^ 21 * 3, 0]) 2 7 [] with arrived := 5 }
def withBucket (b : Bucket) (s : State) : State := { s with draws := { s.draws with buckets := s.draws.buckets ++ [b] } }

/-! ## A kernel of three bundles and a run of one entry -/

def le (n k : Nat) : List Byte := bytesOf n (BitVec.ofNat (8 * n) k)

/-- The image: two body bundles of a load and a store, and an end. -/
def image : List Byte :=
  le 2 0x300 ++ le 2 3 ++ le 2 2 ++ le 1 0 ++ le 1 1 ++ le 1 1 ++ le 1 1 ++ le 2 0 ++ le 52 0 ++ le 256 0 ++
    le 16 (2 ^ 28 + 2 ^ 19) ++ le 16 (2 * 2 ^ 28 + 2 ^ 14) ++ le 16 (8 * 2 ^ 28)
def runWords : List Nat := [0x40000 + 2 ^ 44 * 1 + 2 ^ 57 * 5, 0x50000 + 2 ^ 44 * 1, 0]
def runState : State :=
  (puts ((holdAll 0x40000 (sectorsOf ((List.replicate 8 0 ++ tileWords 0x20000 0 2 8 64 ++ tileWords 0x30000 0 2 8 64).map
    (BitVec.ofNat 64))) (hold 0x50000 0 up)).setKernel 5 (some (kernelOf image)))
    [(F.PA_CFG_KGRANT, 2, 2 ^ 5), (F.RG_GRAN_OWNER, 0, 2)])
def theEntry : Entry := entryOf (kernelOf image) false false
  ((List.replicate 8 0 ++ tileWords 0x20000 0 2 8 64 ++ tileWords 0x30000 0 2 8 64).flatMap (le 8))
def updateCmd : Cmd := granting [(F.PA_CFG_KGRANT, 2, 2 ^ 5)] 2 (cmd .update runWords)
def theRun : Run := match ((withCmd 2 updateCmd runState).smithCheck 2 .update updateCmd).1 with
  | .run r => r
  | .refused _ _ => ⟨0, 0, 0, false, false, false, false, 0, 0, 0, [], 0⟩
def running (r : Run) (s : State) : State :=
  let s := withCmd 2 { updateCmd with phase := .running } s
  { s with anv := { s.anv with runs := [r] } }

/-- The kernel of `image`, the run of `runWords` and its one entry after the start, written out. -/
def bodyKernel : Kernel := ⟨0, 2, 1, 1, 1, [0, 0], [2 ^ 28 + 2 ^ 19, 2 * 2 ^ 28 + 2 ^ 14, 8 * 2 ^ 28]⟩
def rowTile (base : Nat) : Tile := ⟨base, 0, false, 0, 0, 0, false, false, 0, false, 2, 8, 64, 0, 0, 0, false⟩
def bodyEntry : Entry where
  head := List.replicate 8 0
  ins := [(0, rowTile 0x20000)]
  outs := [(0, rowTile 0x30000)]
  emit := none
  stray := false
  st := .running
  scalars := List.replicate 16 0
  left := 1
  status := .ok
  ssq := []
  sat := 0
  faultLanes := 0
  hist := []
  caps := []
  stored := []
def bodyRun : Run := ⟨2, 9, 5, false, false, false, false, 0x50000, 0, 0, [bodyEntry], 1⟩

/-- The entry runs on Anvil 0, which is in the body; its input is in the slices. -/
def bodyData (a : Nat) : SectorBits := if a = 0x20000 then sec [1, 2, 0x3f80000040800000, 4] else sec [9, 10]
def bodyState : State :=
  let s := withCmd 2 { cmd .update runWords with phase := .running } up
  holdAll 0x20000 [bodyData 0x20000, bodyData 0x20040]
    { s with anv := ⟨[(0, ⟨[], [], [], 0, some ⟨2, 9, .body, 0, 0, 0, [⟨0, 0⟩]⟩, [], [], []⟩)], [(5, some bodyKernel)], [bodyRun]⟩ }
def bodyTarget : Target := ⟨bodyRun, 0, bodyEntry, 0, 16, 64⟩
def bodySite : Site := ⟨some 32, 0, some (List.replicate 16 0), some bodyTarget⟩
def slot (fmt dst a b c m : Nat) : SlotWord :=
  ⟨false, BitVec.ofNat 4 fmt, BitVec.ofNat 5 dst, BitVec.ofNat 5 a, BitVec.ofNat 5 b, BitVec.ofNat 5 c, BitVec.ofNat 4 m⟩
def issue (w : SlotWord) : Issue := ⟨5, .preamble, w⟩
def idleSite : Site := ⟨none, 0, none, none⟩
def inBody (w : SlotWord) : Issue := ⟨0, .body 0, w⟩

/-- The stream unit has fetched the group of that iteration, or its channel is in reset with the group nowhere. -/
def theGroup : Fetched := ⟨0, 0, 0, List.replicate 16 (.dy ⟨3, 1⟩), .ok⟩
def fetchedState : State := bodyState.setAnvil 0 { bodyState.anvil 0 with fetched := [theGroup] }
def starvedState : State := { bodyState with mem := up.mem }.put F.CE_STATE_STATE ((bodyState.locate 0x20000).getD ⟨0, 0⟩).n 1

/-! ## Memory -/

/-- Descriptors of a copy of two rows. -/
def twoTiles : SectorBits := sec (tileWords 0x2000 0 2 16 64 ++ tileWords 0x3000 0 2 16 64)
def sampling : Sampling := (samplingOf (cmd .sample [0, 2 + 16 * 2 ^ 32, 0x3f800000 + 0x3f000000 * 2 ^ 32, 3 + 4 * 2 ^ 32,
  5 + 7 * 2 ^ 32, 2 ^ 49 + 3 * 2 ^ 44, 64])).getD ⟨.df32, 0, 0, 0, .fault, .zero, 0, 0, 0, 0, 0⟩

/-- A read of a Guarded sector waits for DRAM. -/
def readDesc : Desc := ⟨⟨3, 5, .rd, req .rd 2 0x1000 1 [], false, false⟩, [0]⟩
def waitingRead : State := onChan 64 (fun x => { x with retry := [readDesc] })
  (stored 0x1000 [sec [0x123456789, 5]] (ported.put F.RG_GRAN_CLASS 0 1))

/-- Mend unit 31 holds a whole row. -/
def wholeRow : MendRow := ⟨2, 5, (List.range 96).map fun i => (i, some (mkSec 77))⟩
def mendState : State := (puts up [(F.RG_GRAN_CLASS, 0, 2), (F.RG_GRAN_CLASS, 1, 2), (F.RG_GRAN_CLASS, 2, 2),
  (F.RG_GRAN_CLASS, 3, 2)]).setMend 31 { up.mend 31 with rows := [wholeRow] }
theorem wholeRow_good : ∀ i < 32 * (mendState.mendN - 1), ∀ x, Tab.get (fun _ => none) wholeRow.secs i = some x →
    x.good = true ∧ x.fault = false := by
  have k : ∀ i < 96, (match Tab.get (fun _ => none) wholeRow.secs i with
    | some x => x.good && !x.fault
    | none => true) = true := by decide +kernel
  have e : mendState.mendN = 4 := by decide +kernel
  rw [e]
  intro i hi x h
  have k := k i hi
  rw [h] at k
  simpa using k

/-- The Chest of Drawer 3 holds one extent, and an OFFLOAD_ACT of two kilobytes waits to be done. -/
def chestUp : State := withCmd 3 (cmd .offloadAct [0x75, 2]) (up.setChest 3 ⟨8192, 20480, [⟨8192, 4096, 0, 0⟩]⟩)
theorem chestUp_chest : chestUp.chest 3 = ⟨8192, 20480, [⟨8192, 4096, 0, 0⟩]⟩ := by decide +kernel
theorem chestUp_lowest : ∀ b, (chestUp.chest 3).base ≤ b →
    b + (cmd .offloadAct [0x75, 2]).arg 2 0 24 * 2048 ≤ (chestUp.chest 3).base + (chestUp.chest 3).size →
    (∀ e ∈ (chestUp.chest 3).live, b + (cmd .offloadAct [0x75, 2]).arg 2 0 24 * 2048 ≤ e.addr ∨ e.addr + e.size ≤ b) →
    12288 ≤ b := by
  have e : (cmd .offloadAct [0x75, 2]).arg 2 0 24 = 2 := by decide +kernel
  rw [chestUp_chest, e]
  intro b h1 h2 h3
  have h4 := h3 ⟨8192, 4096, 0, 0⟩ (by simp)
  simp only at h1 h4
  omega

/-- A REGION_SET of granule 0 to class Guarded with INIT. -/
def regionCmd : Cmd := cmd .regionSet [2 ^ 10 + 2 ^ 20 + 2 ^ 28]
def regionState : State := withCmd 0 regionCmd up

/-- The block has used 10^14 fJ in an interval of a window of one millisecond. -/
def governed : State := onPower (fun p => { p with energy := [(0, 10 ^ 14)] }) (puts up [(F.PW_GOV_CFG_WINDOW, 0, 1), (F.PW_GOV_CFG_CAP, 0, 10)])

/-- All of site 0 is retired but channel engine 5, whose admission is overdue. -/
def lateSite : State := { onChan 5 (fun x => { x with cause := some 33, resetAt := some 0, selfRefresh := true })
  (puts up (((List.range 32).map fun n => (F.CE_STATE_STATE, n, 3)) ++ [(F.CE_STATE_STATE, 5, 1)])) with tick := 1600000000 }

/-- A REBUILD of all of channel engine 35, which is retired. -/
def rebuildCmd : Cmd := cmd .rebuild [1 + 3 * 8 + 256, 0, 0, 0x3000]
def rebuildState : State := withCmd 0 rebuildCmd (up.put F.CE_STATE_STATE 35 3)

/-- The bank group of sector 3 of burst 9 of channel engine 7. -/
def opBg : Fin 8 := Fin.ofNat 8 ((up.put F.RG_GRAN_CLASS 0 0).bankOf ⟨7, 32 * 9 + 3⟩)

/-! ## Hypotheses that no evaluation decides -/

theorem no_requests {s : State} (h : s.ports.waits = []) (hc : s.mem.chans = []) : s.noRequests := by
  refine ⟨h, fun n => ?_⟩
  simp only [State.chan, hc]
  rfl

theorem no_retry {s : State} (hc : s.mem.chans = []) : ∀ n, (s.chan n).retry = [] := by
  intro n
  simp only [State.chan, hc]
  rfl

theorem no_lost {s : State} (h : s.pl = []) : ∀ u, (s.unit u).lost = false := by
  intro u
  simp only [State.unit, h]
  rfl

theorem no_dirty {s : State} (hc : s.mem.slices = []) : ∀ n, (s.slice n).dirtyBursts = [] := by
  intro n
  simp only [State.slice, hc]
  rfl

/-- What holds of the value there holds of every value there. -/
theorem of_there {α : Type} {o : Option α} {P : α → Prop} {x : α} (h : o = some x) (hx : P x) : ∀ y, o = some y → P y := by
  intro y e
  rw [h] at e
  cases e
  exact hx

theorem of_none {α : Type} {o : Option α} {P : α → Prop} (h : o = none) : ∀ y, o = some y → P y := by
  intro y e
  rw [h] at e
  cases e

theorem cached_of {s : State} {a : Nat} {ds : List SectorBits}
    (h : ∀ i < ds.length, ((s.locate (a + 64 * i)).bind fun l => (s.sliceHas l).map (·.sec)) = some (mkSec (ds.getD i 0))) :
    s.cached a ds := by
  intro i hi
  have h := h i hi
  cases e : s.locate (a + 64 * i) with
  | none => simp [e] at h
  | some l => exact ⟨l, rfl, by simpa [e] using h⟩

theorem bodyState_cached : ∀ p < bodyTarget.act, ∀ a,
    a = (rowTile 0x20000).wordAddr ((rowTile 0x20000).at_ (bodyTarget.lo + p)) / 64 * 64 → bodyState.cached a [bodyData a] := by
  have k : ∀ p < 16, (rowTile 0x20000).wordAddr ((rowTile 0x20000).at_ (bodyTarget.lo + p)) / 64 * 64 = 0x20000 ∨
      (rowTile 0x20000).wordAddr ((rowTile 0x20000).at_ (bodyTarget.lo + p)) / 64 * 64 = 0x20040 := by decide +kernel
  intro p hp a ha
  rcases k p hp with e | e
  · rw [ha, e]
    exact cached_of (by decide +kernel)
  · rw [ha, e]
    exact cached_of (by decide +kernel)

/-- Every sector of a range has room in its slice, by evaluation. -/
theorem rooms_of {s : State} {a n : Nat}
    (h : ∀ i < n, (match s.locate (a + 64 * i) with
      | some l => s.chanState l.n == 0 && ((s.slice l.n).lines.any (fun y => y.unit == l.k / 8) ||
          decide (((s.slice l.n).lines.filter fun y => y.set == l.k / 8 % 64).length < s.ways))
      | none => true) = true) :
    ∀ i < n, ∀ l, s.locate (a + 64 * i) = some l → s.chanState l.n = 0 ∧ s.hasRoom l := by
  intro i hi l e
  have h := h i hi
  rw [e] at h
  simp only [Bool.and_eq_true, Bool.or_eq_true, decide_eq_true_eq, beq_iff_eq] at h
  exact h

/-- The slices that hold lines are listed, so a check of the listed ones is a check of all. -/
theorem all_slices {s : State} {P : Nat → Slice → Prop} (hd : ∀ n, P n .empty)
    (h : ∀ n ∈ Tab.keys s.mem.slices, P n (s.slice n)) : ∀ n, P n (s.slice n) := by
  intro n
  by_cases hn : n ∈ Tab.keys s.mem.slices
  · exact h n hn
  · have e : s.slice n = .empty := by
      simp only [State.slice]
      generalize s.mem.slices = t at hn
      induction t with
      | nil => rfl
      | cons x t ih =>
        obtain ⟨j, v⟩ := x
        simp only [Tab.keys, List.map_cons, List.mem_cons, not_or] at hn
        simp only [Tab.get, if_neg hn.1]
        exact ih hn.2
    rw [e]
    exact hd n

/-- What a register's field reads, by a look at the registers that do not hold their reset value. -/
theorem fld_of {s : State} {f : Fld} {n : Nat} {P : Nat → Prop} (hd : P (Fld.of f (f.reg.resetWord n)))
    (h : ∀ e ∈ s.regs, e.1 = f.reg.offset n → P (Fld.of f e.2)) : P (s.fld f n) := by
  show P (Fld.of f (Tab.get (fun _ => f.reg.resetWord n) s.regs (f.reg.offset n)))
  generalize s.regs = t at h
  induction t with
  | nil => exact hd
  | cons x t ih =>
    obtain ⟨j, v⟩ := x
    simp only [Tab.get]
    split
    · rename_i e
      exact h (j, v) (by simp) e.symm
    · exact ih fun e he => h e (by simp [he])

/-- Is every channel engine in service or absent, with no stack in self-refresh and no bank group in Planisher mode, by a look at what does
not stand as at reset? -/
def served (s : State) : Bool :=
  (s.regs.all fun e => e.1 < 0x100000 || 0x140000 ≤ e.1 ||
    (e.1 % 0x400 != 0 || (Fld.of F.CE_STATE_STATE e.2 == 0 || Fld.of F.CE_STATE_STATE e.2 == 4)) &&
      (e.1 % 0x400 != 0x200 || Fld.of F.CE_PL_STAT_BG_MODE e.2 == 0)) && s.mem.chans.all fun e => !e.2.selfRefresh
theorem served_of {s : State} (h : served s = true) : s.allServed := by
  simp only [served, Bool.and_eq_true, List.all_eq_true] at h
  obtain ⟨hr, hc⟩ := h
  intro n hn
  have d : ∀ n < 256, (Fld.of F.CE_STATE_STATE (Reg.CE_STATE.resetWord n) = 0 ∨ Fld.of F.CE_STATE_STATE (Reg.CE_STATE.resetWord n) = 4) ∧
      Fld.of F.CE_PL_STAT_BG_MODE (Reg.CE_PL_STAT.resetWord n) = 0 := by
    decide +kernel
  have o : Reg.CE_STATE.offset n = 0x100000 + 0x400 * n := rfl
  have p : Reg.CE_PL_STAT.offset n = 0x100200 + 0x400 * n := rfl
  refine ⟨fld_of (f := F.CE_STATE_STATE) (P := fun v => v = 0 ∨ v = 4) (d n hn).1 fun e he k => ?_, ?_,
    fld_of (f := F.CE_PL_STAT_BG_MODE) (P := fun v => v = 0) (d n hn).2 fun e he k => ?_⟩
  · have k : e.1 = 0x100000 + 0x400 * n := k
    have h := hr e he
    simp only [Bool.or_eq_true, Bool.and_eq_true, decide_eq_true_eq, bne_iff_ne, beq_iff_eq] at h
    omega
  · simp only [State.chan]
    generalize s.mem.chans = t at hc
    induction t with
    | nil => rfl
    | cons x t ih =>
      obtain ⟨j, v⟩ := x
      simp only [Tab.get]
      split
      · simpa using hc (j, v) (by simp)
      · exact ih fun e he => hc e (by simp [he])
  · have k : e.1 = 0x100200 + 0x400 * n := k
    have h := hr e he
    simp only [Bool.or_eq_true, Bool.and_eq_true, decide_eq_true_eq, bne_iff_ne, beq_iff_eq] at h
    omega

theorem touches_of {s : State} (h : s.allServed) (a n : Nat) : s.touchesRetired a n = false := by
  have k : (List.range 256).any (fun n => s.chanState n == 3) = false := by
    rw [List.any_eq_false]
    intro n hn
    have h := (h n (by simpa using hn)).1
    simp only [beq_iff_eq]
    omega
  simp only [State.touchesRetired, k, Bool.false_and]

theorem ready_of {s : State} (h : s.allServed) (a n : Nat) : s.rangeReady a n = true := by
  have k : (List.range 256).all (fun n => !s.recovering n && s.fld F.CE_PL_STAT_BG_MODE n == 0) = true := by
    rw [List.all_eq_true]
    intro n hn
    obtain ⟨h, -, h0⟩ := h n (by simpa using hn)
    simp only [State.recovering, h0, Bool.and_eq_true, Bool.not_eq_true', Bool.or_eq_false_iff, beq_eq_false_iff_ne, beq_self_eq_true, and_true]
    omega
  simp only [State.rangeReady, k, Bool.true_or]

theorem ring_of {s : State} (h : s.allServed) (d : Nat) : s.ringRetired d = false := by
  simp only [State.ringRetired, touches_of h, Bool.or_false]

/-- No command holds a range. -/
theorem held_of {s : State} (h : (s.anyCmd fun _ c => !c.holds.isEmpty) = false) (a n : Nat) : s.rangeHeld a n = false := by
  simp only [State.rangeHeld, State.anyCmd, List.any_eq_false, Bool.not_eq_true, Bool.not_eq_false', List.isEmpty_iff] at h ⊢
  intro e he c hc
  simp [h e he c hc]

theorem list_of {s : State} (h : s.allServed) (hh : (s.anyCmd fun _ c => !c.holds.isEmpty) = false) (o : Op) (c : Cmd) :
    s.listReady o c = true := by
  unfold State.listReady
  split
  · simp [State.rangesFree, ready_of h, held_of hh]
  · rfl

/-- No granule is Mended, by a look at the registers that do not hold their reset value. -/
theorem unmended_of {s : State}
    (h : (s.regs.all fun e => e.1 < Reg.RG_GRAN.offset 0 || Reg.RG_GRAN.offset 768 ≤ e.1 ||
      Fld.of F.RG_GRAN_CLASS e.2 != 2) = true) : ∀ m < 768, s.granClass m ≠ 2 := by
  intro n hn
  have d : ∀ n < 768, Fld.of F.RG_GRAN_CLASS (Reg.RG_GRAN.resetWord n) ≠ 2 := by decide +kernel
  have lo : ∀ n < 768, Reg.RG_GRAN.offset 0 ≤ Reg.RG_GRAN.offset n ∧ Reg.RG_GRAN.offset n < Reg.RG_GRAN.offset 768 := by
    decide +kernel
  show Fld.of F.RG_GRAN_CLASS (Tab.get (fun _ => Reg.RG_GRAN.resetWord n) s.regs (Reg.RG_GRAN.offset n)) ≠ 2
  generalize s.regs = t at h
  induction t with
  | nil => exact d n hn
  | cons x t ih =>
    obtain ⟨j, v⟩ := x
    simp only [List.all_cons, Bool.and_eq_true] at h
    simp only [Tab.get]
    split
    · rename_i e
      have h := h.1
      have := lo n hn
      simp only [Bool.or_eq_true, decide_eq_true_eq, bne_iff_ne] at h
      omega
    · exact ih h.2

/-- No channel has a waiting request, by evaluation of the listed ones. -/
theorem no_requests_listed {s : State} (h : s.ports.waits = []) (hc : ∀ n ∈ Tab.keys s.mem.chans, (s.chan n).retry = []) :
    s.noRequests := by
  refine ⟨h, fun n => ?_⟩
  by_cases hn : n ∈ Tab.keys s.mem.chans
  · exact hc n hn
  · simp only [State.chan]
    generalize s.mem.chans = t at hn
    induction t with
    | nil => rfl
    | cons x t ih =>
      obtain ⟨j, v⟩ := x
      simp only [Tab.keys, List.map_cons, List.mem_cons, not_or] at hn
      simp only [Tab.get, if_neg hn.1]
      exact ih hn.2

/-- No other channel has a waiting request, by evaluation of the listed ones. -/
theorem others_idle {s : State} {n : Nat} (h : ∀ k ∈ Tab.keys s.mem.chans, k ≠ n → (s.chan k).retry = []) :
    ∀ m, m ≠ n → (s.chan m).retry = [] := by
  intro m hm
  by_cases k : m ∈ Tab.keys s.mem.chans
  · exact h m k hm
  · simp only [State.chan]
    generalize s.mem.chans = t at k
    induction t with
    | nil => rfl
    | cons x t ih =>
      obtain ⟨j, v⟩ := x
      simp only [Tab.keys, List.map_cons, List.mem_cons, not_or] at k
      simp only [Tab.get, if_neg k.1]
      exact ih k.2

theorem waitingRead_one : waitingRead.oneRead 64 readDesc ⟨64, 0⟩ := by
  unfold State.oneRead
  iterate 23 refine ⟨by decide +kernel, ?_⟩
  exact others_idle (by decide +kernel)

/-- Every sector of a range is a sound Guarded one, by evaluation. -/
theorem clean_of {s : State} {a n : Nat}
    (h : ∀ i < n, s.granClass ((a + 64 * i) / gib) = 1 ∧ (match s.locate (a + 64 * i) with
      | some x => s.chanState x.n == 0 && !s.locMended x && !isPoisoned (s.rawSector x) (s.rawChecks x) &&
          (List.range 8).all fun k => syndrome (sectorWord (s.rawSector x) k) ((s.rawChecks x).getD k 0) == 0
      | none => true) = true) :
    ∀ i < n, s.granClass ((a + 64 * i) / gib) = 1 ∧ ∀ x, s.locate (a + 64 * i) = some x → s.chanState x.n = 0 ∧
      s.locMended x = false ∧ isPoisoned (s.rawSector x) (s.rawChecks x) = false ∧
      ∀ k < 8, syndrome (sectorWord (s.rawSector x) k) ((s.rawChecks x).getD k 0) = 0 := by
  intro i hi
  obtain ⟨c, h⟩ := h i hi
  refine ⟨c, fun x e => ?_⟩
  rw [e] at h
  simp only [Bool.and_eq_true, beq_iff_eq, Bool.not_eq_true', List.all_eq_true, List.mem_range] at h
  exact ⟨h.1.1.1, h.1.1.2, h.1.2, h.2⟩

/-- The lines of every slice fit, by evaluation. -/
theorem fits_of {s : State}
    (h : ∀ n ∈ Tab.keys s.mem.slices, ((s.slice n).lines.map Line.unit).Nodup ∧ ∀ y ∈ (s.slice n).lines,
      n < 256 ∧ y.unit < 2 ^ 23 ∧ Tab.wf (fun _ => none) y.secs = true ∧ ∀ e ∈ y.secs, e.1 < 8) : s.linesFit :=
  all_slices (P := fun n x => (x.lines.map Line.unit).Nodup ∧ ∀ y ∈ x.lines, n < 256 ∧ y.unit < 2 ^ 23 ∧
    Tab.wf (fun _ => none) y.secs = true ∧ ∀ e ∈ y.secs, e.1 < 8) (fun n => by simp [Slice.empty]) h

/-- What the slices hold is sound, by evaluation. -/
theorem sound_of {s : State}
    (h : ∀ n ∈ Tab.keys s.mem.slices, ((s.slice n).lines.map Line.unit).Nodup ∧ ∀ y ∈ (s.slice n).lines,
      n < 256 ∧ y.unit < 2 ^ 23 ∧ Tab.wf (fun _ => none) y.secs = true ∧ ∀ e ∈ y.secs, e.1 < 8)
    (hs : ∀ n ∈ Tab.keys s.mem.slices, ((s.slice n).store = [] ∧ (s.slice n).late = []) ∧ ∀ y ∈ (s.slice n).lines, ∀ e ∈ y.heldSecs,
      e.2.sec.good = true ∧ e.2.sec.fault = false)
    (hu : s.mem.upsets = []) : s.sound := by
  have ha := all_slices (s := s) (P := fun _ x => (x.store = [] ∧ x.late = []) ∧ ∀ y ∈ x.lines, ∀ e ∈ y.heldSecs,
    e.2.sec.good = true ∧ e.2.sec.fault = false) (fun n => by simp [Slice.empty]) hs
  exact ⟨fits_of h, fun n => (ha n).2, fun n => (ha n).1, hu⟩

end Sys2Proof.Tests
end

