-- ==== Sys2Proof/WellFormed.lean ====
section
/-!
DEFINITION. Which commands name something the block has: numbers in range, and lists of the length that the row's
rule gives them.  `exec` is total on every command, well formed or not.
-/

namespace Sys2Proof

/-- A port request: at most 40 sectors follow a header (R165), and they are as many as its header says (R170). -/
def PortReq.wf (r : PortReq) (sectors : Nat) : Bool := r.sectors.length == sectors

/-- R63: a slot word in slots C and D has no SB. -/
def Issue.wf (x : Issue) : Bool := decide (x.anvil < 128)

/-- Is a list of channels or sites in range? -/
def allBelow (l : List Nat) (n : Nat) : Bool := l.all fun x => decide (x < n)

/-- Well-formedness of a command. -/
def Instr.wf : Instr → Bool
  | .porstNFall | .coldPowerUp | .pllLock | .pllLockLoss | .boot _ => true
  | .fuse a b v => a.length == 64 && b.length == 64 && v.monitors.length == 64
  | .stageSegment _ => true
  | .stageAbort d _ => decide (d < 9)
  | .bureauRead _ _ _ _ => true
  | .identityRead l => l.length == 8
  | .powerUpWaitEnd => true
  | .training l => allBelow l 256
  | .bist l _ p => allBelow l 256 && allBelow p 128
  | .fill | .portRelease | .wrstNFall | .wrstDrainDone | .wrstNRise => true
  | .warmStart t b _ p => allBelow t 256 && allBelow b 256 && allBelow p 128
  | .pwrFailNFall | .pfDrainDone | .pfHeaderWritten | .pwrFailNRise => true
  | .coolantOkFall | .coolantStopped | .coolantOkRise | .coolantResume => true
  | .droopDetect m _ => decide (m < 64)
  | .stretchEnd => true
  | .lineClassify l m => l.length == 8 && m.length == 64
  | .governorInterval => true
  | .stackTempRead l => l.length == 8
  | .refresh n pc bg => decide (n < 256 ∧ pc < 2 ∧ bg < 4)
  | .targetOp _ _ | .opSwitch => true
  | .nop d _ | .fence d _ | .bucketOpen d _ | .bucketClose d _ | .bucketDiscard d _ | .update d _ | .emit d _
  | .entryStart d _ | .loadKernel d _ | .copy d _ | .fillCmd d _ | .offloadAct d _ | .recallAct d _
  | .recallSend d _ | .planish d _ | .sample d _ | .scrub d _ | .rebuild d _ | .channelRetire d _
  | .channelAdmit d _ | .launchAt d _ | .barrier d _ | .regionSet d _ | .partitionSet d _ | .powerCap d _
  | .tinker d _ | .query d _ | .commandComplete d _ => decide (d < 64)
  | .bucketCloseSweepDone _ => true
  | .launchGateOpen d | .armedFirstAction d | .barrierGateOpen d | .barrierTimeout d | .commandStart d =>
    decide (d < 64)
  | .rd p r | .rndrd p r => decide (p < 32) && r.wf 0
  | .wr p r => decide (p < 32) && (if r.hdr.masked = 1#1 then r.wf 2 else r.wf (r.hdr.lenM1.toNat + 1))
  | .wrFinal p r => decide (p < 32) && r.wf (r.hdr.lenM1.toNat + 1)
  | .acc p r => decide (p < 32) && r.wf (r.hdr.scl.toNat + r.hdr.lenM1.toNat + 1)
  | .atom p r | .door p r => decide (p < 32) && r.wf 1
  | .wrFinalLand p _ | .rsp p _ | .crd p _ _ | .blockWriteSend p | .rspTmo p _ | .starve p _ _ | .portReset p
  | .portResetDone p | .heldRequestRelease p _ => decide (p < 32)
  | .rspData p c _ => decide (p < 32) && (c == 9#4 || c == 0#4 || decide (10 ≤ c.toNat))
  | .regulatorResume n => decide (n < 64)
  | .read k _ => k != 2#4 && k != 3#4
  | .write _ | .enum _ | .mgtResponse _ => true
  | .align _ _ | .alignHoldEnd | .arrive _ | .release _ | .releaseRepeat _ | .withdraw _ | .sendAlign
  | .advance => true
  | .seedReq | .seedReady | .seedConsume | .nsRestart | .nsEn _ | .oscSample _ | .seedStage _ _ _
  | .seedCommit _ _ => true
  | .drawerEnable _ | .drawerDisable _ | .drDbWrite _ _ | .flush | .flushDone | .resWays _ | .resWaysDone
  | .bureauSync | .bureauWrite | .bureauWriteDone _ | .errsumRefresh | .mwIrqSet _ | .registerWrite _ _ => true
  | .dramReadDone n _ _ | .correctWriteBack n | .caPar n | .phy n | .admission n _ | .admissionDeadline n =>
    decide (n < 256)
  | .mendRowIssue c => decide (c < 32)
  | .planisherModeEntry n _ _ | .planisherModeExit n _ | .planisherPreempt n _ => decide (n < 256)
  | .planisherWindowWrite _ _ _ | .planisherWindowRead _ _ => true
  | .planisherOperandAccess n _ _ _ sec => decide (n < 256 ∧ sec < 32)
  | .mov _ x | .add _ x | .sub _ x | .mul _ x | .fma _ x | .fms _ x | .min _ x | .max _ x | .abs _ x | .neg _ x
  | .sel _ x | .cmplt _ x | .cmpeq _ x | .twosum _ x | .ftwosum _ x | .scale _ x => x.wf
  | .rcp x | .rsq x | .sqrt x | .exp2 x | .log2 x | .lmul x | .ltof x | .ftol x => x.wf && !x.word.sb
  | .ld x | .st x | .cvt x | .rnd x | .assay x | .hist x | .maxacc x | .end_ x | .slotNop x => x.wf && !x.word.sb

end Sys2Proof
end

