-- ==== Sys2Proof/Tests/Slice0.lean ====
section
/-!
SUPPORT. Small tests: well-formedness refuses each kind of ill-formed term, the spec's worked examples come out of the
definitions, and one command of each family does what its rule says on a small state.
-/

namespace Sys2Proof.Tests

set_option Elab.async false
set_option maxRecDepth 20000

open Sys2Proof Sys2Proof.Machine Sys2Proof.Num

/-! ## Well-formedness -/

def ill (i : Instr) : Bool := !i.wf

theorem test_wf_refuses_life : (ill (.fuse [] (List.replicate 64 0) ⟨750, List.replicate 64 750⟩) &&
    ill (.fuse (List.replicate 64 0) [] ⟨750, List.replicate 64 750⟩) && ill (.fuse (List.replicate 64 0) (List.replicate 64 0) ⟨750, []⟩) &&
    ill (.stageAbort 9 750) && ill (.identityRead []) && ill (.training [256]) && ill (.bist [256] true []) &&
    ill (.bist [] true [128]) && ill (.warmStart [256] [] true []) && ill (.warmStart [] [256] true []) &&
    ill (.warmStart [] [] true [128])) = true := by decide
theorem test_wf_refuses_power : (ill (.droopDetect 64 30) && ill (.lineClassify [] (List.replicate 64 0)) &&
    ill (.lineClassify (List.replicate 8 0) []) && ill (.stackTempRead []) && ill (.refresh 256 0 0) && ill (.refresh 0 2 0) &&
    ill (.refresh 0 0 4)) = true := by decide
theorem test_wf_refuses_drawers : (ill (.nop 64 0) && ill (.commandStart 64) && ill (.barrierTimeout 64) &&
    ill (.commandComplete 64 0)) = true := by decide
theorem test_wf_refuses_ports : (ill (.rd 32 (req .rd 2 0 1 [])) && ill (.rd 0 (req .rd 2 0 1 [5])) &&
    ill (.wr 0 (req .wr 2 0 2 [5])) && ill (.wr 0 (req .wr 2 0 1 [5] fun h => { h with masked := 1 })) &&
    ill (.wrFinal 0 (req .wrFinal 2 0 1 [])) && ill (.acc 0 (req .acc 2 0 1 [5] fun h => { h with scl := 1 })) &&
    ill (.atom 0 (req .atom 2 0 1 [])) && ill (.door 32 (req .door 2 0 1 [5])) && ill (.crd 32 0 0) && ill (.portReset 32) &&
    ill (.rspData 0 1 (req .rd 2 0 1 [])) && ill (.regulatorResume 64)) = true := by decide
theorem test_wf_refuses_rest : (ill (.caPar 256) && ill (.mendRowIssue 32) &&
    ill (.planisherModeExit 256 0) && ill (.planisherOperandAccess 0 0 .rd 0 32) &&
    ill (.mov .a ⟨128, .preamble, slot 0 0 0 0 0 0⟩) && ill (.rcp ⟨128, .preamble, slot 0 0 0 0 0 0⟩) &&
    ill (.sqrt ⟨0, .preamble, { slot 0 0 0 0 0 0 with sb := true }⟩) &&
    ill (.st ⟨0, .preamble, { slot 0 0 0 0 0 0 with sb := true }⟩)) = true := by decide
theorem test_wf_accepts : Instr.wf (.wr 31 (req .wr 2 0 1 [5, 6] fun h => { h with masked := 1 })) = true ∧
    Instr.wf (.refresh 255 1 3) = true := by decide

/-! ## Number formats: Table 2-3, Table 2-5 and the examples beside them (02_number_formats.md) -/

def codeOf (f : Fmt) (m e : Int) : Nat := (encode f false .nearest (.dy ⟨m, e⟩)).code
def isCode (f : Fmt) (c : Nat) (m e : Int) : Bool := match decode f c with
  | .dy a => a.eq ⟨m, e⟩ && codeOf f m e == c
  | _ => false

theorem test_worked_encodings : (isCode .df32 0x3F800000 1 0 && isCode .df32 0xBE200000 (-5) (-5) && isCode .df32 1 1 (-149) &&
    isCode .df24 0x3F8000 1 0 && isCode .df24 0x404000 3 0 && isCode .df16w 0x3F80 1 0 && isCode .df16w 0xC020 (-5) (-1) &&
    isCode .df16w 0x3C80 1 (-6) && isCode .df16p 0x3C00 1 0 && isCode .df16p 0xC680 (-13) (-1) && isCode .df16p 0x10 1 (-20) &&
    isCode .df12 0x3C0 1 0 && isCode .df12 0x3A0 3 (-2) && isCode .df8w 0x3C 1 0 && isCode .df8w 0xB6 (-3) (-3) &&
    isCode .df8p 0x38 1 0 && isCode .df8p 0xD5 (-13) 0 && isCode .df6 0x0C 1 0 && isCode .df6 0x03 3 (-4) &&
    isCode .df6 0x3E (-24) 0 && isCode .df4 0xB (-3) (-1) && isCode .df4 1 1 (-1)) = true := by decide +kernel

/-- The DF32 values nearest to 0.7, −1.9, 0.05, 2.6, −0.3, 1.1, 0.0 and −2.95. -/
def blockIn : List Nat := [0x3F333333, 0xBFF33333, 0x3D4CCCCD, 0x40266666, 0xBE99999A, 0x3F8CCCCD, 0, 0xC03CCCCD]
theorem test_df8p_block : blockIn.map (fun c => (encode .df8p false .nearest (removeScale 0x78 (decode .df32 c))).code) =
    [0x6B, 0xF7, 0x4D, 0x7A, 0xE2, 0x71, 0x00, 0xFC] := by decide +kernel
theorem test_df8p_block_scale : blockCode .df8p (decode .df32 0xC03CCCCD).magnitude = 0x78 := by decide +kernel
theorem test_stochastic : [0xE0, 0x40].map (fun u => (encode .df8p false (.stoch 8 u) (removeScale 0x78 (decode .df32 0x3F333333))).code) =
    [0x6C, 0x6B] := by decide +kernel
theorem test_window : toWindow 0x7D (decode .df16w 0x3C80) = (BitVec.ofNat 64 (2 ^ 43), false) ∧
    toWindow 0x7D (.dy ⟨1, -1⟩) = (0x7FFFFFFFFFFF#64, true) ∧ dxAdd (BitVec.ofNat 64 (2 ^ 43)) 0x7FFFFFFFFFFF#64 = 0x87FFFFFFFFFF#64 ∧
    (encode .df32 false .nearest (windowVal 0x7D 0x87FFFFFFFFFF#64)).code = 0x3E880000 := by decide +kernel

/-! ## Glizo: bundle 3 of the Adam-class kernel (03_anvil_and_glizo.md) -/

theorem test_bundle : bundleOf 0x38204400382848000000000010300000#128 =
    ⟨.op .mul { slot 0 4 1 2 0 0 with sb := true }, .op .mul { slot 0 5 1 4 0 0 with sb := true }, .nop,
     .op .ld (slot 0 6 0 0 0 0)⟩ := by decide +kernel

/-! ## Addresses: Table 9-5 and Table 14-3 -/

/-- Eight used sites of 96 GiB, granule 10 of a class. -/
def tall (cls : Nat) : State := puts State.reset [(F.MW_CONFIG_SITES_POPULATED, 0, 0xFF), (F.MW_CONFIG_SITE_CAP, 0, 0xCCCCCCCC),
  (F.MW_CONFIG_MEND_SITES, 0, 7), (F.RG_GRAN_CLASS, 10, cls)]
theorem test_address_classes : (tall 1).locate 0x280062C40 = some ⟨5 * 32 + 24, 20480 * 32 + 17⟩ ∧
    (tall 0).locate 0x280062C40 = some ⟨5 * 32 + 24, 20480 * 32 + 17⟩ ∧
    (tall 2).locate 0x280062C40 = some ⟨6 * 32 + 28, 20480 * 32 + 17⟩ := by decide +kernel
theorem test_cells : [1, 0, 2].map (fun c => (tall c).cell (((tall c).locate 0x280062C40).getD ⟨0, 0⟩)) =
    [⟨1, 0, 0, 0, 320, 2⟩, ⟨0, 0, 1, 0, 320, 1⟩, ⟨1, 0, 0, 0, 320, 2⟩] := by decide +kernel
theorem test_csr_offset : Reg.CE_PL_PREEMPT.offset 78 = 0x113A08 ∧ Reg.CE_PL_STAT.offset 78 = 0x113A00 := by decide

/-! ## Codes: the SEC-DED code (R228, R230) and the bits of Table 11-3 -/

theorem test_check_byte : checkByte 0x8000000000000001#64 = 0x88#8 ∧ checkByte (BitVec.allOnes 64) = 0#8 := by decide +kernel
theorem test_syndromes : syndrome 0x8000000000000021#64 0x88#8 = 0x15#8 ∧ verdict 0x0C#8 = .uncorrectable ∧ verdict 0xFF#8 = .uncorrectable := by
  decide +kernel
theorem test_random_bits : Gen.bits (77 : BitVec 256) 8 21480 0x2A07#32 0x00E56D08#32 =
    ((Gen.f 77 ⟨0x53E#32, 0x40000000#32, 0x2A07#32, 0x00E56D08#32⟩).extractLsb' 64 8).toNat := by decide +kernel

/-- The worked draw of 06_planisher_near_bank.md, its three segments as three elements. -/
theorem test_draw : walk (0x9E3779B9 * (7 * 2 ^ 38) / 2 ^ 32) [2 ^ 38, 2 ^ 40, 2 ^ 39] 0 0 = 1 := by decide

/-! ## Commands -/

/-- A fall of COOLANT_OK. -/
theorem test_coolant_falls : (after .coolantOkFall up).life.coolantOk = false := by decide +kernel
/-- R113: a Drawer is enabled with its positions at 0. -/
theorem test_drawer_enabled : (after (.drawerEnable 2) (puts (rings 2 up) [(F.DR_CTL_ENABLE, 2, 0), (F.RG_GRAN_OWNER, 0, 2)])).fld F.DR_STAT_SQ_HEAD 2 = 0 := by
  decide +kernel
/-- A NOP ends with status 0. -/
theorem test_nop : ((after (.nop 2 9) (withCmd 2 (cmd .nop []) up)).cmd 2 9).map (fun c => (c.phase, c.status)) = some (.done, .ok) := by
  decide +kernel
/-- R20: an UPDATE of a kernel slot not granted to its partition completes NOT_PERMITTED. -/
theorem test_update_not_permitted :
    ((after (.update 2 9) (withCmd 2 (cmd .update runWords) up)).cmd 2 9).map (·.status) = some .notPermitted := by decide +kernel
/-- A request of a partition that is not enabled for the port changes no memory. -/
theorem test_write_not_permitted : (after (.wr 3 (req .wr 5 0x1000 1 [9])) ported).mem = ported.mem := by decide +kernel
/-- A port answers a read of a sector held in a slice at once. -/
theorem test_read_is_sent : (after (.rd 3 (req .rd 2 0x1000 1 []))
    (hold 0x1000 9 (ported.put F.PT_STAT_RELEASED 3 1))).sent.map (match · with
    | .rsp p tag _ _ st _ xs => some (p, tag, st, xs.map (·.data))
    | _ => none) = [none, some (3, 7, .ok, [9])] := by
  decide +kernel
/-- ADD of lanes holding 1.0 and 1.0 in DF32 has one result on its way. -/
theorem test_add_lands : (let s := up.setAnvil 0 { up.anvil 0 with v := [(1, BitVec.ofNat 2048 0x3F800000)] }
    ((after (.add .a ⟨0, .preamble, slot 0 3 1 1 0 0⟩) s).anvil 0).landing.length) = 1 := by decide +kernel
/-- R276: with NS_EN clear the oscillators stand still. -/
theorem test_oscillators_stand : (after (.oscSample 0xFF) (up.put F.CR_CTL_NS_EN 0 0)).time.osc = up.time.osc := by decide +kernel
/-- A step takes the first command that came. -/
theorem test_queue_is_first_in_first_out : (match step { up with pending := [.coolantOkFall, .coolantOkRise] } with
    | .next t => t.pending
    | _ => []) = [.coolantOkRise] := by decide +kernel

end Sys2Proof.Tests
end

