-- ==== Sys2Proof/Tests/Witness.lean ====
section
/-! SUPPORT. For every clause of the statements, a state and operands that meet all its hypotheses together. -/

namespace Sys2Proof.Tests

set_option Elab.async false
set_option maxRecDepth 20000
set_option linter.unusedVariables false
set_option linter.unreachableTactic false
set_option linter.unusedTactic false

open Sys2Proof.Machine

theorem witness_StepTakesFront_1 : ∃ (c : Instr) (q : List Instr) (s : State), s.pending = c :: q := by
  refine ⟨.nop 0 0, [], { up with pending := [.nop 0 0] }, ?_⟩
  decide +kernel

theorem witness_StepTakesFront_2 : ∃ (s : State), s.pending = [] ∧ s.life.porstN = true ∧ s.fld F.PW_CLK_STAT_PLL_LOCK 0 = 0 := by
  refine ⟨up.put F.PW_CLK_STAT_PLL_LOCK 0 0, ?_⟩
  decide +kernel

theorem witness_StepTakesFront_3 : ∃ (s : State), s.pending = [] ∧ s.life.porstN = false := by
  refine ⟨State.reset, ?_⟩
  decide +kernel

theorem witness_FirstPowerUpSteps_1 : ∃ (s : State), s.life.porstN = false := by
  refine ⟨State.reset, ?_⟩
  decide +kernel

theorem witness_FirstPowerUpSteps_2 : ∃ (s : State), s.life.porstN = true ∧ s.lc = lcPll ∧ s.flag F.PW_CLK_STAT_PLL_LOCK 0 =
      false ∧ s.flag F.PW_DOM_STAT_ON 0 = true := by
  refine ⟨at_ lcPll [(F.PW_CLK_STAT_PLL_LOCK, 0, 0), (F.PW_DOM_STAT_ON, 0, 1)], ?_⟩
  decide +kernel

theorem witness_FirstPowerUpSteps_3 : ∃ (s : State), s.lc = lcBoot ∧ s.life.drain = none := by
  refine ⟨at_ lcBoot [], ?_⟩
  decide +kernel

theorem witness_FirstPowerUpSteps_4 : ∃ (s : State), s.flag F.PW_CLK_STAT_PLL_LOCK 0 = true ∧ s.lc ≠ lcHeld := by
  refine ⟨up, ?_⟩
  decide +kernel

theorem witness_FuseReadEntersBootOp_1 : ∃ (s : State), s.lc = lcFuse ∧ s.life.drain = none ∧ s.flag F.PW_DOM_STAT_HDR_FAULT 1 = false := by
  refine ⟨at_ lcFuse [], ?_⟩
  decide +kernel

theorem witness_FuseReadEntersBootOp_2 : ∃ (c : Nat), c < 16 := by
  refine ⟨15, ?_⟩
  decide +kernel

theorem witness_FuseReadEntersBootOp_3 : ∃ (c : Nat), c < 15 := by
  refine ⟨14, ?_⟩
  decide +kernel

theorem witness_StagingTurnsDomainsOn_1 : ∃ (sense dom seg : Nat) (s : State), s.power.staging = some ⟨dom, seg⟩ ∧ dom < 9 ∧
      seg + 1 < 16 := by
  refine ⟨900, 8, 14, onPower (fun p => { p with staging := some ⟨8, 14⟩ }) up, ?_⟩
  decide +kernel

theorem witness_StagingTurnsDomainsOn_2 : ∃ (sense : Nat) (dom : Nat) (seg : Nat) (s : State), s.power.staging = some
      { dom := dom, seg := seg : Staging } ∧ dom < 9 ∧ 16 ≤ seg + 1 ∧ (s.flag F.PW_CLK_STAT_FUSE_DONE 0 = false ∨ 100 * sense ≤ 103 * s.fld
      F.PW_FUSE_OP_VNOM_MV (s.fld F.PW_OP_CTL_CUR_OP 0) ∧ 97 * s.fld F.PW_FUSE_OP_VNOM_MV (s.fld F.PW_OP_CTL_CUR_OP 0) ≤ 100 * sense) ∧
      s.fld F.PW_OP_CTL_CUR_OP 0 < 3 := by
  refine ⟨900, 0, 15, onPower (fun p => { p with staging := some ⟨0, 15⟩ }) (up.put F.PW_CLK_STAT_FUSE_DONE 0 0), ?_⟩
  decide +kernel

theorem witness_StagingTurnsDomainsOn_3 : ∃ (sense : Nat) (dom : Nat) (seg : Nat) (s : State), s.power.staging = some
      { dom := dom, seg := seg : Staging } ∧ dom < 9 ∧ 16 ≤ seg + 1 ∧ s.flag F.PW_CLK_STAT_FUSE_DONE 0 = true ∧ s.fld F.PW_OP_CTL_CUR_OP 0 <
      3 ∧ (103 * s.fld F.PW_FUSE_OP_VNOM_MV (s.fld F.PW_OP_CTL_CUR_OP 0) < 100 * sense ∨ 100 * sense < 97 * s.fld F.PW_FUSE_OP_VNOM_MV
      (s.fld F.PW_OP_CTL_CUR_OP 0)) := by
  refine ⟨928, 8, 15, onPower (fun p => { p with staging := some ⟨8, 15⟩ }) (up.put F.PW_FUSE_OP_VNOM_MV 0 900), ?_⟩
  decide +kernel

theorem witness_StagingTurnsDomainsOn_4 : ∃ (fail : Nat) (sense : Nat) (dom : Nat) (seg : Nat) (s : State), s.power.staging = some
      { dom := dom, seg := seg : Staging } ∧ dom < 9 ∧ fail < 9 ∧ (fail = dom ∨ fail ≠ dom ∧ (dom = 0 ∨ fail = 0 ∨ fail = dom + 1 ∨ dom =
      fail + 1) ∧ s.flag F.PW_DOM_STAT_ON fail = false ∧ s.flag F.PW_DOM_STAT_HDR_FAULT fail = false ∧ (s.flag F.PW_CLK_STAT_FUSE_DONE 0 =
      false ∨ s.fld F.PW_FUSE_OP_VNOM_MV (s.fld F.PW_OP_CTL_CUR_OP 0) ≤ 10 * sense)) := by
  refine ⟨2, 90, 1, 4, onPower (fun p => { p with staging := some ⟨1, 4⟩ }) (up.put F.PW_FUSE_OP_VNOM_MV 0 900), ?_⟩
  decide +kernel

theorem witness_StagingTurnsDomainsOn_5 : ∃ (fail : Nat) (sense : Nat) (dom : Nat) (seg : Nat) (s : State), s.power.staging = some
      { dom := dom, seg := seg : Staging } ∧ fail ≠ dom ∧ s.flag F.PW_CLK_STAT_FUSE_DONE 0 = true ∧ 10 * sense < s.fld F.PW_FUSE_OP_VNOM_MV
      (s.fld F.PW_OP_CTL_CUR_OP 0) := by
  refine ⟨2, 89, 1, 4, onPower (fun p => { p with staging := some ⟨1, 4⟩ }) (up.put F.PW_FUSE_OP_VNOM_MV 0 900), ?_⟩
  decide +kernel

theorem witness_BureauAndIdentityAreRead_1 : ∃ (s : State), s.lc = lcBureau ∧ s.life.drain = none ∧ s.life.bureauDone = false := by
  refine ⟨onLife (fun l => { l with bureauDone := false }) (at_ lcBureau []), ?_⟩
  decide +kernel

theorem witness_BureauAndIdentityAreRead_2 : ∃ (l : List SiteIdent) (s : State), s.lc = lcIdentity ∧ s.life.drain = none ∧ l.length = 8 :=
      by
  refine ⟨List.replicate 8 ⟨true, true, 1, 128, 8, 24⟩, at_ lcIdentity [], ?_⟩
  decide +kernel

theorem witness_PowerUpEndsInRelease_1 : ∃ (s : State), s.lc = lcWait ∧ s.life.drain = none ∧ s.coolReady = true ∧ s.pfReady = true := by
  refine ⟨onLife (fun l => { l with coolTicks := 10 ^ 12, pfTicks := 10 ^ 12 }) (at_ lcWait []), ?_⟩
  decide +kernel

theorem witness_PowerUpEndsInRelease_2 : ∃ (x : Drain) (s : State), s.lc = lcPfDone ∧ s.life.drain = some x ∧ x.kind = DrainKind.pfEarly ∧
      x.from_ ≠ lcWarm ∧ s.pfReady = true := by
  refine ⟨⟨.pfEarly, 0, true, none, lcBist⟩, onLife (fun l => { l with coolTicks := 10 ^ 12, pfTicks := 10 ^ 12 }) (onLife (fun l =>
    { l with drain := some ⟨.pfEarly, 0, true, none, lcBist⟩ }) (at_ lcPfDone [])), ?_⟩
  decide +kernel

theorem witness_PowerUpEndsInRelease_3 : ∃ (l : List Nat) (s : State), s.lc = lcTraining ∧ s.life.drain = none ∧ s.noRequests
      ∧ (∀ n ∈ l, n < 256) := by
  refine ⟨[0, 255], at_ lcTraining [], ?_⟩
  iterate 3 refine ⟨by first | exact no_requests (by decide +kernel) (by decide +kernel) | decide +kernel, ?_⟩
  first | exact no_requests (by decide +kernel) (by decide +kernel) | decide +kernel

theorem witness_PowerUpEndsInRelease_4 : ∃ (l : List Nat) (s : State), s.lc = lcBist ∧ s.life.drain = none ∧ s.noRequests ∧ (∀ n ∈ l, n <
      256) := by
  refine ⟨[0, 255], at_ lcBist [], ?_⟩
  iterate 3 refine ⟨by first | exact no_requests (by decide +kernel) (by decide +kernel) | decide +kernel, ?_⟩
  first | exact no_requests (by decide +kernel) (by decide +kernel) | decide +kernel

theorem witness_PowerUpEndsInRelease_5 : ∃ (s : State), s.lc = lcFill ∧ s.life.drain = none := by
  refine ⟨at_ lcFill [], ?_⟩
  decide +kernel

theorem witness_PowerUpEndsInRelease_6 : ∃ (s : State), s.life.ready = true ∧ s.life.drain = none ∧ s.lc = lcFill := by
  refine ⟨onLife (fun l => { l with ready := true }) (at_ lcFill []), ?_⟩
  decide +kernel

theorem witness_WarmResetDrains_1 : ∃ (s : State), s.life.wrstN = true ∧ s.life.porstN = true ∧ s.flag F.PW_CLK_STAT_PLL_LOCK 0 = true ∧
      s.lc ≠ lcHeld ∧ s.life.drain = none ∧ s.noRequests := by
  refine ⟨up, ?_⟩
  iterate 5 refine ⟨by first | exact no_requests (by decide +kernel) (by decide +kernel) | decide +kernel, ?_⟩
  first | exact no_requests (by decide +kernel) (by decide +kernel) | decide +kernel

theorem witness_WarmResetDrains_2 : ∃ (s : State), (s.life.drain ≠ none ∨ s.lc = lcHeld ∨ s.life.porstN = false) := by
  refine ⟨at_ lcHeld [], ?_⟩
  decide +kernel

theorem witness_WarmResetDrains_3 : ∃ (x : Drain) (s : State), s.life.drain = some x ∧ x.kind = DrainKind.wrst ∧ x.drained = false ∧
      s.requestsDone false = true ∧ (∀ n < 256, s.chanState n = 0 → (s.chan n).selfRefresh = false) := by
  refine ⟨⟨.wrst, 0, false, none, lcReleased⟩, onLife (fun l => { l with drain := some ⟨.wrst, 0, false, none, lcReleased⟩ }) (up), ?_⟩
  decide +kernel

theorem witness_PowerFailDrains_1 : ∃ (s : State), s.life.pwrFailN = true ∧ s.life.porstN = true ∧ s.lc = lcReleased ∧ s.life.drain = none
      := by
  refine ⟨up, ?_⟩
  decide +kernel

theorem witness_PowerFailDrains_2 : ∃ (s : State), s.life.pwrFailN = true ∧ s.life.porstN = true ∧ s.life.drain = none ∧ (s.lc = lcTraining
      ∨ s.lc = lcBist ∨ s.lc = lcFill ∨ s.lc = lcWarm) := by
  refine ⟨at_ lcWarm [], ?_⟩
  decide +kernel

theorem witness_PowerFailDrains_3 : ∃ (x : Drain) (s : State), s.life.pwrFailN = true ∧ s.life.porstN = true ∧ s.life.drain = some x ∧
      x.kind = DrainKind.wrst := by
  refine ⟨⟨.wrst, 0, false, none, lcReleased⟩, onLife (fun l => { l with drain := some ⟨.wrst, 0, false, none, lcReleased⟩ }) (up), ?_⟩
  decide +kernel

theorem witness_PowerFailDrains_4 : ∃ (s : State), s.life.pwrFailN = true ∧ (s.life.porstN = false ∨ (∃ x, s.life.drain = some x ∧ x.kind ≠
      DrainKind.wrst) ∨ s.life.drain = none ∧ (s.lc < lcTraining ∨ s.lc = lcHeld)) := by
  refine ⟨at_ lcHeld [], ?_⟩
  iterate 1 refine ⟨by first | decide +kernel | exact Or.inr (by decide +kernel) | exact Or.inl (by decide +kernel), ?_⟩
  first | decide +kernel | exact Or.inr (by decide +kernel) | exact Or.inl (by decide +kernel)

theorem witness_PowerFailDrains_5 : ∃ (x : Drain) (h : List Byte) (s : State), s.life.drain = some x ∧ x.header = some h := by
  refine ⟨⟨.pf, 0, true, some [1], lcReleased⟩, [1], onLife (fun l =>
    { l with drain := some ⟨.pf, 0, true, some [1], lcReleased⟩ }) up, ?_⟩
  decide +kernel

theorem witness_PowerFailDrains_6 : ∃ (s : State), (∀ (x : Drain), s.life.drain = some x → x.header = none) := by
  refine ⟨up, ?_⟩
  first | exact of_none (by decide +kernel) | decide +kernel

theorem witness_PowerFailDrains_7 : ∃ (s : State), s.life.pwrFailN = false := by
  refine ⟨onLife (fun l => { l with pwrFailN := false }) up, ?_⟩
  decide +kernel

theorem witness_PowerFailDrains_8 : ∃ (x : Drain) (s : State), s.life.drain = some x ∧ x.drained = false ∧ x.kind ≠ DrainKind.wrst ∧
      s.requestsDone true = true ∧ (x.kind = DrainKind.pf → s.workLeft = false) ∧ s.drainWork.requestsDone false = true ∧ (∀ n < 256,
      s.drainWork.chanState n = 0 → (s.drainWork.chan n).selfRefresh = false) := by
  refine ⟨⟨.pf, 0, false, none, lcReleased⟩, onLife (fun l => { l with drain := some ⟨.pf, 0, false, none, lcReleased⟩ }) (ported), ?_⟩
  decide +kernel

theorem witness_PowerFailDrains_9 : ∃ (x : Drain) (s : State), s.life.drain = some x ∧ x.drained = false ∧ x.kind ≠ DrainKind.wrst ∧
      (s.requestsDone true = false ∨ x.kind = DrainKind.pf ∧ s.workLeft = true) := by
  refine ⟨⟨.pf, 0, false, none, lcReleased⟩, onLife (fun l => { l with drain := some ⟨.pf, 0, false, none, lcReleased⟩ }) (withCmd 2 (cmd
    .fence []) up), ?_⟩
  decide +kernel

theorem witness_WarningCutsCommands_1 : ∃ (d : Nat) (c : Cmd) (s : State), d < 64 ∧ (s.drawer d).cmds = [c] ∧ (∀ e < 64, e ≠ d → (s.drawer
      e).cmds = []) := by
  refine ⟨2, cmd .fence [], withCmd 2 (cmd .fence []) (up), ?_⟩
  decide +kernel

theorem witness_WarningCutsCommands_2 : ∃ (c : Cmd), c.phase = Phase.done := by
  refine ⟨{ cmd .fence [] with phase := .done }, ?_⟩
  decide +kernel

theorem witness_WarningCutsCommands_3 : ∃ (d : Nat) (c : Cmd) (o : Op) (s : State), c.phase ≠ Phase.done ∧ c.opcode = o.code ∧ s.cmd d c.pos
      = some c ∧ o ∈ [Op.bucketOpen, Op.bucketDiscard, Op.channelRetire, Op.fence, Op.nop, Op.query, Op.offloadAct, Op.partitionSet,
      Op.powerCap] ∧ c.phase = Phase.armed := by
  refine ⟨2, { cmd .fence [] with phase := .armed }, .fence, withCmd 2 ({ cmd .fence [] with phase := .armed }) (up), ?_⟩
  decide +kernel

theorem witness_WarningCutsCommands_4 : ∃ (d : Nat) (c : Cmd) (o : Op) (s : State), c.phase ≠ Phase.done ∧ c.opcode = o.code ∧ s.cmd d c.pos
      = some c ∧ o ∈ [Op.bucketOpen, Op.bucketDiscard, Op.channelRetire, Op.fence, Op.nop, Op.query, Op.offloadAct, Op.partitionSet,
      Op.powerCap] ∧ c.phase ≠ Phase.armed := by
  refine ⟨2, cmd .query [], .query, withCmd 2 (cmd .query []) (up), ?_⟩
  decide +kernel

theorem witness_WarningCutsCommands_5 : ∃ (d : Nat) (c : Cmd) (o : Op) (s : State), c.phase ≠ Phase.done ∧ c.opcode = o.code ∧ s.cmd d c.pos
      = some c ∧ (o ∈ [Op.copy, Op.fill, Op.planish, Op.sample] ∨ o = Op.recallAct ∧ (c.phase = Phase.running ∨ s.gtc ≤ BitVec.toNat (c.w 3)
      ∧ c.argBit 1 50 = false) ∨ o ∈ [Op.update, Op.emit] ∧ s.runOf d c.pos = none) := by
  refine ⟨2, cmd .recallAct [8192, 0, 5], .recallAct, withCmd 2 (cmd .recallAct [8192, 0, 5]) (up), ?_⟩
  decide +kernel

theorem witness_WarningCutsCommands_6 : ∃ (d : Nat) (c : Cmd) (r : Run) (s : State), c.phase ≠ Phase.done ∧ (c.opcode = Op.update.code ∨
      c.opcode = Op.emit.code) ∧ s.runOf d c.pos = some r := by
  refine ⟨2, { cmd .update runWords with phase := .running }, bodyRun, bodyState, ?_⟩
  decide +kernel

theorem witness_WarningCutsCommands_7 : ∃ (d : Nat) (c : Cmd) (r : Run) (s : State) (a : Nat) (w : Work), c.phase ≠ Phase.done ∧ (c.opcode =
      Op.update.code ∨ c.opcode = Op.emit.code) ∧ s.runOf d c.pos = some r ∧ (s.anvil a).work = some w ∧ w.drawer = d ∧ w.pos = c.pos := by
  refine ⟨2, { cmd .update runWords with phase := .running }, bodyRun, bodyState, 0, ⟨2, 9, .body, 0, 0, 0, [⟨0, 0⟩]⟩, ?_⟩
  decide +kernel

theorem witness_WarningCutsCommands_8 : ∃ (d : Nat) (c : Cmd) (r : Run) (s : State) (a : Nat) (w : Work), c.phase ≠ Phase.done ∧ (c.opcode =
      Op.update.code ∨ c.opcode = Op.emit.code) ∧ s.runOf d c.pos = some r ∧ (s.anvil a).work = some w ∧ (w.drawer ≠ d ∨ w.pos ≠ c.pos) :=
      by
  refine ⟨2, { cmd .update runWords with phase := .running }, bodyRun, bodyState.setAnvil 1
    { bodyState.anvil 1 with work := some ⟨3, 9, .body, 0, 0, 0, [⟨0, 0⟩]⟩ }, 1, ⟨3, 9, .body, 0, 0, 0, [⟨0, 0⟩]⟩, ?_⟩
  decide +kernel

theorem witness_WarningCutsCommands_9 : ∃ (d : Nat) (c : Cmd) (l : Launch) (s : State), c.phase ≠ Phase.done ∧ c.opcode = Op.launchAt.code ∧
      s.cmd d c.pos = some c ∧ (s.drawer d).launch = some l := by
  refine ⟨2, cmd .launchAt [7], ⟨9, 7, true, false, none, 0, 0, none⟩, onDrawer 2 (fun x =>
    { x with launch := some ⟨9, 7, true, false, none, 0, 0, none⟩ }) (withCmd 2 (cmd .launchAt [7]) (up)), ?_⟩
  decide +kernel

theorem witness_WarningCutsCommands_10 : ∃ (d : Nat) (c : Cmd) (b : Barrier) (s : State), c.phase ≠ Phase.done ∧ c.opcode = Op.barrier.code
      ∧ s.cmd d c.pos = some c ∧ (s.drawer d).barrier = some b ∧ b.pos = c.pos ∧ s.fld F.GT_CTL_SYNC_EN 0 = 1 := by
  refine ⟨2, cmd .barrier [], ⟨9, 1, 2, some 0, none⟩, onDrawer 2 (fun x => { x with barrier := some ⟨9, 1, 2, some 0, none⟩ }) (withCmd 2
    (cmd .barrier []) (up.put F.GT_CTL_SYNC_EN 0 1)), ?_⟩
  decide +kernel

theorem witness_WarningCutsCommands_11 : ∃ (d : Nat) (c : Cmd) (b : Bucket) (s : State), c.phase ≠ Phase.done ∧ c.opcode =
      Op.bucketClose.code ∧ s.cmd d c.pos = some c ∧ s.draws.buckets = [b] ∧ b.closer = some (d, c.pos) := by
  refine ⟨2, cmd .bucketClose [0x60800], { bkt .complete with closer := some (2, 9) }, withCmd 2 (cmd .bucketClose [0x60800]) (withBucket
    { bkt .complete with closer := some (2, 9) } up), ?_⟩
  decide +kernel

theorem witness_WarningCutsCommands_12 : ∃ (d : Nat) (lo : Nat) (hi : Nat) (c : Cmd) (s : State), c.phase ≠ Phase.done ∧ c.opcode =
      Op.regionSet.code ∧ c.argBit 1 28 = true ∧ s.noRequests ∧ s.cmd d c.pos = some c ∧ lo = c.arg 1 0 10 ∧ hi = lo + c.arg 1 10 10 ∧ hi ≤
      768 := by
  refine ⟨0, 0, 1, regionCmd, regionState, ?_⟩
  iterate 7 refine ⟨by first | exact no_requests (by decide +kernel) (by decide +kernel) | decide +kernel, ?_⟩
  first | exact no_requests (by decide +kernel) (by decide +kernel) | decide +kernel

theorem witness_WarningCutsCommands_13 : ∃ (d : Nat) (lo : Nat) (hi : Nat) (c : Cmd) (s : State) (g : Nat), c.phase ≠ Phase.done ∧ c.opcode
      = Op.regionSet.code ∧ c.argBit 1 28 = true ∧ s.noRequests ∧ s.cmd d c.pos = some c ∧ lo = c.arg 1 0 10 ∧ hi = lo + c.arg 1 10 10 ∧ hi
      ≤ 768 ∧ lo ≤ g ∧ g < hi := by
  refine ⟨0, 0, 1, regionCmd, regionState, 0, ?_⟩
  iterate 9 refine ⟨by first | exact no_requests (by decide +kernel) (by decide +kernel) | decide +kernel, ?_⟩
  first | exact no_requests (by decide +kernel) (by decide +kernel) | decide +kernel

theorem witness_WarningCutsCommands_14 : ∃ (d : Nat) (k : Nat) (c : Cmd) (s : State), c.phase ≠ Phase.done ∧ c.opcode = Op.loadKernel.code ∧
      s.cmd d c.pos = some c ∧ k = c.arg 1 44 4 ∧ s.anv.runs = [] := by
  refine ⟨0, 5, cmd .loadKernel [6400 + 2 ^ 44 * 5], withCmd 0 (cmd .loadKernel [6400 + 2 ^ 44 * 5]) (up), ?_⟩
  decide +kernel

theorem witness_WarningCutsCommands_15 : ∃ (d : Nat) (k : Nat) (c : Cmd) (s : State) (j : Nat), c.phase ≠ Phase.done ∧ c.opcode =
      Op.loadKernel.code ∧ s.cmd d c.pos = some c ∧ k = c.arg 1 44 4 ∧ s.anv.runs = [] ∧ j ≠ k := by
  refine ⟨0, 5, cmd .loadKernel [6400 + 2 ^ 44 * 5], withCmd 0 (cmd .loadKernel [6400 + 2 ^ 44 * 5]) (up), 4, ?_⟩
  decide +kernel

theorem witness_WarningCutsCommands_16 : ∃ (d : Nat) (n : Nat) (c : Cmd) (s : State), c.phase ≠ Phase.done ∧ c.opcode = Op.channelAdmit.code
      ∧ s.cmd d c.pos = some c ∧ n = 32 * c.arg 1 0 3 + c.arg 1 3 5 ∧ (s.chan n).admitBy = some (d, c.pos) ∧ s.noRequests := by
  refine ⟨0, 35, cmd .channelAdmit [1 + 3 * 8], withCmd 0 (cmd .channelAdmit [1 + 3 * 8]) (onChan 35 (fun x =>
    { x with admitBy := some (0, 9) }) up), ?_⟩
  iterate 5 refine ⟨by first | exact no_requests_listed (by decide +kernel) (by decide +kernel) | decide +kernel, ?_⟩
  first | exact no_requests_listed (by decide +kernel) (by decide +kernel) | decide +kernel

theorem witness_WarningCutsCommands_17 : ∃ (d : Nat) (n : Nat) (c : Cmd) (s : State) (m : Nat), c.phase ≠ Phase.done ∧ c.opcode =
      Op.channelAdmit.code ∧ s.cmd d c.pos = some c ∧ n = 32 * c.arg 1 0 3 + c.arg 1 3 5 ∧ (s.chan n).admitBy = some (d, c.pos) ∧
      s.noRequests ∧ m < 256 ∧ m ≠ n := by
  refine ⟨0, 35, cmd .channelAdmit [1 + 3 * 8], withCmd 0 (cmd .channelAdmit [1 + 3 * 8]) (onChan 35 (fun x =>
    { x with admitBy := some (0, 9) }) up), 34, ?_⟩
  iterate 7 refine ⟨by first | exact no_requests_listed (by decide +kernel) (by decide +kernel) | decide +kernel, ?_⟩
  first | exact no_requests_listed (by decide +kernel) (by decide +kernel) | decide +kernel

theorem witness_WarningCutsCommands_18 : ∃ (d : Nat) (c : Cmd) (j : Job) (l : Loc) (s : State), c.phase = Phase.running ∧ c.opcode =
      Op.scrub.code ∧ s.cmd d c.pos = some c ∧ j = s.job d c.pos ∧ s.touchesClass 2 (c.arg 3 0 44) 64 = false ∧ s.locate (c.arg 3 0 44) =
      some l ∧ s.chanState l.n = 0 ∧ s.hasRoom l := by
  refine ⟨2, { cmd .scrub [0x1000, 2048, 0x3000] with phase := .running }, (withCmd 2
    ({ cmd .scrub [0x1000, 2048, 0x3000] with phase := .running }) (up)).job 2 9, ⟨65, 0⟩, withCmd 2
    ({ cmd .scrub [0x1000, 2048, 0x3000] with phase := .running }) (up), ?_⟩
  iterate 7 refine ⟨by first | decide +kernel | (unfold State.hasRoom; decide +kernel), ?_⟩
  first | decide +kernel | (unfold State.hasRoom; decide +kernel)

theorem witness_WarningCutsCommands_19 : ∃ (d : Nat) (c : Cmd) (j : Job) (l : Loc) (s : State) (l' : Loc), c.phase = Phase.running ∧
      c.opcode = Op.scrub.code ∧ s.cmd d c.pos = some c ∧ j = s.job d c.pos ∧ s.touchesClass 2 (c.arg 3 0 44) 64 = false ∧ s.locate (c.arg 3
      0 44) = some l ∧ s.chanState l.n = 0 ∧ s.hasRoom l ∧ l' ≠ l := by
  refine ⟨2, { cmd .scrub [0x1000, 2048, 0x3000] with phase := .running }, (withCmd 2
    ({ cmd .scrub [0x1000, 2048, 0x3000] with phase := .running }) (up)).job 2 9, ⟨65, 0⟩, withCmd 2
    ({ cmd .scrub [0x1000, 2048, 0x3000] with phase := .running }) (up), ⟨0, 0⟩, ?_⟩
  iterate 8 refine ⟨by first | decide +kernel | (unfold State.hasRoom; decide +kernel), ?_⟩
  first | decide +kernel | (unfold State.hasRoom; decide +kernel)

theorem witness_WarmStartKeepsMemory_1 : ∃ (a : List Nat) (b : List Nat) (x : Drain) (s : State), s.life.wrstN = true ∧ s.life.drain = some
      x ∧ x.drained = true ∧ (x.kind = DrainKind.wrst ∧ s.life.pwrFailN = true ∧ s.lc = lcWrstDrain ∨ x.kind = DrainKind.pf ∧ s.pfReady =
      true ∧ s.lc = lcPfDone ∨ x.kind = DrainKind.pfEarly ∧ s.pfReady = true ∧ s.lc = lcPfDone ∧ x.from_ = lcWarm) ∧ s.noRequests ∧ (∀ n ∈
      a, n < 256) ∧ (∀ n ∈ b, n < 256) := by
  refine ⟨[0, 255], [], ⟨.pfEarly, 0, true, none, lcWarm⟩, onLife (fun l => { l with coolTicks := 10 ^ 12, pfTicks := 10 ^ 12 }) (onLife
    (fun l => { l with drain := some ⟨.pfEarly, 0, true, none, lcWarm⟩ }) (at_ lcPfDone [])), ?_⟩
  iterate 6 refine ⟨by first | exact no_requests (by decide +kernel) (by decide +kernel) | decide +kernel, ?_⟩
  first | exact no_requests (by decide +kernel) (by decide +kernel) | decide +kernel

theorem witness_CoolantStopsAndResumes_1 : ∃ (s : State), s.life.coolantOk = true ∧ s.flag F.PW_CLK_STAT_PLL_LOCK 0 = true ∧
      s.life.drain = none := by
  refine ⟨up, ?_⟩
  decide +kernel

theorem witness_CoolantStopsAndResumes_2 : ∃ (s : State), s.life.paused = true ∧ s.flag F.PW_COOL_STOPPED 0 = false := by
  refine ⟨onLife (fun l => { l with paused := true }) up, ?_⟩
  decide +kernel

theorem witness_CoolantStopsAndResumes_3 : ∃ (s : State), s.life.coolantOk = false := by
  refine ⟨onLife (fun l => { l with coolantOk := false }) up, ?_⟩
  decide +kernel

theorem witness_CoolantStopsAndResumes_4 : ∃ (s : State), s.life.paused = true ∧ s.life.coolantOk = true ∧ s.fld F.PW_COOL_COOL_HOLD 0 *
      1600000 ≤ s.life.coolTicks ∧ s.life.drain = none := by
  refine ⟨onLife (fun l => { l with paused := true, coolTicks := 160000000 }) up, ?_⟩
  decide +kernel

theorem witness_TickAdvancesGtc_1 : ∃ (s : State), s.pending = [] ∧ s.life.porstN = true ∧ s.flag F.PW_CLK_STAT_PLL_LOCK 0 = true ∧
      s.time.holdUntil = none ∧ s.anv.anvil = [] ∧ s.anv.runs = [] := by
  refine ⟨up, ?_⟩
  decide +kernel

theorem witness_OperatingPointChanges_1 : ∃ (s : State), s.csrOpen = true := by
  refine ⟨up, ?_⟩
  decide +kernel

theorem witness_OperatingPointChanges_2 : ∃ (s : State), s.fld F.PW_OP_CTL_BUSY 0 = 1 ∧ (s.power.opWait = none ∧ s.fld
      F.PW_MON_STAT_STRETCHING 0 = 0 ∧ s.fld F.PW_MON_STAT_SUSPECT 0 = 0 ∨ ∃ w, s.power.opWait = some w ∧ w + 1600 ≤ s.tick ∧ s.fld
      F.PW_MON_STAT_STRETCHING 0 = 0 ∧ ∀ (x : Nat), s.power.lastLow = some x → x + 1600 ≤ s.tick) := by
  refine ⟨puts up [(F.PW_OP_CTL_BUSY, 0, 1), (F.PW_MON_STAT_STRETCHING, 0, 0), (F.PW_MON_STAT_SUSPECT, 0, 0)], ?_⟩
  iterate 1 refine ⟨by first | decide +kernel | exact Or.inl (by decide +kernel), ?_⟩
  first | decide +kernel | exact Or.inl (by decide +kernel)

theorem witness_OperatingPointChanges_3 : ∃ (s : State), s.fld F.PW_OP_CTL_BUSY 0 = 1 ∧ s.power.opWait = none ∧ (s.fld
      F.PW_MON_STAT_STRETCHING 0 = 1 ∨ s.fld F.PW_MON_STAT_SUSPECT 0 ≠ 0) := by
  refine ⟨puts up [(F.PW_OP_CTL_BUSY, 0, 1), (F.PW_MON_STAT_STRETCHING, 0, 0), (F.PW_MON_STAT_SUSPECT, 0, 4)], ?_⟩
  decide +kernel

theorem witness_OperatingPointChanges_4 : ∃ (s : State) (w : Nat), s.fld F.PW_OP_CTL_BUSY 0 = 1 ∧ s.power.opWait = some w ∧ (s.fld
      F.PW_MON_STAT_STRETCHING 0 = 1 ∨ s.tick < w + 1600 ∨ ∃ x, s.power.lastLow = some x ∧ s.tick < x + 1600) := by
  refine ⟨onPower (fun p => { p with opWait := some 5 })
    { puts up [(F.PW_OP_CTL_BUSY, 0, 1), (F.PW_MON_STAT_STRETCHING, 0, 0), (F.PW_MON_STAT_SUSPECT, 0, 0)] with tick := 1604 }, 5, ?_⟩
  iterate 2 refine ⟨by first | decide +kernel | exact Or.inr (Or.inl (by decide +kernel)), ?_⟩
  first | decide +kernel | exact Or.inr (Or.inl (by decide +kernel))

theorem witness_OperatingPointChanges_5 : ∃ (s : State), s.fld F.PW_OP_CTL_BUSY 0 = 0 := by
  refine ⟨up, ?_⟩
  decide +kernel

theorem witness_MonitorsStretchTheClock_1 : ∃ (m : Nat) (below : Nat) (th : Nat) (s : State), m < 64 ∧ s.flag F.PW_CLK_STAT_FUSE_DONE 0 =
      true ∧ s.bit F.PW_MON_STAT_FAILED 0 (m / 8) = false ∧ (th = if 2 ≤ (List.filter (fun r => s.bit F.PW_MON_STAT_FAILED 0 r) (List.range
      8)).length ∨ 0 < m / 8 ∧ s.bit F.PW_MON_STAT_FAILED 0 (m / 8 - 1) = true ∨ s.bit F.PW_MON_STAT_FAILED 0 (m / 8 + 1) = true then s.fld
      F.PW_FUSE_OP_DROOP_TH (s.fld F.PW_OP_CTL_CUR_OP 0) - s.fld F.PW_FUSE_OP_GUARD (s.fld F.PW_OP_CTL_CUR_OP 0) else s.fld
      F.PW_FUSE_OP_DROOP_TH (s.fld F.PW_OP_CTL_CUR_OP 0)) ∧ th ≤ below ∧ s.fld F.PW_MON_STAT_STRETCHING 0 = 0 := by
  refine ⟨63, 30, 30, puts up [(F.PW_MON_STAT_FAILED, 0, 0x40), (F.PW_FUSE_OP_DROOP_TH, 0, 60), (F.PW_FUSE_OP_GUARD, 0, 30),
    (F.PW_MON_STAT_STRETCHING, 0, 0)], ?_⟩
  decide +kernel

theorem witness_MonitorsStretchTheClock_2 : ∃ (m : Nat) (below : Nat) (th : Nat) (s : State), m < 64 ∧ s.flag F.PW_CLK_STAT_FUSE_DONE 0 =
      true ∧ s.bit F.PW_MON_STAT_FAILED 0 (m / 8) = false ∧ (th = if 2 ≤ (List.filter (fun r => s.bit F.PW_MON_STAT_FAILED 0 r) (List.range
      8)).length ∨ 0 < m / 8 ∧ s.bit F.PW_MON_STAT_FAILED 0 (m / 8 - 1) = true ∨ s.bit F.PW_MON_STAT_FAILED 0 (m / 8 + 1) = true then s.fld
      F.PW_FUSE_OP_DROOP_TH (s.fld F.PW_OP_CTL_CUR_OP 0) - s.fld F.PW_FUSE_OP_GUARD (s.fld F.PW_OP_CTL_CUR_OP 0) else s.fld
      F.PW_FUSE_OP_DROOP_TH (s.fld F.PW_OP_CTL_CUR_OP 0)) ∧ th ≤ below ∧ s.fld F.PW_MON_STAT_STRETCHING 0 = 1 := by
  refine ⟨39, 60, 60, puts up [(F.PW_MON_STAT_FAILED, 0, 0x40), (F.PW_FUSE_OP_DROOP_TH, 0, 60), (F.PW_FUSE_OP_GUARD, 0, 30),
    (F.PW_MON_STAT_STRETCHING, 0, 1)], ?_⟩
  decide +kernel

theorem witness_MonitorsStretchTheClock_3 : ∃ (m : Nat) (below : Nat) (th : Nat) (s : State), m < 64 ∧ s.flag F.PW_CLK_STAT_FUSE_DONE 0 =
      true ∧ s.bit F.PW_MON_STAT_FAILED 0 (m / 8) = false ∧ (th = if 2 ≤ (List.filter (fun r => s.bit F.PW_MON_STAT_FAILED 0 r) (List.range
      8)).length ∨ 0 < m / 8 ∧ s.bit F.PW_MON_STAT_FAILED 0 (m / 8 - 1) = true ∨ s.bit F.PW_MON_STAT_FAILED 0 (m / 8 + 1) = true then s.fld
      F.PW_FUSE_OP_DROOP_TH (s.fld F.PW_OP_CTL_CUR_OP 0) - s.fld F.PW_FUSE_OP_GUARD (s.fld F.PW_OP_CTL_CUR_OP 0) else s.fld
      F.PW_FUSE_OP_DROOP_TH (s.fld F.PW_OP_CTL_CUR_OP 0)) ∧ below < th ∧ th ≤ below + 10 := by
  refine ⟨63, 20, 30, puts up [(F.PW_MON_STAT_FAILED, 0, 0x40), (F.PW_FUSE_OP_DROOP_TH, 0, 60), (F.PW_FUSE_OP_GUARD, 0, 30),
    (F.PW_MON_STAT_STRETCHING, 0, 1)], ?_⟩
  decide +kernel

theorem witness_MonitorsStretchTheClock_4 : ∃ (m : Nat) (below : Nat) (th : Nat) (s : State), m < 64 ∧ s.flag F.PW_CLK_STAT_FUSE_DONE 0 =
      true ∧ s.bit F.PW_MON_STAT_FAILED 0 (m / 8) = false ∧ (th = if 2 ≤ (List.filter (fun r => s.bit F.PW_MON_STAT_FAILED 0 r) (List.range
      8)).length ∨ 0 < m / 8 ∧ s.bit F.PW_MON_STAT_FAILED 0 (m / 8 - 1) = true ∨ s.bit F.PW_MON_STAT_FAILED 0 (m / 8 + 1) = true then s.fld
      F.PW_FUSE_OP_DROOP_TH (s.fld F.PW_OP_CTL_CUR_OP 0) - s.fld F.PW_FUSE_OP_GUARD (s.fld F.PW_OP_CTL_CUR_OP 0) else s.fld
      F.PW_FUSE_OP_DROOP_TH (s.fld F.PW_OP_CTL_CUR_OP 0)) ∧ below + 10 < th := by
  refine ⟨63, 19, 30, puts up [(F.PW_MON_STAT_FAILED, 0, 0x40), (F.PW_FUSE_OP_DROOP_TH, 0, 60), (F.PW_FUSE_OP_GUARD, 0, 30),
    (F.PW_MON_STAT_STRETCHING, 0, 1)], ?_⟩
  decide +kernel

theorem witness_MonitorsStretchTheClock_5 : ∃ (m : Nat) (s : State), (s.bit F.PW_MON_STAT_FAILED 0 (m / 8) = true ∨ s.flag
      F.PW_CLK_STAT_FUSE_DONE 0 = false) := by
  refine ⟨48, puts up [(F.PW_MON_STAT_FAILED, 0, 0x40), (F.PW_FUSE_OP_DROOP_TH, 0, 60), (F.PW_FUSE_OP_GUARD, 0, 30),
    (F.PW_MON_STAT_STRETCHING, 0, 0)], ?_⟩
  decide +kernel

theorem witness_MonitorsStretchTheClock_6 : ∃ (s : State), (s.fld F.PW_MON_STAT_STRETCHING 0 = 0 ∨ ∃ x, s.power.lastNear = some x ∧ s.tick <
      x + 16) := by
  refine ⟨up, ?_⟩
  first | decide +kernel | exact Or.inl (by decide +kernel)

theorem witness_MonitorsStretchTheClock_7 : ∃ (s : State), s.fld F.PW_MON_STAT_STRETCHING 0 = 1 ∧ (∀ x, s.power.lastNear =
      some x → x + 16 ≤ s.tick) := by
  refine ⟨onPower (fun p => { p with lastNear := some 0 }) { up.put F.PW_MON_STAT_STRETCHING 0 1 with tick := 16 }, ?_⟩
  exact ⟨by decide +kernel, of_there (x := 0) rfl (by decide)⟩

theorem witness_MonitorsStretchTheClock_8 : ∃ (s : State), s.flag F.PW_CLK_STAT_FUSE_DONE 0 = false := by
  refine ⟨up.put F.PW_CLK_STAT_FUSE_DONE 0 0, ?_⟩
  decide +kernel

theorem witness_MonitorsStretchTheClock_9 : ∃ (off ms : List Int) (s : State), s.flag F.PW_CLK_STAT_FUSE_DONE 0 = true ∧
      off.length = 8 ∧ ms.length = 64 ∧ ((∀ x ∈ off, 40 < x) ∨ ∀ x ∈ off, x < -40) := by
  refine ⟨List.replicate 8 41, List.replicate 64 0, up, ?_⟩
  decide +kernel

theorem witness_MonitorsStretchTheClock_10 : ∃ (off ms : List Int) (s : State), s.flag F.PW_CLK_STAT_FUSE_DONE 0 = true ∧
      off.length = 8 ∧ ms.length = 64 ∧ (¬((∀ x ∈ off, 40 < x) ∨ ∀ x ∈ off, x < -40)) := by
  refine ⟨[0, 40, -50, 60, -70, 0, 0, 0], List.replicate 64 0, up, ?_⟩
  decide +kernel

theorem witness_GovernorAndHeatThrottle_1 : ∃ (e : Nat) (w : Nat) (k : Nat) (s : State), s.flag F.PW_CLK_STAT_PLL_LOCK 0 = true ∧ k = 100 *
      s.fld F.PW_GOV_CFG_WINDOW 0 ∧ k ≤ 1000000 ∧ e = s.blockEnergy - s.power.lastEnergy ∧ w = List.foldl (fun x1 x2 => x1 + x2) 0
      (List.take k (e :: s.power.intervals)) := by
  refine ⟨governed.blockEnergy - governed.power.lastEnergy, ((governed.blockEnergy - governed.power.lastEnergy) ::
    governed.power.intervals).take 100 |>.foldl (· + ·) 0, 100, governed, ?_⟩
  decide +kernel

theorem witness_GovernorAndHeatThrottle_2 : ∃ (temps : List Nat) (hot : Nat) (s : State), (∃ u ∈ s.usedSites, Nat.min 255 (temps.getD u 0) =
      hot) ∧ (∀ u ∈ s.usedSites, Nat.min 255 (temps.getD u 0) ≤ hot) := by
  refine ⟨[70, 300, 3, 3], 255, up, ?_⟩
  decide +kernel

theorem witness_BankGroupsRefreshAndChangeMode_1 : ∃ (n pc bg : Nat) (s : State), n < 256 ∧ pc < 2 ∧ bg < 4 ∧ s.chanState n =
      0 ∧ (s.chan n).selfRefresh = false ∧ (∀ j < 2, s.computing n j ≤ s.plLimit) := by
  refine ⟨0, 1, 3, up, ?_⟩
  decide +kernel

theorem witness_BankGroupsRefreshAndChangeMode_2 : ∃ (n : Nat) (k : Fin 8) (clear : Bool) (s : State), n < 256 ∧ s.chanState
      n = 0 ∧ s.stalled = false ∧ s.inMode n k.val = false ∧ s.computing n (k.val / 4) < s.plLimit := by
  refine ⟨7, 7, true, up, ?_⟩
  decide +kernel

theorem witness_BankGroupsRefreshAndChangeMode_3 : ∃ (n : Nat) (k : Fin 8) (clear : Bool) (s : State), n < 256 ∧ s.chanState
      n = 0 ∧ s.stalled = false ∧ s.inMode n k.val = false ∧ s.plLimit ≤ s.computing n (k.val / 4) := by
  refine ⟨7, 7, true, puts up [(F.CE_PL_STAT_BG_MODE, 7, 0x70)], ?_⟩
  decide +kernel

theorem witness_BankGroupsRefreshAndChangeMode_4 : ∃ (n : Nat) (bgs : BitVec 8) (clear : Bool) (s : State), s.chanState n ≠ 0 := by
  refine ⟨7, 1, false, up.put F.CE_STATE_STATE 7 2, ?_⟩
  decide +kernel

theorem witness_BankGroupsRefreshAndChangeMode_5 : ∃ (n : Nat) (k : Fin 8) (c : Instr) (s : State), (c = .planisherModeExit n
      k ∨ c = .planisherPreempt n k) ∧ n < 256 ∧ s.inMode n k.val = true := by
  refine ⟨7, 7, .planisherPreempt 7 7, puts up [(F.CE_PL_STAT_BG_MODE, 7, 0x80)], ?_⟩
  decide +kernel

theorem witness_BankGroupsRefreshAndChangeMode_6 : ∃ (n : Nat) (k : Fin 8) (c : Instr) (s : State), (c = Instr.planisherModeExit n k ∨ c =
      Instr.planisherPreempt n k) ∧ n < 256 ∧ s.inMode n ↑k = false ∧ (c = Instr.planisherPreempt n k ∨ (s.chan n).plBack.contains ↑k =
      false) := by
  refine ⟨7, 7, .planisherModeExit 7 7, up, ?_⟩
  decide +kernel

theorem witness_BankGroupsRefreshAndChangeMode_7 : ∃ (n : Nat) (k : Fin 8) (c : Instr) (s : State), (c = Instr.planisherModeExit n k ∨ c =
      Instr.planisherPreempt n k) ∧ n < 256 ∧ s.inMode n ↑k = true ∧ c = Instr.planisherPreempt n k := by
  refine ⟨7, 7, .planisherPreempt 7 7, up.put F.CE_PL_STAT_BG_MODE 7 0x80, ?_⟩
  decide +kernel

theorem witness_BankGroupsRefreshAndChangeMode_8 : ∃ (n : Nat) (k : Fin 8) (c : Instr) (s : State), (c = Instr.planisherModeExit n k ∨ c =
      Instr.planisherPreempt n k) ∧ n < 256 ∧ s.inMode n ↑k = false ∧ c = Instr.planisherModeExit n k ∧ (s.chan n).plBack.contains ↑k = true
      := by
  refine ⟨7, 7, .planisherModeExit 7 7, onChan 7 (fun x => { x with plBack := [7] }) up, ?_⟩
  decide +kernel

theorem witness_FencesEndAndChecksReport_1 : ∃ (d pos : Nat) (c : Cmd) (s : State), s.fresh d pos .nop c := by
  refine ⟨63, 9, cmd .nop [], withCmd 63 (cmd .nop []) (up), ?_⟩
  unfold State.fresh; decide +kernel

theorem witness_FencesEndAndChecksReport_2 : ∃ (d pos : Nat) (c : Cmd) (s : State), s.fresh d pos .fence c ∧ (d = 0 ∨
      c.argBit 1 0 = false) ∧ (∀ e < 64, c.argBit 1 0 = true ∨ e = d → ∀ x ∈ (s.drawer e).cmds, c.order ≤ x.order) := by
  refine ⟨0, 9, cmd .fence [1], withCmd 0 (cmd .fence [1]) (up), ?_⟩
  exact ⟨by unfold State.fresh; decide +kernel, by decide +kernel⟩

theorem witness_FencesEndAndChecksReport_3 : ∃ (d pos : Nat) (c : Cmd) (s : State), s.fresh d pos .fence c ∧ (d = 0 ∨
      c.argBit 1 0 = false) ∧ (∃ x ∈ (s.drawer d).cmds, x.order < c.order) := by
  refine ⟨2, 9, cmd .fence [], withCmd 2 (cmd .fence []) (withCmd 2 { cmd .nop [] with pos := 3, order := 1 } up), ?_⟩
  exact ⟨by unfold State.fresh; decide +kernel, by decide +kernel⟩

theorem witness_FencesEndAndChecksReport_4 : ∃ (d pos : Nat) (c : Cmd) (s : State), s.fresh d pos .fence c ∧ d ≠ 0 ∧ c.argBit
      1 0 = true := by
  refine ⟨2, 9, cmd .fence [1], withCmd 2 (cmd .fence [1]) (up), ?_⟩
  exact ⟨by unfold State.fresh; decide +kernel, by decide +kernel⟩

theorem witness_FencesEndAndChecksReport_5 : ∃ (d pos : Nat) (c : Cmd) (s : State), s.fresh d pos .launchAt c ∧ (s.drawer
      d).launch = none ∧ s.gtc + 2 ^ 40 < (c.w 1).toNat := by
  refine ⟨2, 9, cmd .launchAt [2 ^ 40 + 1], withCmd 2 (cmd .launchAt [2 ^ 40 + 1]) (up), ?_⟩
  exact ⟨by unfold State.fresh; decide +kernel, by decide +kernel⟩

theorem witness_FencesEndAndChecksReport_6 : ∃ (d pos : Nat) (c : Cmd) (s : State), s.fresh d pos .powerCap c ∧ (c.arg 1 0 16
      < 280 ∨ 944 < c.arg 1 0 16 ∨ c.arg 1 16 16 < 1 ∨ 10000 < c.arg 1 16 16) := by
  refine ⟨0, 9, cmd .powerCap [279 + 2 ^ 16], withCmd 0 (cmd .powerCap [279 + 2 ^ 16]) (up), ?_⟩
  exact ⟨by unfold State.fresh; decide +kernel, by decide +kernel⟩

theorem witness_FencesEndAndChecksReport_7 : ∃ (d pos : Nat) (c : Cmd) (s : State), s.fresh d pos .query c ∧ (c.arg 3 0 44 %
      64 ≠ 0 ∨ c.arg 1 0 8 = 0 ∨ 5 < c.arg 1 0 8) := by
  refine ⟨0, 9, cmd .query [6, 0, 64], withCmd 0 (cmd .query [6, 0, 64]) (up), ?_⟩
  exact ⟨by unfold State.fresh; decide +kernel, by decide +kernel⟩

theorem witness_FencesEndAndChecksReport_8 : ∃ (d pos : Nat) (c : Cmd) (s : State), s.fresh d pos .offloadAct c ∧ c.arg 2 0
      24 = 0 := by
  refine ⟨0, 9, cmd .offloadAct [0, 0], withCmd 0 (cmd .offloadAct [0, 0]) (up), ?_⟩
  exact ⟨by unfold State.fresh; decide +kernel, by decide +kernel⟩

theorem witness_FencesEndAndChecksReport_9 : ∃ (d pos : Nat) (c : Cmd) (s : State), s.fresh d pos .recallAct c ∧ c.argBit 1
      50 = true ∧ c.argBit 1 49 = false := by
  refine ⟨0, 9, cmd .recallAct [2 ^ 50, 0], withCmd 0 (cmd .recallAct [2 ^ 50, 0]) (up), ?_⟩
  exact ⟨by unfold State.fresh; decide +kernel, by decide +kernel⟩

theorem witness_FencesEndAndChecksReport_10 : ∃ (d pos : Nat) (c : Cmd) (s : State), s.fresh d pos .partitionSet c ∧ c.arg 1
      39 8 = 0 := by
  refine ⟨0, 9, cmd .partitionSet [3], withCmd 0 (cmd .partitionSet [3]) (up), ?_⟩
  exact ⟨by unfold State.fresh; decide +kernel, by decide +kernel⟩

theorem witness_FencesEndAndChecksReport_11 : ∃ (d pos : Nat) (c : Cmd) (s : State), s.fresh d pos .regionSet c ∧ (c.arg 1 10
      10 = 0 ∨ c.arg 1 20 2 = 3) := by
  refine ⟨0, 9, cmd .regionSet [2 ^ 10 + 3 * 2 ^ 20], withCmd 0 (cmd .regionSet [2 ^ 10 + 3 * 2 ^ 20]) (up), ?_⟩
  exact ⟨by unfold State.fresh; decide +kernel, by decide +kernel⟩

theorem witness_GatesOpenAtTheirTime_1 : ∃ (d pos : Nat) (c : Cmd) (s : State), s.fresh d pos .launchAt c ∧ (s.drawer
      d).launch = none ∧ s.gtc < (c.w 1).toNat ∧ (c.w 1).toNat ≤ s.gtc + 2 ^ 40 := by
  refine ⟨2, 9, cmd .launchAt [2 ^ 40, 1], withCmd 2 (cmd .launchAt [2 ^ 40, 1]) (up), ?_⟩
  exact ⟨by unfold State.fresh; decide +kernel, by decide +kernel⟩

theorem witness_GatesOpenAtTheirTime_2 : ∃ (d pos : Nat) (c : Cmd) (s : State), s.fresh d pos .launchAt c ∧ (s.drawer
      d).launch = none ∧ (c.w 1).toNat ≤ s.gtc ∧ c.argBit 2 0 = false := by
  refine ⟨2, 9, cmd .launchAt [0, 0], withCmd 2 (cmd .launchAt [0, 0]) (up), ?_⟩
  exact ⟨by unfold State.fresh; decide +kernel, by decide +kernel⟩

theorem witness_GatesOpenAtTheirTime_3 : ∃ (d : Nat) (l : Launch) (c : Cmd) (s : State), (s.drawer d).launch = some l ∧
      l.opened = none ∧ l.t ≤ s.gtc ∧ l.arm = false ∧ s.cmd d l.pos = some c := by
  refine ⟨2, ⟨9, 0, false, true, none, 0, 0, none⟩, cmd .launchAt [], onDrawer 2 (fun x =>
    { x with launch := some ⟨9, 0, false, true, none, 0, 0, none⟩ }) (withCmd 2 (cmd .launchAt []) up), ?_⟩
  decide +kernel

theorem witness_GatesOpenAtTheirTime_4 : ∃ (d : Nat) (l : Launch) (p : Nat) (g : Nat) (c : Cmd) (x : Cmd) (s : State), (s.drawer d).launch =
      some l ∧ l.armed = some p ∧ l.opened = some g ∧ s.cmd d p = some c ∧ s.cmd d l.pos = some x ∧ l.pos ≠ p ∧ l.openCycle + 32 ≤
      s.power.cycles ∧ s.stalled = false ∧ c.phase = Phase.armed := by
  refine ⟨2, ⟨9, 7, true, false, some 7, 10, 0, some 4⟩, 4, 7, { cmd .copy [] with pos := 4, phase := .armed }, cmd .launchAt [7], onDrawer
    2 (fun x => { x with launch := some ⟨9, 7, true, false, some 7, 10, 0, some 4⟩ }) (withCmd 2
    { cmd .copy [] with pos := 4, phase := .armed } (withCmd 2 (cmd .launchAt [7]) (onPower (fun p => { p with cycles := 42 }) up))), ?_⟩
  decide +kernel

theorem witness_GatesOpenAtTheirTime_5 : ∃ (d : Nat) (l : Launch) (p : Nat) (g : Nat) (c : Cmd) (x : Cmd) (s : State), (s.drawer d).launch =
      some l ∧ l.armed = some p ∧ l.opened = some g ∧ s.cmd d p = some c ∧ s.cmd d l.pos = some x ∧ l.pos ≠ p ∧ l.openCycle + 32 ≤
      s.power.cycles ∧ s.stalled = false ∧ c.phase = Phase.done := by
  refine ⟨2, ⟨9, 7, true, false, some 7, 10, 0, some 4⟩, 4, 7, { cmd .copy [] with pos := 4, phase := .done }, cmd .launchAt [7], onDrawer 2
    (fun x => { x with launch := some ⟨9, 7, true, false, some 7, 10, 0, some 4⟩ }) (withCmd 2
    { cmd .copy [] with pos := 4, phase := .done } (withCmd 2 (cmd .launchAt [7]) (onPower (fun p => { p with cycles := 42 }) up))), ?_⟩
  decide +kernel

theorem witness_GatesOpenAtTheirTime_6 : ∃ (d : Nat) (l : Launch) (s : State), (s.drawer d).launch = some l ∧ (l.opened = none ∨
      s.power.cycles < l.openCycle + 32 ∨ s.stalled = true ∨ l.armed = none) := by
  refine ⟨2, ⟨9, 7, true, false, some 7, 10, 0, some 4⟩, onDrawer 2 (fun x =>
    { x with launch := some ⟨9, 7, true, false, some 7, 10, 0, some 4⟩ }) (onPower (fun p => { p with cycles := 41 }) up), ?_⟩
  decide +kernel

theorem witness_GatesOpenAtTheirTime_7 : ∃ (d pos : Nat) (c : Cmd) (s : State), s.fresh d pos .barrier c ∧ (∀ e < 64, ∀ b,
      (s.drawer e).barrier = some b → b.id ≠ c.arg 1 0 4) := by
  refine ⟨2, 9, cmd .barrier [0x35, 7], withCmd 2 (cmd .barrier [0x35, 7]) (up), ?_⟩
  exact ⟨by unfold State.fresh; decide +kernel, by intro e he; apply of_none; revert he; revert e; decide +kernel⟩

theorem witness_GatesOpenAtTheirTime_8 : ∃ (d r : Nat) (b : Barrier) (c : Cmd) (s : State), (s.drawer d).barrier = some b ∧
      b.release = some r ∧ s.cmd d b.pos = some c ∧ r ≤ s.gtc := by
  refine ⟨2, 0, ⟨9, 1, 2, none, some 0⟩, cmd .barrier [], onDrawer 2 (fun x =>
    { x with barrier := some ⟨9, 1, 2, none, some 0⟩ }) (withCmd 2 (cmd .barrier []) up), ?_⟩
  decide +kernel

theorem witness_GatesOpenAtTheirTime_9 : ∃ (d r : Nat) (b : Barrier) (c : Cmd) (s : State), (s.drawer d).barrier = some b ∧
      b.release = some r ∧ s.cmd d b.pos = some c ∧ s.gtc < r := by
  refine ⟨2, 1, ⟨9, 1, 2, none, some 1⟩, cmd .barrier [], onDrawer 2 (fun x =>
    { x with barrier := some ⟨9, 1, 2, none, some 1⟩ }) (withCmd 2 (cmd .barrier []) up), ?_⟩
  decide +kernel

theorem witness_GatesOpenAtTheirTime_10 : ∃ (d : Nat) (x : Nat) (b : Barrier) (c : Cmd) (s : State), (s.drawer d).barrier = some b ∧
      b.release = none ∧ b.timeout = some x ∧ x ≤ s.tick ∧ s.cmd d b.pos = some c := by
  refine ⟨2, 0, ⟨9, 1, 2, some 0, none⟩, cmd .barrier [], onDrawer 2 (fun x => { x with barrier := some ⟨9, 1, 2, some 0, none⟩ }) (withCmd
    2 (cmd .barrier []) (up.put F.GT_CTL_SYNC_EN 0 1)), ?_⟩
  decide +kernel

theorem witness_QueryWritesSnapshot_1 : ∃ (d pos : Nat) (c : Cmd) (l : Loc) (s : State), s.fresh d pos .query c ∧ c.arg 3 0
      44 % 64 = 0 ∧ 1 ≤ c.arg 1 0 8 ∧ c.arg 1 0 8 ≤ 5 ∧ (d = 0 ∨ c.arg 1 0 8 = 5) ∧ (c.arg 1 0 8 = 2 → (s.bucketBase (c.arg 2
      0 44)).isSome = true) ∧ s.badWindow (c.arg 3 0 44) 64 = false ∧ s.foreign d (c.arg 3 0 44) 64 = false ∧ s.touchesClass
      2 (c.arg 3 0 44) 64 = false ∧ s.bucketsIn (c.arg 3 0 44) 64 = [] ∧ s.rangeHeld (c.arg 3 0 44) 64 = false ∧ s.locate
      (c.arg 3 0 44) = some l ∧ s.chanState l.n = 0 ∧ s.hasRoom l := by
  refine ⟨2, 9, cmd .query [5, 0, 64 * 5], ⟨0, 5⟩, withCmd 2 (cmd .query [5, 0, 64 * 5]) (up.put F.RG_GRAN_OWNER 0 2), ?_⟩
  iterate 13 refine ⟨by first | decide +kernel | (unfold State.fresh; decide +kernel) | (unfold State.hasRoom; decide +kernel), ?_⟩
  first | decide +kernel | (unfold State.fresh; decide +kernel) | (unfold State.hasRoom; decide +kernel)

theorem witness_PartitionsAndCapTakeEffect_1 : ∃ (d : Nat) (pos : Nat) (p : Nat) (c : Cmd) (s : State), s.fresh d pos Op.partitionSet c ∧ p
      = c.arg 1 0 6 ∧ c.arg 1 39 8 ≠ 0 ∧ c.arg 1 26 13 ≤ 4096 ∧ c.arg 4 0 44 % 2048 = 0 ∧ (p = 0 → c.argBit 1 6 = true) ∧ s.badWindow (c.arg
      4 0 44) (c.arg 5 0 32 * 2048) = false ∧ s.foreign d (c.arg 4 0 44) (c.arg 5 0 32 * 2048) = false ∧ s.poolForeign p (c.arg 4 0 44)
      (c.arg 5 0 32 * 2048) = false ∧ s.touchesClass 2 (c.arg 4 0 44) (c.arg 5 0 32 * 2048) = false ∧ (s.chest p).live = [] := by
  refine ⟨0, 9, 3, cmd .partitionSet [3 + 64 + 5 * 2 ^ 39 + 7 * 2 ^ 10 + 2 ^ 26 * 4096, 0xff, 5 + 3 * 2 ^ 16, 2048, 4], withCmd 0 (cmd
    .partitionSet [3 + 64 + 5 * 2 ^ 39 + 7 * 2 ^ 10 + 2 ^ 26 * 4096, 0xff, 5 + 3 * 2 ^ 16, 2048, 4]) (up.put F.RG_GRAN_OWNER 0 3), ?_⟩
  iterate 10 refine ⟨by first | decide +kernel | (unfold State.fresh; decide +kernel), ?_⟩
  first | decide +kernel | (unfold State.fresh; decide +kernel)

theorem witness_PartitionsAndCapTakeEffect_2 : ∃ (d : Nat) (pos : Nat) (c : Cmd) (s : State), s.fresh d pos Op.powerCap c ∧ 280 ≤ c.arg 1 0
      16 ∧ c.arg 1 0 16 ≤ 944 ∧ 1 ≤ c.arg 1 16 16 ∧ c.arg 1 16 16 ≤ 10000 ∧ (∀ k < 4, ∃ i < 4, c.arg 2 (4 * i) 4 = k) := by
  refine ⟨0, 9, cmd .powerCap [944 + 2 ^ 16 * 10000, 0x3210], withCmd 0 (cmd .powerCap [944 + 2 ^ 16 * 10000, 0x3210]) (up), ?_⟩
  iterate 5 refine ⟨by first | decide +kernel | (unfold State.fresh; decide +kernel), ?_⟩
  first | decide +kernel | (unfold State.fresh; decide +kernel)

theorem witness_RegionSetTakesEffect_1 : ∃ (d : Nat) (pos : Nat) (lo : Nat) (hi : Nat) (c : Cmd) (s : State), s.fresh d pos Op.regionSet c ∧
      lo = c.arg 1 0 10 ∧ hi = lo + c.arg 1 10 10 ∧ lo < hi ∧ hi ≤ 768 ∧ hi * gib ≤ s.windowEnd ∧ c.arg 1 20 2 < 3 ∧ s.earlierRuns d c true
      = false ∧ (s.fld F.RG_GRAN_BUSY lo = 0 → ∀ e ∈ s.regionChecks lo hi (c.arg 1 20 2) (c.argBit 1 28), e.1 = false) ∧ s.allServed ∧
      s.sound ∧ s.noRequests ∧ s.mem.ground = [] ∧ s.mem.mends = [] ∧ (∀ g < 768, s.granClass g ≠ 2) ∧ c.arg 1 20 2 ≠ 2 ∧ (c.argBit 1 28 =
      true ∨ c.arg 1 20 2 ≠ 0 ∨ ∀ (l : Loc), s.ueAt l = false) := by
  refine ⟨0, 9, 0, 1, regionCmd, regionState, ?_⟩
  iterate 16 refine ⟨by
      first
        | exact served_of (by decide +kernel)
        | exact sound_of (by decide +kernel) (by decide +kernel) (by decide +kernel)
        | exact no_requests (by decide +kernel) (by decide +kernel)
        | exact unmended_of (by decide +kernel)
        | decide +kernel
        | (unfold State.fresh; decide +kernel)
        | exact Or.inl (by decide +kernel),
    ?_⟩
  first
    | exact served_of (by decide +kernel)
    | exact sound_of (by decide +kernel) (by decide +kernel) (by decide +kernel)
    | exact no_requests (by decide +kernel) (by decide +kernel)
    | exact unmended_of (by decide +kernel)
    | decide +kernel
    | (unfold State.fresh; decide +kernel)
    | exact Or.inl (by decide +kernel)

theorem witness_ChestExtents_1 : ∃ (d : Nat) (pos : Nat) (a : Nat) (c : Cmd) (s : State), s.fresh d pos Op.offloadAct c ∧ c.arg 2 0 24 ≠ 0 ∧
      c.granted F.PA_CFG_ACT_FIXED = 0 ∧ (∀ e ∈ (s.chest d).live, (s.chest d).base ≤ e.addr ∧ 0 < e.size) ∧ (s.chest d).base ≤ a ∧ a + c.arg
      2 0 24 * 2048 ≤ (s.chest d).base + (s.chest d).size ∧ (∀ e ∈ (s.chest d).live, a + c.arg 2 0 24 * 2048 ≤ e.addr ∨ e.addr + e.size ≤ a)
      ∧ (∀ (b : Nat), (s.chest d).base ≤ b → b + c.arg 2 0 24 * 2048 ≤ (s.chest d).base + (s.chest d).size → (∀ e ∈ (s.chest d).live, b +
      c.arg 2 0 24 * 2048 ≤ e.addr ∨ e.addr + e.size ≤ b) → a ≤ b) := by
  refine ⟨3, 9, 12288, cmd .offloadAct [0x75, 2], chestUp, ?_⟩
  iterate 7 refine ⟨by first | exact chestUp_lowest | decide +kernel | (unfold State.fresh; decide +kernel), ?_⟩
  first | exact chestUp_lowest | decide +kernel | (unfold State.fresh; decide +kernel)

theorem witness_ChestExtents_2 : ∃ (d : Nat) (pos : Nat) (c : Cmd) (e : Extent) (s : State), s.fresh d pos Op.recallAct c ∧ c.granted
      F.PA_CFG_ACT_FIXED = 0 ∧ e ∈ (s.chest d).live ∧ e.addr = c.arg 1 0 44 ∧ c.argBit 1 50 = true ∧ c.argBit 1 49 = true := by
  refine ⟨3, 9, cmd .recallAct [8192 + 2 ^ 50 + 2 ^ 49, 0, 0], ⟨8192, 4096, 0, 0⟩, withCmd 3 (cmd .recallAct [8192 + 2 ^ 50 + 2 ^ 49, 0, 0])
    (up.setChest 3 ⟨8192, 20480, [⟨8192, 4096, 0, 0⟩]⟩), ?_⟩
  iterate 5 refine ⟨by first | decide +kernel | (unfold State.fresh; decide +kernel), ?_⟩
  first | decide +kernel | (unfold State.fresh; decide +kernel)

theorem witness_ChestExtents_3 : ∃ (d : Nat) (pos : Nat) (c : Cmd) (e : Extent) (s : State), s.fresh d pos Op.recallAct c ∧ c.granted
      F.PA_CFG_ACT_FIXED = 0 ∧ e ∈ (s.chest d).live ∧ e.addr = c.arg 1 0 44 ∧ c.argBit 1 50 = false ∧ s.gtc ≤ BitVec.toNat (c.w 3) := by
  refine ⟨3, 9, cmd .recallAct [8192, 0, 0], ⟨8192, 4096, 0, 0⟩, withCmd 3 (cmd .recallAct [8192, 0, 0]) (up.setChest 3 ⟨8192, 20480,
    [⟨8192, 4096, 0, 0⟩]⟩), ?_⟩
  iterate 5 refine ⟨by first | decide +kernel | (unfold State.fresh; decide +kernel), ?_⟩
  first | decide +kernel | (unfold State.fresh; decide +kernel)

theorem witness_ChestExtents_4 : ∃ (d pos : Nat) (c : Cmd) (e : Extent) (s : State), s.cmd d pos = some c ∧ c.phase =
      .running ∧ c.opcode = Op.recallAct.code ∧ (c.w 3).toNat ≤ s.gtc ∧ s.stalled = false ∧ ((s.chest d).live.find? fun x =>
      x.addr == c.arg 1 0 44) = some e ∧ e.size % 64 = 0 ∧ 0 < e.size ∧ c.arg 2 0 44 % 64 = 0 ∧ s.rangeReady e.addr e.size =
      true ∧ s.rangeHeld e.addr e.size = false := by
  refine ⟨3, 9, { cmd .recallAct [8192 + 2 ^ 49 + 7 * 2 ^ 44, 192, 0] with phase := .running }, ⟨8192, 4096, 0, 0⟩, withCmd 3
    ({ cmd .recallAct [8192 + 2 ^ 49 + 7 * 2 ^ 44, 192, 0] with phase := .running }) (up.setChest 3 ⟨8192, 20480, [⟨8192,
    4096, 0, 0⟩]⟩), ?_⟩
  iterate 10 refine ⟨by first | exact ready_of (served_of (by decide +kernel)) _ _ | decide +kernel, ?_⟩
  first | exact ready_of (served_of (by decide +kernel)) _ _ | decide +kernel

theorem witness_CommandsStartAndComplete_1 : ∃ (d : Nat) (pos : Nat) (x : SectorBits) (ws : List Word) (f : Option Status) (s : State),
      s.startable d = true ∧ s.turnOf d = true ∧ s.ringRetired d = false ∧ s.arms d = false ∧ s.cached (s.sqEntry d (s.sqHead d)) [x] ∧ ws =
      List.map (sectorWord x) (List.range 8) ∧ pos = s.sqHead d + 2 ^ 17 * (s.drawer d).epoch ∧
      (f = match Op.ofCode (bits (sectorWord x 0) 0 8) with
        | none => some Status.badOpcode
        | some o => if o.onlyD0 = true ∧ d ≠ 0 then some Status.notPermitted else if o.formOk ws = true then none else some Status.badArg)
      := by
  refine ⟨2, 3, sec [1], words (sec [1]), none, hold 0x30C0 (sec [1]) (rings 2 up), ?_⟩
  iterate 7 refine ⟨by first | decide +kernel | exact ring_of (served_of (by decide +kernel)) _ | exact cached_of (by decide +kernel), ?_⟩
  first | decide +kernel | exact ring_of (served_of (by decide +kernel)) _ | exact cached_of (by decide +kernel)

theorem witness_CommandsStartAndComplete_2 : ∃ (d : Nat) (pos : Nat) (a : Nat) (ph : Nat) (c : Cmd) (x : SectorBits) (l : Loc) (w : List
      Word) (s : State), s.cmd d pos = some c ∧ c.phase = Phase.done ∧ d < 64 ∧ s.stalled = false ∧ s.writesOut d pos = false ∧ s.rowsOut d
      c = false ∧ s.writesLate = false ∧ s.flag F.DR_STAT_RING_LOST d = false ∧ c.lostRing = false ∧ (s.flag F.DR_CTL_ENABLE d = true ∨
      s.ringRetired d = false) ∧ s.isArmed d pos = false ∧ a = s.cqEntry d (s.cqTail d) ∧ s.touchesRetired a 32 = false ∧ s.rangeReady a 32
      = true ∧ s.locate (a / 64 * 64) = some l ∧ s.cached (a / 64 * 64) [x] ∧ s.chanState l.n = 0 ∧ s.noRequests ∧ (∀ b ∈ s.draws.buckets,
      (d, pos) ∉ b.readers) ∧ ph = 1 - (s.drawer d).records / s.cqSize d % 2 ∧ (w = [BitVec.ofNat 64 (((c.portStatus.getD c.status).code +
      c.opcode * 2 ^ 8 + ph * 2 ^ 16 + if c.late = true then 2 ^ 17 else 0) + c.cmdId * 2 ^ 32), BitVec.ofNat 64 (c.pos % 2 ^ 17 + c.detail
      % 2 ^ 32 * 2 ^ 32), BitVec.ofNat 64 c.result, BitVec.ofNat 64 s.gtc]) := by
  refine ⟨2, 9, 0x4060, 1, { cmd .loadKernel [] with phase := .done, status := .okCorrected, detail := 5, result := 77, late := true }, sec
    [1, 2], ⟨2, 1⟩, ({ cmd .loadKernel [] with phase := .done, status := .okCorrected, detail := 5, result := 77, late := true } :
    Cmd).record 1 0, hold 0x4040 (sec [1, 2]) (withCmd 2
    { cmd .loadKernel [] with phase := .done, status := .okCorrected, detail := 5, result := 77, late := true } (puts (rings 2 up)
    [(F.DR_STAT_CQ_TAIL, 2, 3), (F.DR_CTL_IRQ_EN, 2, 1)])), ?_⟩
  iterate 20 refine ⟨by
      first
        | exact ready_of (served_of (by decide +kernel)) _ _
        | exact touches_of (served_of (by decide +kernel)) _ _
        | exact cached_of (by decide +kernel)
        | exact no_requests (by decide +kernel) (by decide +kernel)
        | decide +kernel,
    ?_⟩
  first
    | exact ready_of (served_of (by decide +kernel)) _ _
    | exact touches_of (served_of (by decide +kernel)) _ _
    | exact cached_of (by decide +kernel)
    | exact no_requests (by decide +kernel) (by decide +kernel)
    | decide +kernel

theorem witness_BucketsOpenAndClose_1 : ∃ (d pos : Nat) (c : Cmd) (s : State), s.fresh d pos .bucketOpen c ∧ (∀ e ∈
      s.openChecks d c, e.1 = false) ∧ s.linesToSpill (c.arg 1 0 44) (openBucket c d 0 []).lines = [] := by
  refine ⟨0, 9, granting [(F.PA_CFG_BKT_QUOTA, 0, 9)] 0 (cmd .bucketOpen [0x60800 + 2 ^ 44 * 100 + 2 ^ 52 * 90, 70 + 2 ^ 21 * 3 + 2 ^ 37 * 2, 0]),
    withCmd 0 (granting [(F.PA_CFG_BKT_QUOTA, 0, 9)] 0 (cmd .bucketOpen [0x60800 + 2 ^ 44 * 100 + 2 ^ 52 * 90, 70 + 2 ^ 21 * 3 + 2 ^ 37 * 2, 0]))
      (puts up [(F.PA_CFG_BKT_QUOTA, 0, 9), (F.RG_GRAN_CLASS, 0, 1)]), ?_⟩
  exact ⟨by unfold State.fresh; decide +kernel, by decide +kernel⟩

theorem witness_BucketsOpenAndClose_2 : ∃ (d pos : Nat) (c : Cmd) (b : Bucket) (s : State), s.fresh d pos .bucketClose c ∧
      s.bucketBase (c.arg 1 0 44) = some b ∧ (d = 0 ∨ b.owner = d) ∧ b.closer = none ∧ b.st = .opened ∧ c.argBit 1 44 = false := by
  refine ⟨2, 9, cmd .bucketClose [0x60800], bkt .opened, withCmd 2 (cmd .bucketClose [0x60800]) (withBucket (bkt .opened)
    up), ?_⟩
  exact ⟨by unfold State.fresh; decide +kernel, by decide +kernel⟩

theorem witness_BucketsOpenAndClose_3 : ∃ (d pos : Nat) (c : Cmd) (b : Bucket) (s : State), s.fresh d pos .bucketClose c ∧
      s.bucketBase (c.arg 1 0 44) = some b ∧ (d = 0 ∨ b.owner = d) ∧ b.closer = none ∧ b.st = .opened ∧ c.argBit 1 44 = true := by
  refine ⟨2, 9, cmd .bucketClose [0x60800 + 2 ^ 44], bkt .opened, withCmd 2 (cmd .bucketClose [0x60800 + 2 ^ 44]) (withBucket
    (bkt .opened) up), ?_⟩
  exact ⟨by unfold State.fresh; decide +kernel, by decide +kernel⟩

theorem witness_BucketsOpenAndClose_4 : ∃ (d pos : Nat) (c : Cmd) (b : Bucket) (s : State), s.fresh d pos .bucketClose c ∧
      s.bucketBase (c.arg 1 0 44) = some b ∧ (d = 0 ∨ b.owner = d) ∧ b.closer = none ∧ b.st = .complete := by
  refine ⟨2, 9, cmd .bucketClose [0x60800], bkt .complete, withCmd 2 (cmd .bucketClose [0x60800]) (withBucket (bkt .complete)
    up), ?_⟩
  exact ⟨by unfold State.fresh; decide +kernel, by decide +kernel⟩

theorem witness_BucketsOpenAndClose_5 : ∃ (d pos : Nat) (c : Cmd) (b : Bucket) (s : State), s.fresh d pos .bucketClose c ∧
      s.bucketBase (c.arg 1 0 44) = some b ∧ (d = 0 ∨ b.owner = d) ∧ b.closer = none ∧ (b.st = .closed ∨ b.st = .inUse) := by
  refine ⟨2, 9, cmd .bucketClose [0x60800], bkt .inUse, withCmd 2 (cmd .bucketClose [0x60800]) (withBucket (bkt .inUse) up),
    ?_⟩
  exact ⟨by unfold State.fresh; decide +kernel, by decide +kernel⟩

theorem witness_BucketsOpenAndClose_6 : ∃ (d : Nat) (pos : Nat) (c : Cmd) (b : Bucket) (s : State), s.fresh d pos Op.bucketDiscard c ∧
      s.bucketBase (c.arg 1 0 44) = some b ∧ (d = 0 ∨ b.owner = d) ∧ b.st ≠ BState.inUse := by
  refine ⟨2, 9, cmd .bucketDiscard [0x60800], { bkt .opened with closer := some (5, 3) }, withCmd 2 (cmd .bucketDiscard [0x60800])
    (withBucket { bkt .opened with closer := some (5, 3) } up), ?_⟩
  iterate 3 refine ⟨by first | decide +kernel | (unfold State.fresh; decide +kernel), ?_⟩
  first | decide +kernel | (unfold State.fresh; decide +kernel)

theorem witness_BucketsOpenAndClose_7 : ∃ (base : Nat) (b : Bucket) (s : State), s.bucketBase base = some b ∧ b.base = base ∧ b.sweeping =
      true ∧ b.spilled = [] ∧ b.result = 0 ∧ (∀ x ∈ s.draws.buckets, x.spilled = []) := by
  refine ⟨0x60800, { bkt .complete with closer := some (5, 3), sweeping := true, hist := true }, withBucket
    { bkt .complete with closer := some (5, 3), sweeping := true, hist := true } up, ?_⟩
  decide +kernel

theorem witness_KernelLoads_1 : ∃ (d : Nat) (pos : Nat) (a : Nat) (k : Nat) (n : Nat) (c : Cmd) (ds : List SectorBits) (bs : List Byte) (s :
      State), s.fresh d pos Op.loadKernel c ∧ a = c.arg 1 0 44 ∧ k = c.arg 1 44 4 ∧ a % 64 = 0 ∧ bs = List.take n (List.flatMap (bytesOf 64)
      ds) ∧ ds.length = (n + 63) / 64 ∧ s.slotUsed c.order k = false ∧ s.slotLoading c.order k = false ∧ s.allServed ∧ s.cached a ds ∧
      imageOk bs = true ∧ imageBytes (imageField bs 2 2) = n ∧ s.badWindow a n = false ∧ s.foreign d a n = false ∧ s.life.drain = none ∧
      s.rangeHeld a n = false := by
  refine ⟨0, 9, 6400, 5, 368, cmd .loadKernel [6400 + 2 ^ 44 * 5], sectorsOfBytes image, image, withCmd 0 (cmd .loadKernel [6400 + 2 ^ 44 *
    5]) (holdAll 6400 (sectorsOfBytes image) up), ?_⟩
  iterate 15 refine ⟨by
      first
        | exact served_of (by decide +kernel)
        | exact cached_of (by decide +kernel)
        | decide +kernel
        | (unfold State.fresh; decide +kernel),
    ?_⟩
  first
    | exact served_of (by decide +kernel)
    | exact cached_of (by decide +kernel)
    | decide +kernel
    | (unfold State.fresh; decide +kernel)

theorem witness_RunsAndEntriesStart_1 : ∃ (o : Op) (i : Instr) (d pos : Nat) (c : Cmd) (r : Run) (s : State), (o = .update ∧
      i = .update d pos ∨ o = .emit ∧ i = .emit d pos) ∧ s.fresh d pos o c ∧ s.slotLoading c.order (c.arg 1 57 4) = false ∧
      s.listReady o c = true ∧ (s.smithCheck d o c).1 = .run r ∧ (∀ e ∈ r.entries, ∀ x ∈ e.ins, x.2.format ≠ .dx64) := by
  refine ⟨.update, .update 2 9, 2, 9, updateCmd, theRun, withCmd 2 updateCmd runState, ?_⟩
  iterate 4 refine ⟨by
      first
        | exact list_of (served_of (by decide +kernel)) (by decide +kernel) _ _
        | decide +kernel
        | (unfold State.fresh; decide +kernel),
    ?_⟩
  first | exact list_of (served_of (by decide +kernel)) (by decide +kernel) _ _ | decide +kernel | (unfold State.fresh; decide +kernel)

theorem witness_RunsAndEntriesStart_2 : ∃ (o : Op) (i : Instr) (d pos n : Nat) (st : Status) (c : Cmd) (s : State), (o =
      .update ∧ i = .update d pos ∨ o = .emit ∧ i = .emit d pos) ∧ s.fresh d pos o c ∧ s.slotLoading c.order (c.arg 1 57 4) =
      false ∧ s.listReady o c = true ∧ (s.smithCheck d o c).1 = .refused st n := by
  refine ⟨.emit, .emit 2 9, 2, 9, 0xFFFF, .notPermitted, cmd .emit runWords, withCmd 2 (cmd .emit runWords) runState, ?_⟩
  iterate 4 refine ⟨by
      first
        | exact list_of (served_of (by decide +kernel)) (by decide +kernel) _ _
        | decide +kernel
        | (unfold State.fresh; decide +kernel),
    ?_⟩
  first | exact list_of (served_of (by decide +kernel)) (by decide +kernel) _ _ | decide +kernel | (unfold State.fresh; decide +kernel)

theorem witness_RunsAndEntriesStart_3 : ∃ (d : Nat) (pos : Nat) (c : Cmd) (r : Run) (e : Entry) (k : Kernel) (s : State), s.cmd d pos = some
      c ∧ s.runOf d pos = some r ∧ (c.phase = Phase.running ∨ c.phase = Phase.checked) ∧ s.stalled = false ∧ r.entries[r.next]? = some e ∧
      s.kernel r.slot = some k ∧ r.drawer = d ∧ r.pos = pos ∧ (s.entryAnvils k e).all (s.anvilFree r c.order) = true ∧ s.rangesFree [(r.stab
      + 64 * e.sset, 64)] = true ∧ ¬(r.defer = true ∧ s.mustSkip e = true) ∧ e.release = false := by
  refine ⟨2, 9, { updateCmd with phase := .running }, theRun, theEntry, kernelOf image, running theRun runState, ?_⟩
  decide +kernel

theorem witness_RunsAndEntriesStart_4 : ∃ (d : Nat) (pos : Nat) (c : Cmd) (r : Run) (e : Entry) (k : Kernel) (s : State), s.cmd d pos = some
      c ∧ s.runOf d pos = some r ∧ (c.phase = Phase.running ∨ c.phase = Phase.checked) ∧ s.stalled = false ∧ r.entries[r.next]? = some e ∧
      s.kernel r.slot = some k ∧ r.drawer = d ∧ r.pos = pos ∧ (s.entryAnvils k e).all (s.anvilFree r c.order) = true ∧ s.rangesFree [(r.stab
      + 64 * e.sset, 64)] = true ∧ r.defer = true ∧ s.mustSkip e = true ∧ e.result = 0 ∧ e.head ≠ [] := by
  refine ⟨2, 9, { updateCmd with phase := .running }, { theRun with defer := true }, theEntry, kernelOf image, running
    { theRun with defer := true } (runState.put F.CE_STATE_STATE (((runState.locate 0x20000).getD ⟨0, 0⟩).n) 1), ?_⟩
  decide +kernel

theorem witness_FillAndCopyWriteRanges_1 : ∃ (d : Nat) (pos : Nat) (a : Nat) (n : Nat) (c : Cmd) (s : State), s.fresh d pos Op.fill c ∧ a =
      c.arg 1 0 44 ∧ c.arg 2 0 44 = 64 * n ∧ a % 64 = 0 ∧ s.badWindow a (64 * n) = false ∧ s.foreign d a (64 * n) = false ∧ s.bucketsIn a
      (64 * n) = [] ∧ s.rangeHeld a (64 * n) = false ∧ s.touchesClass 2 a (64 * n) = false ∧ s.moverFree c = true ∧ s.mem.mends = [] ∧
      s.allServed ∧ s.sound ∧ (∀ b ∈ s.draws.buckets, b.spilled = []) ∧ s.fld F.SB_CTL_RES_WAYS 0 < 16 := by
  refine ⟨2, 9, 0x1000, 5, cmd .fill [0x1000, 320, 0x123456789abcdef], withCmd 2 (cmd .fill [0x1000, 320, 0x123456789abcdef]) (hold 0x1000
    77 (up.put F.RG_GRAN_OWNER 0 2)), ?_⟩
  iterate 14 refine ⟨by
      first
        | exact served_of (by decide +kernel)
        | exact sound_of (by decide +kernel) (by decide +kernel) (by decide +kernel)
        | decide +kernel
        | (unfold State.fresh; decide +kernel),
    ?_⟩
  first
    | exact served_of (by decide +kernel)
    | exact sound_of (by decide +kernel) (by decide +kernel) (by decide +kernel)
    | decide +kernel
    | (unfold State.fresh; decide +kernel)

theorem witness_FillAndCopyWriteRanges_2 : ∃ (d : Nat) (pos : Nat) (c : Cmd) (x : SectorBits) (src : Tile) (dst : Tile) (s : State), s.fresh
      d pos Op.copy c ∧ s.cached (c.arg 1 0 44) [x] ∧ src = tileOf (List.take 4 (List.map (sectorWord x) (List.range 8))) ∧ dst = tileOf
      (List.drop 4 (List.map (sectorWord x) (List.range 8))) ∧ (s.copyCheck d c).1 = none ∧ s.moverFree c = true ∧ s.rangeHeld (c.arg 1 0
      44) 64 = false ∧ src.scaleMode = 0 ∧ dst.scaleMode = 0 ∧ s.isMended dst.base = false ∧ s.rangesFree [(src.base, src.rows * src.pitch),
      (dst.base, dst.rows * dst.pitch)] = true ∧ s.allServed ∧ s.draws.buckets = [] ∧ s.sound ∧ s.fld F.SB_CTL_RES_WAYS 0 < 16 ∧ 8 *
      Num.rowWords dst.format dst.cols % 64 = 0 ∧ overlap src.base (src.rows * src.pitch) dst.base (dst.rows * dst.pitch) = false ∧ overlap
      (c.arg 1 0 44) 64 dst.base (dst.rows * dst.pitch) = false ∧ (s.readTile src d).2.1 = Status.ok := by
  refine ⟨2, 9, cmd .copy [0x1000], twoTiles, tile 0x2000 0 2 16 64, tile 0x3000 0 2 16 64, withCmd 2 (cmd .copy [0x1000]) (holdAll 0x2000
    [5, 6] (hold 0x1000 twoTiles (up.put F.RG_GRAN_OWNER 0 2))), ?_⟩
  iterate 18 refine ⟨by
      first
        | exact served_of (by decide +kernel)
        | exact sound_of (by decide +kernel) (by decide +kernel) (by decide +kernel)
        | exact cached_of (by decide +kernel)
        | decide +kernel
        | (unfold State.fresh; decide +kernel),
    ?_⟩
  first
    | exact served_of (by decide +kernel)
    | exact sound_of (by decide +kernel) (by decide +kernel) (by decide +kernel)
    | exact cached_of (by decide +kernel)
    | decide +kernel
    | (unfold State.fresh; decide +kernel)

theorem witness_PlanishAndSampleGiveRows_1 : ∃ (d : Nat) (pos : Nat) (c : Cmd) (p : Plan) (s : State), s.fresh d pos Op.planish c ∧ planOf c
      = some p ∧ p.op ≠ PlOp.gatherSum ∧ (s.planCheck d c).1 = none ∧ s.allServed ∧ s.mem.slices = [] ∧ 0 < p.elems ∧ (∀ r ∈ p.dest ::
      p.reads, s.rangeHeld r.1 r.2 = false ∧ s.rangeServed r.1 r.2 = true) ∧ (∀ (u : Nat), (s.unit u).lost = false) ∧ s.planTurn c
      (s.chansOf (p.dest :: p.reads)) = true ∧ (∀ r ∈ p.reads, overlap p.dest.1 p.dest.2 r.1 r.2 = false) := by
  refine ⟨2, 9, cmd .planish [0x20 + 2 ^ 20, 0, 0, 0x40000, 0, 500 + 0x3f800000 * 2 ^ 32], (planOf (cmd .planish [0x20 + 2 ^ 20, 0, 0,
    0x40000, 0, 500 + 0x3f800000 * 2 ^ 32])).getD ⟨.add, .df32, .df32, .df32, 0, 0, 0, 0, 0, 0, 0⟩, withCmd 2 (cmd .planish [0x20 + 2 ^ 20,
    0, 0, 0x40000, 0, 500 + 0x3f800000 * 2 ^ 32]) (puts up [(F.RG_GRAN_OWNER, 0, 2), (F.RG_GRAN_CLASS, 0, 0)]), ?_⟩
  iterate 10 refine ⟨by
      first
        | exact served_of (by decide +kernel)
        | exact no_lost (by decide +kernel)
        | decide +kernel
        | (unfold State.fresh; decide +kernel),
    ?_⟩
  first | exact served_of (by decide +kernel) | exact no_lost (by decide +kernel) | decide +kernel | (unfold State.fresh; decide +kernel)

theorem witness_PlanishAndSampleGiveRows_2 : ∃ (d : Nat) (pos : Nat) (c : Cmd) (p : Sampling) (ks : List Nat) (s : State), s.fresh d pos
      Op.sample c ∧ samplingOf c = some p ∧ (∀ e ∈ s.sampleCheck d c, e.1 = false) ∧ s.allServed ∧ s.rangeServed p.range.1 p.range.2 = true
      ∧ (∀ (u : Nat), (s.unit u).lost = false) ∧ s.planTurn c (s.chansOf [p.range]) = true ∧ s.mem.slices = [] ∧ p.tokens = 0 ∧ c.argBit 6
      49 = true ∧ s.rangeHeld p.range.1 p.range.2 = false ∧ s.rangeHeld 0 0 = false ∧ 0 < p.nrows ∧ ks.length = p.nrows ∧ (∀ r < p.nrows,
      p.token (s.rowCodes p.fmt (p.logits + r * p.pitch) p.vocab) (Gen.bits c.seed 32 (p.row0 + r) p.rstream p.draw) = some (ks.getD r 0))
      := by
  refine ⟨2, 9, cmd .sample [0, 2 + 16 * 2 ^ 32, 0x3f800000 + 0x3f000000 * 2 ^ 32, 3 + 4 * 2 ^ 32, 5 + 7 * 2 ^ 32, 2 ^ 49 + 3 * 2 ^ 44, 64],
    sampling, [13, 15], withCmd 2 (cmd .sample [0, 2 + 16 * 2 ^ 32, 0x3f800000 + 0x3f000000 * 2 ^ 32, 3 + 4 * 2 ^ 32, 5 + 7 * 2 ^ 32, 2 ^ 49
    + 3 * 2 ^ 44, 64]) (puts up [(F.RG_GRAN_OWNER, 0, 2), (F.RG_GRAN_CLASS, 0, 0)]), ?_⟩
  iterate 14 refine ⟨by
      first
        | exact served_of (by decide +kernel)
        | exact no_lost (by decide +kernel)
        | decide +kernel
        | (unfold State.fresh; decide +kernel),
    ?_⟩
  first | exact served_of (by decide +kernel) | exact no_lost (by decide +kernel) | decide +kernel | (unfold State.fresh; decide +kernel)

theorem witness_IntegrityCommandsReport_1 : ∃ (d : Nat) (pos : Nat) (a : Nat) (n : Nat) (c : Cmd) (l : Loc) (s : State), s.fresh d pos
      Op.scrub c ∧ a = c.arg 1 0 44 ∧ c.arg 2 0 44 = 64 * n ∧ a % 2048 = 0 ∧ n % 32 = 0 ∧ c.arg 3 0 44 % 64 = 0 ∧ s.badWindow a (64 * n) =
      false ∧ s.foreign d a (64 * n) = false ∧ s.badWindow (c.arg 3 0 44) 64 = false ∧ s.foreign d (c.arg 3 0 44) 64 = false ∧
      s.touchesClass 2 (c.arg 3 0 44) 64 = false ∧ s.job d pos =
      { drawer := d, pos := pos, next := 0, done := 0, corrected := 0, bad := 0, odd := 0, skipped := 0, first := none, rows := 0, waitFor := none, lock := none : Job }
      ∧ s.allServed ∧ s.locate (c.arg 3 0 44) = some l ∧ s.hasRoom l ∧ s.rangeHeld (c.arg 3 0 44) 64 = false ∧ s.noRequests ∧ s.mem.upsets =
      [] ∧ (∀ e < 64, ∀ x ∈ (s.drawer e).cmds, c.order ≤ x.order) ∧ (∀ i < n, s.granClass ((a + 64 * i) / gib) = 1 ∧ ∀ (x : Loc), s.locate
      (a + 64 * i) = some x → s.chanState x.n = 0 ∧ s.locMended x = false ∧ isPoisoned (s.rawSector x) (s.rawChecks x) = false ∧ ∀ k < 8,
      syndrome (sectorWord (s.rawSector x) k) ((s.rawChecks x).getD k 0) = 0) := by
  refine ⟨2, 9, 0x1000, 32, cmd .scrub [0x1000, 2048, 0x3000], ⟨65, 0⟩, withCmd 2 (cmd .scrub [0x1000, 2048, 0x3000]) (puts up
    [(F.RG_GRAN_OWNER, 0, 2), (F.RG_GRAN_CLASS, 0, 1)]), ?_⟩
  iterate 19 refine ⟨by
      first
        | exact served_of (by decide +kernel)
        | exact no_requests (by decide +kernel) (by decide +kernel)
        | exact clean_of (by decide +kernel)
        | decide +kernel
        | (unfold State.fresh; decide +kernel)
        | (unfold State.hasRoom; decide +kernel),
    ?_⟩
  first
    | exact served_of (by decide +kernel)
    | exact no_requests (by decide +kernel) (by decide +kernel)
    | exact clean_of (by decide +kernel)
    | decide +kernel
    | (unfold State.fresh; decide +kernel)
    | (unfold State.hasRoom; decide +kernel)

theorem witness_IntegrityCommandsReport_2 : ∃ (d : Nat) (pos : Nat) (n : Nat) (k : Nat) (c : Cmd) (l : Loc) (s : State), s.fresh d pos
      Op.rebuild c ∧ n = 32 * c.arg 1 0 3 + c.arg 1 3 5 ∧ c.argBit 1 8 = true ∧ c.arg 2 0 44 = 0 ∧ c.arg 3 0 44 = 0 ∧ c.arg 4 0 44 % 64 = 0
      ∧ s.chanState n = 3 ∧ s.badWindow (c.arg 4 0 44) 64 = false ∧ s.foreign d (c.arg 4 0 44) 64 = false ∧ s.touchesClass 2 (c.arg 4 0 44)
      64 = false ∧ s.job d pos =
      { drawer := d, pos := pos, next := 0, done := 0, corrected := 0, bad := 0, odd := 0, skipped := 0, first := none, rows := 0, waitFor := none, lock := none : Job }
      ∧ s.locate (c.arg 4 0 44) = some l ∧ s.chanState l.n = 0 ∧ s.hasRoom l ∧ s.rangeReady (c.arg 4 0 44) 64 = true ∧ s.rangeHeld (c.arg 4
      0 44) 64 = false ∧ k = 2048 * (s.rebuildRows n c).length := by
  refine ⟨0, 9, 35, 2048 * (rebuildState.rebuildRows 35 rebuildCmd).length, rebuildCmd, ⟨65, 0⟩, rebuildState, ?_⟩
  iterate 16 refine ⟨by first | decide +kernel | (unfold State.fresh; decide +kernel) | (unfold State.hasRoom; decide +kernel), ?_⟩
  rfl

theorem witness_IntegrityCommandsReport_3 : ∃ (d : Nat) (pos : Nat) (n : Nat) (p : Nat) (c : Cmd) (l : Loc) (s : State), s.fresh d pos
      Op.tinker c ∧ n = 32 * c.arg 1 0 3 + c.arg 1 3 5 ∧ p = c.arg 1 8 4 ∧ 1 ≤ p ∧ p ≤ 5 ∧ c.arg 3 0 48 % 2048 = 0 ∧ c.arg 4 0 44 % 64 = 0 ∧
      c.arg 3 0 48 ≤ s.positions n * 2048 ∧ s.chanState n = 3 ∧ s.badWindow (c.arg 4 0 44) 64 = false ∧ s.foreign d (c.arg 4 0 44) 64 =
      false ∧ s.touchesClass 2 (c.arg 4 0 44) 64 = false ∧ s.rangeReady (c.arg 4 0 44) 64 = true ∧ s.rangeHeld (c.arg 4 0 44) 64 = false ∧
      s.locate (c.arg 4 0 44) = some l ∧ s.chanState l.n = 0 ∧ s.hasRoom l ∧ s.mem.wf = true ∧ s.mem.ground = [] ∧ s.mem.upsets = [] := by
  refine ⟨0, 9, 35, 2, cmd .tinker [1 + 3 * 8 + 256 * 2, 0, 4096, 0x3000], ⟨65, 0⟩, withCmd 0 (cmd .tinker [1 + 3 * 8 + 256 * 2, 0, 4096,
    0x3000]) (up.put F.CE_STATE_STATE 35 3), ?_⟩
  iterate 19 refine ⟨by first | decide +kernel | (unfold State.fresh; decide +kernel) | (unfold State.hasRoom; decide +kernel), ?_⟩
  first | decide +kernel | (unfold State.fresh; decide +kernel) | (unfold State.hasRoom; decide +kernel)

theorem witness_IntegrityCommandsReport_4 : ∃ (d pos n p : Nat) (c : Cmd) (s : State), s.fresh d pos .tinker c ∧ n = 32 *
      c.arg 1 0 3 + c.arg 1 3 5 ∧ p = c.arg 1 8 4 ∧ 1 ≤ p ∧ p ≤ 5 ∧ c.arg 3 0 48 % 2048 = 0 ∧ c.arg 4 0 44 % 64 = 0 ∧ c.arg 3
      0 48 ≤ s.positions n * 2048 ∧ s.chanState n < 3 ∧ s.badWindow (c.arg 4 0 44) 64 = false ∧ s.foreign d (c.arg 4 0 44) 64
      = false := by
  refine ⟨0, 9, 35, 2, cmd .tinker [1 + 3 * 8 + 256 * 2, 0, 4096, 0x3000], withCmd 0 (cmd .tinker [1 + 3 * 8 + 256 * 2, 0,
    4096, 0x3000]) up, ?_⟩
  exact ⟨by unfold State.fresh; decide +kernel, by decide +kernel⟩

theorem witness_ChannelsRetireAndReturn_1 : ∃ (d pos n : Nat) (c : Cmd) (s : State), s.fresh d pos .channelRetire c ∧ n = 32
      * c.arg 1 0 3 + c.arg 1 3 5 ∧ c.argBit 1 8 = false ∧ s.chanState n = 0 ∧ s.groupRetired n = false ∧ s.noRequests := by
  refine ⟨0, 9, 127, cmd .channelRetire [3 + 31 * 8], withCmd 0 (cmd .channelRetire [3 + 31 * 8]) up, ?_⟩
  iterate 5 refine ⟨by
      first
        | exact no_requests (by decide +kernel) (by decide +kernel)
        | decide +kernel
        | (unfold State.fresh; decide +kernel),
    ?_⟩
  first | exact no_requests (by decide +kernel) (by decide +kernel) | decide +kernel | (unfold State.fresh; decide +kernel)

theorem witness_ChannelsRetireAndReturn_2 : ∃ (d : Nat) (pos : Nat) (ns : List Nat) (c : Cmd) (s : State), s.fresh d pos Op.channelRetire c
      ∧ c.argBit 1 8 = true ∧ c.arg 1 3 5 = 0 ∧ ns = List.map (fun x => 32 * c.arg 1 0 3 + x) (List.range 32) ∧ (∀ n ∈ ns, s.chanState n = 0
      ∧ s.groupRetired n = false ∨ s.chanState n = 3) ∧ s.noRequests := by
  refine ⟨0, 9, (List.range 32).map fun x => 32 + x, cmd .channelRetire [1 + 256], withCmd 0 (cmd .channelRetire [1 + 256]) (up), ?_⟩
  iterate 5 refine ⟨by
      first
        | exact no_requests (by decide +kernel) (by decide +kernel)
        | decide +kernel
        | (unfold State.fresh; decide +kernel),
    ?_⟩
  first | exact no_requests (by decide +kernel) (by decide +kernel) | decide +kernel | (unfold State.fresh; decide +kernel)

theorem witness_ChannelsRetireAndReturn_3 : ∃ (d : Nat) (pos : Nat) (n : Nat) (c : Cmd) (s : State), s.fresh d pos Op.channelRetire c ∧ n =
      32 * c.arg 1 0 3 + c.arg 1 3 5 ∧ c.argBit 1 8 = false ∧ c.argBit 1 9 = false ∧ s.chanState n < 3 ∧ s.groupRetired n = true := by
  refine ⟨0, 9, 35, cmd .channelRetire [1 + 3 * 8], withCmd 0 (cmd .channelRetire [1 + 3 * 8]) (up.put F.CE_STATE_STATE 3 3), ?_⟩
  iterate 5 refine ⟨by first | decide +kernel | (unfold State.fresh; decide +kernel), ?_⟩
  first | decide +kernel | (unfold State.fresh; decide +kernel)

theorem witness_ChannelsRetireAndReturn_4 : ∃ (d pos n : Nat) (c : Cmd) (s : State), s.fresh d pos .channelAdmit c ∧ n = 32 *
      c.arg 1 0 3 + c.arg 1 3 5 ∧ s.chanState n = 3 := by
  refine ⟨0, 9, 35, cmd .channelAdmit [1 + 3 * 8], withCmd 0 (cmd .channelAdmit [1 + 3 * 8]) (up.put F.CE_STATE_STATE 35 3),
    ?_⟩
  exact ⟨by unfold State.fresh; decide +kernel, by decide +kernel⟩

theorem witness_ChannelsRetireAndReturn_5 : ∃ (d pos : Nat) (c : Cmd) (s : State), s.fresh d pos .channelRetire c ∧ c.argBit
      1 8 = false ∧ s.chanState (32 * c.arg 1 0 3 + c.arg 1 3 5) = 4 := by
  refine ⟨0, 9, cmd .channelRetire [7], withCmd 0 (cmd .channelRetire [7]) up, ?_⟩
  exact ⟨by unfold State.fresh; decide +kernel, by decide +kernel⟩

theorem witness_ChannelsRetireAndReturn_6 : ∃ (d pos : Nat) (c : Cmd) (s : State), s.fresh d pos .channelAdmit c ∧
      s.chanState (32 * c.arg 1 0 3 + c.arg 1 3 5) ≠ 3 := by
  refine ⟨0, 9, cmd .channelAdmit [1], withCmd 0 (cmd .channelAdmit [1]) up, ?_⟩
  exact ⟨by unfold State.fresh; decide +kernel, by decide +kernel⟩

theorem witness_ChannelsRetireAndReturn_7 : ∃ (c : Instr) (n : Nat) (s : State), (c = .caPar n ∨ c = .phy n) ∧ n < 256 ∧
      s.chanState n = 0 := by
  refine ⟨.caPar 127, 127, up, ?_⟩
  decide +kernel

theorem witness_ChannelsRetireAndReturn_8 : ∃ (c : Instr) (n : Nat) (s : State), (c = .caPar n ∨ c = .phy n) ∧ n < 256 ∧
      s.chanState n ≠ 0 := by
  refine ⟨.phy 255, 255, up, ?_⟩
  decide +kernel

theorem witness_ChannelsRetireAndReturn_9 : ∃ (n : Nat) (k : Nat) (o : AdmitOutcome) (s : State), n < 256 ∧ s.chanState n = 1 ∧
      s.life.paused = false ∧ s.drained = false ∧ o.trained = true ∧ o.selfTest = true ∧ (s.slice n).late = [] ∧ s.mem.mends = [] ∧ (s.chan
      n).cause = some k ∧ k < 2 ^ 26 ∧ (s.chan n).admitBy = none ∧ s.locMended { n := n, k := k : Loc } = false ∧ (∀ m < 768, s.granClass m
      ≠ 2) ∧ s.noRequests ∧ (s.slice n).store = [] ∧ s.flag F.IN_CTL_AUTO_REPAIR 0 = false := by
  refine ⟨5, 33, ⟨true, true, []⟩, (onChan 5 (fun x => { x with cause := some 33, resetAt := some 0, selfRefresh := true }) (up.put
    F.CE_STATE_STATE 5 1)).put F.IN_CTL_AUTO_REPAIR 0 0, ?_⟩
  iterate 15 refine ⟨by
      first
        | exact unmended_of (by decide +kernel)
        | exact no_requests_listed (by decide +kernel) (by decide +kernel)
        | decide +kernel,
    ?_⟩
  first | exact unmended_of (by decide +kernel) | exact no_requests_listed (by decide +kernel) (by decide +kernel) | decide +kernel

theorem witness_ChannelsRetireAndReturn_10 : ∃ (c : Instr) (n : Nat) (u : Nat) (o : AdmitOutcome) (s : State), n < 256 ∧ s.chanState n = 1 ∧
      s.life.paused = false ∧ s.drained = false ∧ (s.chan n).admitBy = none ∧ s.noRequests ∧ (s.chan n).resetAt = some u ∧ (∃ m, m / 32 = n
      / 32 ∧ s.chanState m = 0) ∧ (c = Instr.admission n o ∧ (o.trained = false ∨ o.selfTest = false) ∨ c = Instr.admissionDeadline n ∧ u +
      (s.chan n).stoppedTicks + 1600000000 ≤ s.tick) := by
  refine ⟨.admissionDeadline 5, 5, 0, ⟨false, true, []⟩,
    { onChan 5 (fun x => { x with cause := some 33, resetAt := some 0, selfRefresh := true }) (up.put F.CE_STATE_STATE 5 1) with tick := 1600000000 },
    ?_⟩
  iterate 8 refine ⟨by
      first
        | exact no_requests_listed (by decide +kernel) (by decide +kernel)
        | exact ⟨0, by decide +kernel⟩
        | decide +kernel,
    ?_⟩
  first | exact no_requests_listed (by decide +kernel) (by decide +kernel) | exact ⟨0, by decide +kernel⟩ | decide +kernel

theorem witness_ChannelsRetireAndReturn_11 : ∃ (n : Nat) (s : State), n < 256 ∧ s.overdue n = true ∧ s.noRequests ∧ (∀ (m : Nat), m / 32 = n
      / 32 → s.chanState m = 3 ∨ s.overdue m = true) := by
  refine ⟨5, lateSite, ?_⟩
  iterate 3 refine ⟨by
      first
        | exact no_requests_listed (by decide +kernel) (by decide +kernel)
        | exact fun m h => (show ∀ m < 32, lateSite.chanState m = 3 ∨ lateSite.overdue m = true by decide +kernel) m (by omega)
        | decide +kernel,
    ?_⟩
  first
    | exact no_requests_listed (by decide +kernel) (by decide +kernel)
    | exact fun m h => (show ∀ m < 32, lateSite.chanState m = 3 ∨ lateSite.overdue m = true by decide +kernel) m (by omega)
    | decide +kernel

theorem witness_ChannelsRetireAndReturn_12 : ∃ (n u : Nat) (s : State), n < 256 ∧ (s.chan n).resetAt = some u ∧ s.tick < u +
      (s.chan n).stoppedTicks + 1600000000 := by
  refine ⟨5, 0,
    { onChan 5 (fun x => { x with cause := some 33, resetAt := some 0, selfRefresh := true }) (up.put F.CE_STATE_STATE 5 1) with tick := 1599999999 },
    ?_⟩
  decide +kernel

theorem witness_RequestsAreDroppedOrRefused_1 : ∃ (p : Nat) (s : State), p < 32 ∧ s.life.porstN = true ∧ s.life.closing = true ∧ s.flag
      F.PT_STAT_RELEASED p = true := by
  refine ⟨3, onLife (fun l => { l with closing := true }) (ported.put F.PT_STAT_RELEASED 3 1), ?_⟩
  decide +kernel

theorem witness_RequestsAreDroppedOrRefused_2 : ∃ (p : Nat) (s : State), p < 32 ∧ s.life.porstN = true ∧ (s.life.closing = false ∨ s.flag
      F.PT_STAT_RELEASED p = false) ∧ s.flag F.PT_STAT_FAULT p = true := by
  refine ⟨31, ported.put F.PT_STAT_FAULT 31 1, ?_⟩
  decide +kernel

theorem witness_RequestsAreDroppedOrRefused_3 : ∃ (p : Nat) (k : ReqType) (r : PortReq) (s : State), p < 32 ∧ s.life.porstN = true ∧
      (s.life.closing = false ∨ s.flag F.PT_STAT_RELEASED p = false) ∧ s.flag F.PT_STAT_FAULT p = false ∧ r.hdr.good k.code = false := by
  refine ⟨31, .wr, { req .wr 2 0x1000 1 [5] with hdr := { hdr .wr 2 0x1000 1 with hcrc := 3 } }, ported, ?_⟩
  decide +kernel

theorem witness_RequestsAreDroppedOrRefused_4 : ∃ (p : Nat) (k : ReqType) (r : PortReq) (s : State), p < 32 ∧ s.life.porstN = true ∧
      (s.life.closing = false ∨ s.flag F.PT_STAT_RELEASED p = false) ∧ s.flag F.PT_STAT_FAULT p = false ∧ r.hdr.good k.code = true ∧
      r.hdr.tc.toNat < 2 ∧ (((s.port p).account r.hdr.p r.hdr.tc.toNat).held.hdr = 0 ∨ ((s.port p).account r.hdr.p r.hdr.tc.toNat).held.sect
      < carried k r.hdr) := by
  refine ⟨31, .door, req .door 2 0x1000 1 [5], ported, ?_⟩
  decide +kernel

theorem witness_RequestsAreDroppedOrRefused_5 : ∃ (p : Nat) (k : ReqType) (r : PortReq) (st : Status) (hm : Bool) (s : State), s.taken p k r
      ∧ k ≠ ReqType.acc ∧ k ≠ ReqType.door ∧ windowOf r.hdr.a = Window.memory ∧ s.regionHeld r.hdr.a = false ∧ ((st, hm) = if s.partOk p
      r.hdr = false then (Status.notPermitted, false) else if s.formOk k r.hdr = false then (Status.badArg, false) else if s.permitted k
      r.hdr = false then (Status.notPermitted, false) else if s.classOk k r.hdr = false then (Status.regionClass, false) else if failing
      (inbound k r) ≠ 0 then (Status.dataFault, true) else ((badOperand k r).getD Status.ok, false)) ∧ st ≠ Status.ok := by
  refine ⟨3, .wrFinal, ⟨hdr .wrFinal 2 0x1000 2, [inSec 4, ⟨0, 7, false⟩]⟩, .dataFault, true, ported, ?_⟩
  iterate 6 refine ⟨by first | decide +kernel | (unfold State.taken; decide +kernel), ?_⟩
  first | decide +kernel | (unfold State.taken; decide +kernel)

theorem witness_ReadsAndDoorbellsAreAnswered_1 : ∃ (p : Nat) (r : PortReq) (ds : List SectorBits) (s : State), s.accepts p
      .rd r ∧ windowOf r.hdr.a = .memory ∧ ds.length = r.hdr.len ∧ s.cached r.hdr.a ds ∧ s.ports.waits = [] ∧ (∀ n, (s.chan
      n).retry = []) ∧ s.rangeHeld r.hdr.a (64 * r.hdr.len) = false ∧ s.draws.buckets = [] := by
  refine ⟨3, req .rd 2 0x1000 2 [], [5, 6], holdAll 0x1000 [5, 6] ported, ?_⟩
  iterate 6 refine ⟨by
      first
        | exact cached_of (by decide +kernel)
        | exact no_retry (by decide +kernel)
        | decide +kernel
        | (unfold State.accepts State.taken; decide +kernel),
    ?_⟩
  first
    | exact cached_of (by decide +kernel)
    | exact no_retry (by decide +kernel)
    | decide +kernel
    | (unfold State.accepts State.taken; decide +kernel)

theorem witness_ReadsAndDoorbellsAreAnswered_2 : ∃ (p d : Nat) (r : PortReq) (s : State), s.accepts p .rd r ∧ windowOf
      r.hdr.a = .drawer ∧ d = r.hdr.a / 65536 % 64 ∧ r.hdr.a % 65536 = 0 := by
  refine ⟨3, 2, req .rd 2 0xE0000020000 1 [], ported, ?_⟩
  exact ⟨by unfold State.accepts State.taken; decide +kernel, by decide +kernel⟩

theorem witness_ReadsAndDoorbellsAreAnswered_3 : ∃ (p w n : Nat) (r : PortReq) (s : State), s.accepts p .rndrd r ∧ windowOf
      r.hdr.a = .random ∧ n = r.hdr.a / 2 ^ 34 % 64 ∧ w = 4 * 2 ^ s.fld F.CR_RCTX1_WCODE n := by
  refine ⟨3, 32, 2, req .rndrd 2 (0xD0000000000 + 2 * 2 ^ 34 + 64) 2 [], ported.put F.CR_RCTX1_WCODE 2 3, ?_⟩
  exact ⟨by unfold State.accepts State.taken; decide +kernel, by decide +kernel⟩

theorem witness_ReadsAndDoorbellsAreAnswered_4 : ∃ (p d v : Nat) (r : PortReq) (x : InSector) (s : State), s.accepts p .door
      r ∧ windowOf r.hdr.a = .drawer ∧ d = r.hdr.a / 65536 % 64 ∧ r.sectors = [x] ∧ x.fault = false ∧ x.data.toNat = v ∧ v <
      2 ^ 17 ∧ s.flag F.DR_CTL_ENABLE d = true ∧ r.hdr.a % 65536 = 0 ∧ (v + 2 ^ 17 - s.sqHead d) % 2 ^ 17 ≤ s.sqSize d := by
  refine ⟨3, 2, 32, req .door 2 0xE0000020000 1 [32], inSec 32, puts ported [(F.DR_CTL_ENABLE, 2, 1), (F.DR_SQ_BASE_SQ_LOG2,
    2, 5), (F.DR_CQ_BASE_CQ_LOG2, 2, 5)], ?_⟩
  exact ⟨by unfold State.accepts State.taken; decide +kernel, by decide +kernel⟩

theorem witness_ReadsAndDoorbellsAreAnswered_5 : ∃ (p d v : Nat) (r : PortReq) (x : InSector) (s : State), s.accepts p .door
      r ∧ windowOf r.hdr.a = .drawer ∧ d = r.hdr.a / 65536 % 64 ∧ r.sectors = [x] ∧ x.fault = false ∧ x.data.toNat = v ∧ v <
      2 ^ 17 ∧ s.flag F.DR_CTL_ENABLE d = true ∧ r.hdr.a % 65536 = 8 ∧ (s.cqTail d + 2 ^ 17 - v) % 2 ^ 17 ≤ s.cqSize d := by
  refine ⟨3, 2, 2 ^ 17 - 32, req .door 2 0xE0000020008 1 [BitVec.ofNat 512 (2 ^ 17 - 32)], inSec (BitVec.ofNat 512 (2 ^ 17 -
    32)), puts ported [(F.DR_CTL_ENABLE, 2, 1), (F.DR_SQ_BASE_SQ_LOG2, 2, 5), (F.DR_CQ_BASE_CQ_LOG2, 2, 5)], ?_⟩
  exact ⟨by unfold State.accepts State.taken; decide +kernel, by decide +kernel⟩

theorem witness_ReadsAndDoorbellsAreAnswered_6 : ∃ (p d v : Nat) (r : PortReq) (x : InSector) (s : State), s.accepts p .door
      r ∧ windowOf r.hdr.a = .drawer ∧ d = r.hdr.a / 65536 % 64 ∧ r.sectors = [x] ∧ x.fault = false ∧ x.data.toNat = v ∧ v <
      2 ^ 17 ∧ s.flag F.DR_CTL_ENABLE d = true ∧ r.hdr.a % 65536 = 0 ∧ s.sqSize d < (v + 2 ^ 17 - s.sqHead d) % 2 ^ 17 := by
  refine ⟨3, 2, 33, req .door 2 0xE0000020000 1 [33], inSec 33, puts ported [(F.DR_CTL_ENABLE, 2, 1), (F.DR_SQ_BASE_SQ_LOG2,
    2, 5), (F.DR_CQ_BASE_CQ_LOG2, 2, 5)], ?_⟩
  exact ⟨by unfold State.accepts State.taken; decide +kernel, by decide +kernel⟩

theorem witness_WritesLand_1 : ∃ (p : Nat) (r : PortReq) (s : State), s.accepts p ReqType.wr r ∧ windowOf r.hdr.a = Window.memory ∧
      r.hdr.isMasked = false ∧ r.sectors.length = r.hdr.len ∧ s.noRequests ∧ s.rangeHeld r.hdr.a (64 * r.hdr.len) = false ∧ (∀ i <
      r.hdr.len, ∀ (l : Loc), s.locate (r.hdr.a + 64 * i) = some l → s.chanState l.n = 0 ∧ s.hasRoom l) := by
  refine ⟨3, req .wr 2 0x1000 2 [5, 6], hold 0x1000 9 ported, ?_⟩
  iterate 6 refine ⟨by
      first
        | exact no_requests (by decide +kernel) (by decide +kernel)
        | exact rooms_of (by decide +kernel)
        | decide +kernel
        | (unfold State.accepts State.taken; decide +kernel),
    ?_⟩
  first
    | exact no_requests (by decide +kernel) (by decide +kernel)
    | exact rooms_of (by decide +kernel)
    | decide +kernel
    | (unfold State.accepts State.taken; decide +kernel)

theorem witness_WritesLand_2 : ∃ (p : Nat) (r : PortReq) (x m : InSector) (d : SectorBits) (l : Loc) (s : State), s.accepts p
      .wr r ∧ windowOf r.hdr.a = .memory ∧ r.hdr.isMasked = true ∧ r.sectors = [x, m] ∧ x.fault = false ∧ m.fault = false ∧
      m.data.toNat < 2 ^ 64 ∧ m.data ≠ 0 ∧ s.noRequests ∧ s.rangeHeld r.hdr.a 64 = false ∧ s.locate r.hdr.a = some l ∧
      s.cached r.hdr.a [d] ∧ s.chanState l.n = 0 ∧ s.draws.buckets = [] ∧ s.hasRoom l := by
  refine ⟨3, req .wr 2 0x1000 1 [5, 0xf0ff] fun h => { h with masked := 1 }, inSec 5, inSec 0xf0ff, 9, ⟨64, 0⟩, hold 0x1000 9
    ported, ?_⟩
  iterate 14 refine ⟨by
      first
        | exact no_requests (by decide +kernel) (by decide +kernel)
        | exact cached_of (by decide +kernel)
        | decide +kernel
        | (unfold State.accepts State.taken; decide +kernel)
        | (unfold State.hasRoom; decide +kernel),
    ?_⟩
  first
    | exact no_requests (by decide +kernel) (by decide +kernel)
    | exact cached_of (by decide +kernel)
    | decide +kernel
    | (unfold State.accepts State.taken; decide +kernel)
    | (unfold State.hasRoom; decide +kernel)

theorem witness_WritesLand_3 : ∃ (p : Nat) (r : PortReq) (s : State), s.accepts p .wrFinal r ∧ windowOf r.hdr.a = .memory := by
  refine ⟨3, req .wrFinal 2 0x1000 2 [5, 6], ported, ?_⟩
  exact ⟨by unfold State.accepts State.taken; decide +kernel, by decide +kernel⟩

theorem witness_WritesLand_4 : ∃ (i : Instr) (p : Nat) (q : Req) (why : Why) (s : State), s.ports.waits = [⟨q, why⟩] ∧ q.port
      = p ∧ q.kind = .wrFinal ∧ (why = .final ∧ i = .wrFinalLand p q.r.hdr.tag ∨ why = .cleanWay ∧ i = .heldRequestRelease p
      q.r.hdr.tag) ∧ (∀ n, (s.chan n).retry = []) ∧ q.r.hdr.a % 2048 + 64 * q.r.hdr.len ≤ 2048 ∧ q.r.hdr.a % 64 = 0 ∧
      q.r.sectors.length = q.r.hdr.len ∧ (∀ x ∈ q.r.sectors, x.fault = false ∧ x.good = true) ∧ s.regionHeld q.r.hdr.a =
      false ∧ s.rangeHeld q.r.hdr.a (64 * q.r.hdr.len) = false ∧ (s.locate q.r.hdr.a).isSome = true ∧ (∀ i < q.r.hdr.len, ∀
      l, s.locate (q.r.hdr.a + 64 * i) = some l → s.chanState l.n = 0 ∧ s.hasRoom l) := by
  refine ⟨.wrFinalLand 3 7, 3, ⟨3, 5, .wrFinal, req .wrFinal 2 0x1000 2 [5, 6], true, false⟩, .final,
    ported.setWaits [⟨⟨3, 5, .wrFinal, req .wrFinal 2 0x1000 2 [5, 6], true, false⟩, .final⟩], ?_⟩
  iterate 12 refine ⟨by first | exact no_retry (by decide +kernel) | exact rooms_of (by decide +kernel) | decide +kernel, ?_⟩
  first | exact no_retry (by decide +kernel) | exact rooms_of (by decide +kernel) | decide +kernel

theorem witness_AtomsAndContributionsModify_1 : ∃ (p : Nat) (w : Nat) (at_ : Nat) (old : Nat) (new : Nat) (r : PortReq) (x : InSector) (d :
      SectorBits) (l : Loc) (s : State), s.accepts p ReqType.atom r ∧ windowOf r.hdr.a = Window.memory ∧ r.sectors = [x] ∧ x.fault = false ∧
      (w = if r.hdr.asz = 1 then 64 else 32) ∧ BitVec.toNat x.data < 2 ^ (if r.hdr.aop = 6 then 2 * w else w) ∧ s.noRequests ∧ s.rangeHeld
      r.hdr.a (w / 8) = false ∧ s.locate (r.hdr.a / 64 * 64) = some l ∧ s.locate r.hdr.a = some l ∧ s.cached (r.hdr.a / 64 * 64) [d] ∧
      s.chanState l.n = 0 ∧ s.draws.buckets = [] ∧ s.hasRoom l ∧ at_ = 8 * (r.hdr.a % 64) ∧ old = BitVec.toNat d / 2 ^ at_ % 2 ^ w ∧
      (new = match r.hdr.aop.toNat with
        | 0 => (old + BitVec.toNat x.data) % 2 ^ w
        | 1 => old.max (BitVec.toNat x.data)
        | 2 => old.min (BitVec.toNat x.data)
        | 3 => if (BitVec.ofNat w old).toInt < (BitVec.ofNat w (BitVec.toNat x.data)).toInt then BitVec.toNat x.data else old
        | 4 => if (BitVec.ofNat w (BitVec.toNat x.data)).toInt < (BitVec.ofNat w old).toInt then BitVec.toNat x.data else old
        | 5 => BitVec.toNat x.data
        | x_1 => if old = BitVec.toNat x.data % 2 ^ w then BitVec.toNat x.data / 2 ^ w else old)
      := by
  refine ⟨3, 32, 64, 0xfffffff1, 0x7, req .atom 2 0x1008 1 [0x7fffffff1] fun h => { h with aop := 6 }, inSec 0x7fffffff1, sec [5,
    0xfffffff0fffffff1], ⟨64, 0⟩, hold 0x1000 (sec [5, 0xfffffff0fffffff1]) ported, ?_⟩
  iterate 16 refine ⟨by
      first
        | exact no_requests (by decide +kernel) (by decide +kernel)
        | exact cached_of (by decide +kernel)
        | decide +kernel
        | (unfold State.accepts State.taken; decide +kernel)
        | (unfold State.hasRoom; decide +kernel),
    ?_⟩
  first
    | exact no_requests (by decide +kernel) (by decide +kernel)
    | exact cached_of (by decide +kernel)
    | decide +kernel
    | (unfold State.accepts State.taken; decide +kernel)
    | (unfold State.hasRoom; decide +kernel)

theorem witness_AtomsAndContributionsModify_2 : ∃ (p : Nat) (i0 : Nat) (r : PortReq) (b : Bucket) (cs : List Contribution) (s : State),
      s.accepts p ReqType.acc r ∧ windowOf r.hdr.a = Window.memory ∧ s.draws.buckets = [b] ∧ s.bucketAt r.hdr.a = some b ∧ b.owner = r.hdr.p
      ∧ b.st = BState.opened ∧ b.spilled = [] ∧ b.closer = none ∧ accRulesHold b r.hdr r.sectors = true ∧ cs = contributions b r.hdr
      r.sectors ∧ b.arrived + cs.length ≤ b.nelem * b.expect ∧ i0 = (r.hdr.a - b.base) / 8 ∧ s.noRequests ∧ s.rangeStops
      { port := p, seq := s.ports.nextSeq, kind := ReqKind.acc, r := r, credit := true, ue := false : Req } = none := by
  refine ⟨3, 16, req .acc 2 (0x60800 + 8 * 16) 1 [sec [0x3f8000003f800000]], accBucket, contributions accBucket (hdr .acc 2 (0x60800 + 8 *
    16) 1) [inSec (sec [0x3f8000003f800000])], withBucket accBucket ported, ?_⟩
  iterate 13 refine ⟨by
      first
        | exact no_requests (by decide +kernel) (by decide +kernel)
        | decide +kernel
        | (unfold State.accepts State.taken; decide +kernel),
    ?_⟩
  first | exact no_requests (by decide +kernel) (by decide +kernel) | decide +kernel | (unfold State.accepts State.taken; decide +kernel)

theorem witness_BlockWritesAreSent_1 : ∃ (p k : Nat) (w : OutWrite) (rest : List OutWrite) (s : State), p < 32 ∧ s.flag
      F.PT_STAT_FAULT p = false ∧ s.life.drain = none ∧ (s.port p).outq = w :: rest ∧ (s.port p).freeTag = some k ∧ (∀ x ∈
      w.secs, x.good = true) ∧ 1 ≤ s.fld F.PT_STAT_OUT_HDR p ∧ w.secs.length ≤ s.fld F.PT_STAT_OUT_SECT p := by
  refine ⟨3, 0, ⟨0, 9, 2, 4, 0x1000, true, [mkSec 5, mkSec 6]⟩, [], puts (onPort 3 (fun x =>
    { x with outq := [⟨0, 9, 2, 4, 0x1000, true, [mkSec 5, mkSec 6]⟩] }) ported) [(F.PT_STAT_OUT_HDR, 3, 1),
    (F.PT_STAT_OUT_SECT, 3, 2)], ?_⟩
  decide +kernel

theorem witness_BlockWritesAreSent_2 : ∃ (p : Nat) (h : RspHdr) (b : BlockTag) (s : State), p < 32 ∧ s.life.porstN = true ∧
      s.flag F.PT_STAT_FAULT p = false ∧ h.good = true ∧ Tab.get (fun _ => none) (s.port p).btags h.tag.toNat = some b ∧
      b.abandoned = false ∧ h.status = 0 := by
  refine ⟨3, rspHdr 5, ⟨2, 9, true, 0, false⟩, onPort 3 (fun x => { x with btags := [(5, some ⟨2, 9, true, 0, false⟩)] })
    ported, ?_⟩
  decide +kernel

theorem witness_BlockWritesAreSent_3 : ∃ (p : Nat) (h : RspHdr) (s : State), p < 32 ∧ s.life.porstN = true ∧ s.flag
      F.PT_STAT_FAULT p = false ∧ h.good = true ∧ (Tab.get (fun _ => none) (s.port p).btags h.tag.toNat = none) := by
  refine ⟨3, rspHdr 6, onPort 3 (fun x => { x with btags := [(5, some ⟨2, 9, true, 0, false⟩)] }) ported, ?_⟩
  decide +kernel

theorem witness_BlockWritesAreSent_4 : ∃ (p : Nat) (n : Nat) (code : BitVec 4) (r : PortReq) (s : State), p < 32 ∧ s.life.porstN = true ∧
      s.flag F.PT_STAT_FAULT p = false ∧ s.life.closing = false ∧ r.hdr.good code = true ∧ (n = if code = 9 then r.hdr.addr.toNat / 2 ^ 9 %
      32 + 1 else 0) ∧ r.hdr.tc.toNat < 2 ∧ 1 ≤ ((s.port p).account r.hdr.p r.hdr.tc.toNat).held.hdr ∧ n ≤ ((s.port p).account r.hdr.p
      r.hdr.tc.toNat).held.sect ∧ Tab.get (fun x => false) (s.port p).tags r.hdr.tag.toNat = false ∧ code = 9 := by
  refine ⟨3, 9, 9, { req .rd 2 0x1000 1 [] with hdr := { hdr .rd 2 0x1000 1 with hcrc := hcrcOf ((hdr .rd 2 0x1000 1).low 9) } }, ported,
    ?_⟩
  decide +kernel

theorem witness_BlockWritesAreSent_5 : ∃ (p : Nat) (n : Nat) (code : BitVec 4) (r : PortReq) (s : State), p < 32 ∧ s.life.porstN = true ∧
      s.flag F.PT_STAT_FAULT p = false ∧ s.life.closing = false ∧ r.hdr.good code = true ∧ (n = if code = 9 then r.hdr.addr.toNat / 2 ^ 9 %
      32 + 1 else 0) ∧ r.hdr.tc.toNat < 2 ∧ 1 ≤ ((s.port p).account r.hdr.p r.hdr.tc.toNat).held.hdr ∧ n ≤ ((s.port p).account r.hdr.p
      r.hdr.tc.toNat).held.sect ∧ Tab.get (fun x => false) (s.port p).tags r.hdr.tag.toNat = false ∧ (code = 0 ∨ 10 ≤ code.toNat) := by
  refine ⟨3, 0, 10, { req .rd 2 0x1000 1 [] with hdr := { hdr .rd 2 0x1000 1 with hcrc := hcrcOf ((hdr .rd 2 0x1000 1).low 10) } }, ported,
    ?_⟩
  decide +kernel

theorem witness_BlockWritesAreSent_6 : ∃ (p : Nat) (h : BitVec 10) (c : BitVec 12) (s : State), p < 32 ∧ s.life.porstN = true := by
  refine ⟨31, 1023, 4095, up, ?_⟩
  decide +kernel

theorem witness_BlockWritesAreSent_7 : ∃ (p k : Nat) (b : BlockTag) (c : Cmd) (s : State), p < 32 ∧ Tab.get (fun _ => none)
      (s.port p).btags k = some b ∧ b.abandoned = false ∧ b.sent + 2 ^ s.fld F.PT_CTL_RSP_TMO_LOG2 p ≤ s.power.cycles ∧ s.cmd
      b.drawer b.pos = some c := by
  refine ⟨3, 5, ⟨2, 9, true, 0, false⟩, cmd .copy [], onPort 3 (fun x =>
    { x with btags := [(5, some ⟨2, 9, true, 0, false⟩)] }) (withCmd 2 (cmd .copy []) (onPower (fun p =>
    { p with cycles := 2 ^ 40 }) up)), ?_⟩
  decide +kernel

theorem witness_PortsRecover_1 : ∃ (p : Nat) (s : State), p < 32 ∧ s.csrOpen = true := by
  refine ⟨31, up, ?_⟩
  decide +kernel

theorem witness_PortsRecover_2 : ∃ (p : Nat) (s : State), p < 32 ∧ s.flag F.PT_STAT_RESETTING p = true ∧ (s.port p).busyTags = 0 ∧
      s.heldReqs p = [] ∧ (s.port p).btags = [] := by
  refine ⟨3, puts ported [(F.PT_STAT_RESETTING, 3, 1), (F.PT_STAT_FAULT, 3, 1)], ?_⟩
  decide +kernel

theorem witness_PortsRecover_3 : ∃ (p : Nat) (a b : Bool) (s : State), p < 32 := by
  refine ⟨31, true, false, up, ?_⟩
  decide +kernel

theorem witness_PortsRecover_4 : ∃ (n : Nat) (s : State), n < 64 ∧ s.dry n = false ∧ s.creditsHeld = false ∧ (∀ p < 32, s.flag
      F.PT_STAT_FAULT p = false) := by
  refine ⟨63, up, ?_⟩
  decide +kernel

theorem witness_ManagementPort_1 : ∃ (m : MgtPkt) (s : State), s.mgtUp = true ∧ mgtGood 1 m = true ∧ s.flag F.PT_MGT_ID_ASSIGNED 0 = true ∧
      s.fld F.PT_MGT_ID_BLOCK_ID 0 = m.bid.toNat ∧ badOffset m.offset = false ∧ s.mgtMay m.offset.toNat = true ∧ m.offset.toNat ≠
      Reg.CR_NS_DATA.offset 3 := by
  refine ⟨mgt 1 5 (Reg.offset .GT_TIME 0) 0 0, puts up [(F.PT_MGT_ID_ASSIGNED, 0, 1), (F.PT_MGT_ID_BLOCK_ID, 0, 5)], ?_⟩
  decide +kernel

theorem witness_ManagementPort_2 : ∃ (m : MgtPkt) (s : State), s.mgtUp = true ∧ mgtGood 2 m = true ∧ s.flag F.PT_MGT_ID_ASSIGNED 0 = true ∧
      s.fld F.PT_MGT_ID_BLOCK_ID 0 = m.bid.toNat ∧ badOffset m.offset = false ∧ s.mgtMay m.offset.toNat = true ∧ m.offset.toNat ≠
      Reg.PT_MGT_ID.offset 0 := by
  refine ⟨mgt 2 5 (Reg.offset .MW_IRQ_MASK 0) 5 7, puts up [(F.PT_MGT_ID_ASSIGNED, 0, 1), (F.PT_MGT_ID_BLOCK_ID, 0, 5)], ?_⟩
  decide +kernel

theorem witness_ManagementPort_3 : ∃ (i : Instr) (kind : BitVec 4) (m : MgtPkt) (st : Status) (s : State), (i = Instr.read kind m ∧ kind ≠ 2
      ∧ kind ≠ 3 ∨ i = Instr.write m ∧ kind = 2) ∧ s.mgtUp = true ∧ mgtGood kind m = true ∧ s.flag F.PT_MGT_ID_ASSIGNED 0 = true ∧ s.fld
      F.PT_MGT_ID_BLOCK_ID 0 = m.bid.toNat ∧ ((kind ≠ 1 ∧ kind ≠ 2 ∨ badOffset m.offset = true) ∧ st = Status.badArg ∨ (kind = 1 ∨ kind = 2)
      ∧ badOffset m.offset = false ∧ s.mgtMay m.offset.toNat = false ∧ st = Status.notPermitted) := by
  refine ⟨.read 4 (mgt 4 5 0 0 0), 4, mgt 4 5 0 0 0, .badArg, puts up [(F.PT_MGT_ID_ASSIGNED, 0, 1), (F.PT_MGT_ID_BLOCK_ID, 0, 5)], ?_⟩
  decide +kernel

theorem witness_ManagementPort_4 : ∃ (i : Instr) (kind : BitVec 4) (m : MgtPkt) (s : State), (i = .read kind m ∧ kind ≠ 2 ∧
      kind ≠ 3 ∨ i = .write m ∧ kind = 2) ∧ s.mgtUp = true ∧ mgtGood kind m = false := by
  refine ⟨.read 1 { mgt 1 5 0 0 0 with tag := 99 }, 1, { mgt 1 5 0 0 0 with tag := 99 }, puts up [(F.PT_MGT_ID_ASSIGNED, 0,
    1), (F.PT_MGT_ID_BLOCK_ID, 0, 5)], ?_⟩
  decide +kernel

theorem witness_ManagementPort_5 : ∃ (i : Instr) (kind : BitVec 4) (m : MgtPkt) (s : State), (i = .read kind m ∧ kind ≠ 2 ∧
      kind ≠ 3 ∨ i = .write m ∧ kind = 2) ∧ s.mgtUp = true ∧ mgtGood kind m = true ∧ (s.flag F.PT_MGT_ID_ASSIGNED 0 = false ∨
      s.fld F.PT_MGT_ID_BLOCK_ID 0 ≠ m.bid.toNat) ∧ s.life.dnPresent = true := by
  refine ⟨.read 1 (mgt 1 4 0 0 0), 1, mgt 1 4 0 0 0, onLife (fun l => { l with dnPresent := true }) (puts up
    [(F.PT_MGT_ID_ASSIGNED, 0, 1), (F.PT_MGT_ID_BLOCK_ID, 0, 5)]), ?_⟩
  decide +kernel

theorem witness_ManagementPort_6 : ∃ (i : Instr) (kind : BitVec 4) (m : MgtPkt) (s : State), (i = .read kind m ∧ kind ≠ 2 ∧
      kind ≠ 3 ∨ i = .write m ∧ kind = 2) ∧ s.mgtUp = true ∧ mgtGood kind m = true ∧ (s.flag F.PT_MGT_ID_ASSIGNED 0 = false ∨
      s.fld F.PT_MGT_ID_BLOCK_ID 0 ≠ m.bid.toNat) ∧ s.life.dnPresent = false := by
  refine ⟨.write (mgt 2 4 0 0 0), 2, mgt 2 4 0 0 0, onLife (fun l => { l with dnPresent := false }) (puts up
    [(F.PT_MGT_ID_ASSIGNED, 0, 1), (F.PT_MGT_ID_BLOCK_ID, 0, 5)]), ?_⟩
  decide +kernel

theorem witness_ManagementPort_7 : ∃ (m : MgtPkt) (s : State), s.mgtUp = true ∧ mgtGood 3 m = true := by
  refine ⟨mgt 3 0 0 64 0, onLife (fun l => { l with dnPresent := true }) up, ?_⟩
  decide +kernel

theorem witness_ManagementPort_8 : ∃ (m : MgtPkt) (s : State), s.mgtUp = true ∧ mgtGood 9 m = true := by
  refine ⟨mgt 9 4 0 63 0, up, ?_⟩
  decide +kernel

theorem witness_SyncCountsBarriers_1 : ∃ (f : SyncFrame) (n : Nat) (i : Instr) (k : BitVec 4) (s : State), s.life.porstN =
      true ∧ s.lc ≠ lcPll ∧ (i = .align f n ∧ k = 1 ∨ i = .arrive f ∧ k = 2 ∨ i = .release f ∧ k = 3 ∨ i = .withdraw f ∧ k =
      4) ∧ s.flag F.GT_CTL_SYNC_EN 0 = false := by
  refine ⟨syncFrame 2 5, 0, .arrive (syncFrame 2 5), 2, up, ?_⟩
  decide +kernel

theorem witness_SyncCountsBarriers_2 : ∃ (f : SyncFrame) (n : Nat) (i : Instr) (k : BitVec 4) (s : State), s.life.porstN =
      true ∧ s.lc ≠ lcPll ∧ (i = .align f n ∧ k = 1 ∨ i = .arrive f ∧ k = 2 ∨ i = .release f ∧ k = 3 ∨ i = .withdraw f ∧ k =
      4) ∧ s.flag F.GT_CTL_SYNC_EN 0 = true ∧ f.crc ≠ crc16 0xFFFF#16 (k.setWidth 8 :: (bytesOf 9 f.payload).reverse) := by
  refine ⟨syncFrame 1 5, 0, .arrive (syncFrame 1 5), 2, puts up [(F.GT_CTL_SYNC_EN, 0, 1), (F.GT_CTL_ROOT, 0, 0),
    (F.GT_CTL_ACCEPT_ALIGN, 0, 1), (F.GT_TIME_GTC, 0, 777), (F.GT_SYNC_DLY_DLY, 0, 32), (F.PT_MGT_ID_BLOCK_ID, 0, 5)], ?_⟩
  decide +kernel

theorem witness_SyncCountsBarriers_3 : ∃ (f g : SyncFrame) (bar m : Nat) (s : State), s.life.porstN = true ∧ s.lc ≠ lcPll ∧
      s.flag F.GT_CTL_SYNC_EN 0 = true ∧ f.crc = crc16 0xFFFF#16 (2#8 :: (bytesOf 9 f.payload).reverse) ∧ s.flag
      F.GT_CTL_ROOT 0 = true ∧ f.payload.toNat / 16 % 64 ≠ s.fld F.PT_MGT_ID_BLOCK_ID 0 ∧ bar = f.payload.toNat % 16 ∧ m =
      f.payload.toNat / 1024 % 64 ∧ g = syncFrame 3 (BitVec.ofNat 72 (bar + 16 * ((s.gtc + s.fld F.GT_BAR_MARGIN_MARGIN 0) %
      2 ^ 64))) ∧ s.arrived bar + 1 ≠ m + 1 := by
  refine ⟨syncFrame 2 (BitVec.ofNat 72 (3 + 16 * 9 + 1024 * 2)), syncFrame 3 (BitVec.ofNat 72 (3 + 16 * (777 + 0x1000))), 3,
    2, onTime (fun t => { t with arrivals := [(3, 0)] }) (puts up [(F.GT_CTL_SYNC_EN, 0, 1), (F.GT_CTL_ROOT, 0, 1),
    (F.GT_CTL_ACCEPT_ALIGN, 0, 1), (F.GT_TIME_GTC, 0, 777), (F.GT_SYNC_DLY_DLY, 0, 32), (F.PT_MGT_ID_BLOCK_ID, 0, 5)]), ?_⟩
  decide +kernel

theorem witness_SyncCountsBarriers_4 : ∃ (f g : SyncFrame) (bar m : Nat) (s : State), s.life.porstN = true ∧ s.lc ≠ lcPll ∧
      s.flag F.GT_CTL_SYNC_EN 0 = true ∧ f.crc = crc16 0xFFFF#16 (2#8 :: (bytesOf 9 f.payload).reverse) ∧ s.flag
      F.GT_CTL_ROOT 0 = true ∧ f.payload.toNat / 16 % 64 ≠ s.fld F.PT_MGT_ID_BLOCK_ID 0 ∧ bar = f.payload.toNat % 16 ∧ m =
      f.payload.toNat / 1024 % 64 ∧ g = syncFrame 3 (BitVec.ofNat 72 (bar + 16 * ((s.gtc + s.fld F.GT_BAR_MARGIN_MARGIN 0) %
      2 ^ 64))) ∧ s.arrived bar = m := by
  refine ⟨syncFrame 2 (BitVec.ofNat 72 (3 + 16 * 9 + 1024 * 2)), syncFrame 3 (BitVec.ofNat 72 (3 + 16 * (777 + 0x1000))), 3,
    2, onTime (fun t => { t with arrivals := [(3, 2)] }) (puts up [(F.GT_CTL_SYNC_EN, 0, 1), (F.GT_CTL_ROOT, 0, 1),
    (F.GT_CTL_ACCEPT_ALIGN, 0, 1), (F.GT_TIME_GTC, 0, 777), (F.GT_SYNC_DLY_DLY, 0, 32), (F.PT_MGT_ID_BLOCK_ID, 0, 5)]), ?_⟩
  decide +kernel

theorem witness_SyncCountsBarriers_5 : ∃ (f : SyncFrame) (bar : Nat) (s : State), s.life.porstN = true ∧ s.lc ≠ lcPll ∧
      s.flag F.GT_CTL_SYNC_EN 0 = true ∧ f.crc = crc16 0xFFFF#16 (4#8 :: (bytesOf 9 f.payload).reverse) ∧ s.flag
      F.GT_CTL_ROOT 0 = true ∧ f.payload.toNat / 16 % 64 ≠ s.fld F.PT_MGT_ID_BLOCK_ID 0 ∧ bar = f.payload.toNat % 16 := by
  refine ⟨syncFrame 4 (BitVec.ofNat 72 (3 + 16 * 9 + 1024 * 2)), 3, onTime (fun t => { t with arrivals := [(3, 2)] }) (puts
    up [(F.GT_CTL_SYNC_EN, 0, 1), (F.GT_CTL_ROOT, 0, 1), (F.GT_CTL_ACCEPT_ALIGN, 0, 1), (F.GT_TIME_GTC, 0, 777),
    (F.GT_SYNC_DLY_DLY, 0, 32), (F.PT_MGT_ID_BLOCK_ID, 0, 5)]), ?_⟩
  decide +kernel

theorem witness_SyncCountsBarriers_6 : ∃ (f : SyncFrame) (bar r : Nat) (s : State), s.life.porstN = true ∧ s.lc ≠ lcPll ∧
      s.flag F.GT_CTL_SYNC_EN 0 = true ∧ f.crc = crc16 0xFFFF#16 (3#8 :: (bytesOf 9 f.payload).reverse) ∧ bar =
      f.payload.toNat % 16 ∧ r = f.payload.toNat / 16 % 2 ^ 64 := by
  refine ⟨syncFrame 3 (BitVec.ofNat 72 (3 + 16 * 999)), 3, 999, puts up [(F.GT_CTL_SYNC_EN, 0, 1), (F.GT_CTL_ROOT, 0, 0),
    (F.GT_CTL_ACCEPT_ALIGN, 0, 1), (F.GT_TIME_GTC, 0, 777), (F.GT_SYNC_DLY_DLY, 0, 32), (F.PT_MGT_ID_BLOCK_ID, 0, 5)], ?_⟩
  decide +kernel

theorem witness_SyncCountsBarriers_7 : ∃ (bar : Fin 16) (x : Repeat) (s : State), s.time.repeats = [x] ∧ x.bar = bar.val ∧
      x.due ≤ s.tick ∧ s.flag F.GT_CTL_SYNC_EN 0 = true := by
  refine ⟨15, ⟨15, syncFrame 3 5, 8⟩,
    { onTime (fun t => { t with repeats := [⟨15, syncFrame 3 5, 8⟩] }) (puts up [(F.GT_CTL_SYNC_EN, 0, 1), (F.GT_CTL_ROOT, 0, 1), (F.GT_CTL_ACCEPT_ALIGN, 0, 1), (F.GT_TIME_GTC, 0, 777), (F.GT_SYNC_DLY_DLY, 0, 32), (F.PT_MGT_ID_BLOCK_ID, 0, 5)]) with tick := 8 },
    ?_⟩
  decide +kernel

theorem witness_TimeIsAligned_1 : ∃ (f : SyncFrame) (n v : Nat) (s : State), s.life.porstN = true ∧ s.lc ≠ lcPll ∧ s.flag
      F.GT_CTL_SYNC_EN 0 = true ∧ f.crc = crc16 0xFFFF#16 (1#8 :: (bytesOf 9 f.payload).reverse) ∧ s.flag F.GT_CTL_ROOT 0 =
      false ∧ s.flag F.GT_CTL_ACCEPT_ALIGN 0 = true ∧ s.fld F.GT_SYNC_DLY_DLY 0 % 16 = 0 ∧ v = (f.payload.toNat % 2 ^ 64 + n
      + s.fld F.GT_SYNC_DLY_DLY 0 / 16) % 2 ^ 64 ∧ s.gtc ≤ v ∧ (∀ d < 64, (s.drawer d).launch = none ∧ (s.drawer d).barrier =
      none) := by
  refine ⟨syncFrame 1 (BitVec.ofNat 72 (771)), 4, 777, puts up [(F.GT_CTL_SYNC_EN, 0, 1), (F.GT_CTL_ROOT, 0, 0),
    (F.GT_CTL_ACCEPT_ALIGN, 0, 1), (F.GT_TIME_GTC, 0, 777), (F.GT_SYNC_DLY_DLY, 0, 32), (F.PT_MGT_ID_BLOCK_ID, 0, 5)], ?_⟩
  decide +kernel

theorem witness_TimeIsAligned_2 : ∃ (f : SyncFrame) (n v : Nat) (s : State), s.life.porstN = true ∧ s.lc ≠ lcPll ∧ s.flag
      F.GT_CTL_SYNC_EN 0 = true ∧ f.crc = crc16 0xFFFF#16 (1#8 :: (bytesOf 9 f.payload).reverse) ∧ s.flag F.GT_CTL_ROOT 0 =
      false ∧ s.flag F.GT_CTL_ACCEPT_ALIGN 0 = true ∧ s.fld F.GT_SYNC_DLY_DLY 0 % 16 = 0 ∧ v = (f.payload.toNat % 2 ^ 64 + n
      + s.fld F.GT_SYNC_DLY_DLY 0 / 16) % 2 ^ 64 ∧ v < s.gtc := by
  refine ⟨syncFrame 1 (BitVec.ofNat 72 (770)), 4, 776, puts up [(F.GT_CTL_SYNC_EN, 0, 1), (F.GT_CTL_ROOT, 0, 0),
    (F.GT_CTL_ACCEPT_ALIGN, 0, 1), (F.GT_TIME_GTC, 0, 777), (F.GT_SYNC_DLY_DLY, 0, 32), (F.PT_MGT_ID_BLOCK_ID, 0, 5)], ?_⟩
  decide +kernel

theorem witness_TimeIsAligned_3 : ∃ (x : Nat) (s : State), s.time.holdUntil = some x ∧ x ≤ s.tick ∧ s.time.holdBy ≤ 32767 := by
  refine ⟨5, { onTime (fun t => { t with holdUntil := some 5, holdBy := 32767 }) up with tick := 5 }, ?_⟩
  decide +kernel

theorem witness_TimeIsAligned_4 : ∃ (s : State), s.csrOpen = true ∧ s.flag F.GT_CTL_ROOT 0 = true ∧ s.flag F.GT_CTL_SYNC_EN 0
      = true := by
  refine ⟨puts up [(F.GT_CTL_SYNC_EN, 0, 1), (F.GT_CTL_ROOT, 0, 1), (F.GT_CTL_ACCEPT_ALIGN, 0, 1), (F.GT_TIME_GTC, 0, 777),
    (F.GT_SYNC_DLY_DLY, 0, 32), (F.PT_MGT_ID_BLOCK_ID, 0, 5)], ?_⟩
  decide +kernel

theorem witness_SeedsAndNoiseSource_1 : ∃ (n : Fin 64) (v : Word) (s : State), s.csrOpen = true := by
  refine ⟨63, 5, up, ?_⟩
  decide +kernel

theorem witness_SeedsAndNoiseSource_2 : ∃ (s : State), s.csrOpen = true ∧ s.time.seedBits = none ∧ s.flag
      F.CR_NS_STAT_SEED_READY 0 = false ∧ 4 ≤ s.healthy.length := by
  refine ⟨onTime (fun t => { t with osc := (List.range 4).map fun k => (k, ⟨0, some true, 3, 0, true, 5⟩) }) (puts up
    [(F.CR_CTL_NS_EN, 0, 1)]), ?_⟩
  decide +kernel

theorem witness_SeedsAndNoiseSource_3 : ∃ (s : State), s.csrOpen = true ∧ s.time.seedBits = none ∧ s.flag
      F.CR_NS_STAT_SEED_READY 0 = false ∧ s.healthy.length < 4 := by
  refine ⟨onTime (fun t => { t with osc := (List.range 3).map fun k => (k, ⟨0, some true, 3, 0, true, 5⟩) }) (puts up
    [(F.CR_CTL_NS_EN, 0, 1)]), ?_⟩
  decide +kernel

theorem witness_SeedsAndNoiseSource_4 : ∃ (l : List Bool) (s : State), s.time.seedBits = some l ∧ l.length = 1024 ∧ 4 ≤
      s.healthy.length := by
  refine ⟨List.replicate 1024 true, onTime (fun t =>
    { t with osc := (List.range 4).map fun k => (k, ⟨0, some true, 3, 0, true, 5⟩), seedBits := some (List.replicate 1024 true) })
    (puts up [(F.CR_CTL_NS_EN, 0, 1)]), ?_⟩
  decide +kernel

theorem witness_SeedsAndNoiseSource_5 : ∃ (s : State), s.csrOpen = true ∧ s.flag F.CR_NS_STAT_SEED_READY 0 = true := by
  refine ⟨up.put F.CR_NS_STAT_SEED_READY 0 1, ?_⟩
  decide +kernel

theorem witness_SeedsAndNoiseSource_6 : ∃ (x : BitVec 8) (k : Nat) (s : State), s.life.porstN = true ∧ s.flag F.CR_CTL_NS_EN
      0 = true ∧ k < 8 ∧ s.bit F.CR_NS_STAT_OSC_FAIL 0 k = false ∧ (s.osc k).last = some (x.getLsbD k) ∧ (s.osc k).run = 40 := by
  refine ⟨0xff, 7, onTime (fun t => { t with osc := [(7, ⟨0, some true, 40, 3, true, 5⟩)] }) (up.put F.CR_CTL_NS_EN 0 1), ?_⟩
  decide +kernel

theorem witness_SeedsAndNoiseSource_7 : ∃ (x : BitVec 8) (l : List Bool) (s : State), s.life.porstN = true ∧ s.flag
      F.CR_CTL_NS_EN 0 = true ∧ s.time.seedBits = some l ∧ l.length + 8 ≤ 1024 ∧ (∀ k < 8, s.oscOk k = true ∧ (s.osc k).last
      = some (!x.getLsbD k) ∧ (s.osc k).winPos = 0) := by
  refine ⟨0xff, List.replicate 1016 true, onTime (fun t =>
    { t with seedBits := some (List.replicate 1016 true), osc := (List.range 8).map fun k => (k, ⟨0, some false, 40, 0, true, 5⟩) })
    (up.put F.CR_CTL_NS_EN 0 1), ?_⟩
  decide +kernel

theorem witness_RegisterCommandsAct_1 : ∃ (n : Fin 64) (s : State), s.csrOpen = true ∧ s.flag F.DR_CTL_ENABLE n.val = false ∧
      s.ringOk n.val (s.sqBase n.val) (64 * s.sqSize n.val) (s.fld F.DR_SQ_BASE_SQ_LOG2 n.val) = true ∧ s.ringOk n.val
      (s.cqBase n.val) (32 * s.cqSize n.val) (s.fld F.DR_CQ_BASE_CQ_LOG2 n.val) = true ∧ s.ringRetired n.val = false := by
  refine ⟨2, puts up [(F.DR_SQ_BASE_SQ_LOG2, 2, 5), (F.DR_CQ_BASE_CQ_LOG2, 2, 5), (F.DR_SQ_BASE_SQ_BASE, 2, 3),
    (F.DR_CQ_BASE_CQ_BASE, 2, 4), (F.RG_GRAN_OWNER, 0, 2), (F.RG_GRAN_CLASS, 0, 1)], ?_⟩
  iterate 4 refine ⟨by first | decide +kernel | exact ring_of (served_of (by decide +kernel)) _, ?_⟩
  first | decide +kernel | exact ring_of (served_of (by decide +kernel)) _

theorem witness_RegisterCommandsAct_2 : ∃ (n : Fin 64) (s : State), s.csrOpen = true ∧ s.flag F.DR_CTL_ENABLE ↑n = false ∧ s.ringOk (↑n)
      (s.sqBase ↑n) (64 * s.sqSize ↑n) (s.fld F.DR_SQ_BASE_SQ_LOG2 ↑n) = true ∧ s.ringOk (↑n) (s.cqBase ↑n) (32 * s.cqSize ↑n) (s.fld
      F.DR_CQ_BASE_CQ_LOG2 ↑n) = true ∧ s.ringRetired ↑n = true := by
  refine ⟨2, puts up [(F.DR_SQ_BASE_SQ_LOG2, 2, 5), (F.DR_CQ_BASE_CQ_LOG2, 2, 5), (F.DR_SQ_BASE_SQ_BASE, 2, 3), (F.DR_CQ_BASE_CQ_BASE, 2,
    4), (F.RG_GRAN_OWNER, 0, 2), (F.RG_GRAN_CLASS, 0, 1), (F.CE_STATE_STATE, (up.locate 0x3000 |>.getD ⟨0, 0⟩).n, 3)], ?_⟩
  decide +kernel

theorem witness_RegisterCommandsAct_3 : ∃ (n : Fin 64) (s : State), s.csrOpen = true ∧ s.flag F.DR_CTL_ENABLE ↑n = false ∧ (s.ringOk (↑n)
      (s.sqBase ↑n) (64 * s.sqSize ↑n) (s.fld F.DR_SQ_BASE_SQ_LOG2 ↑n) = false ∨ s.ringOk (↑n) (s.cqBase ↑n) (32 * s.cqSize ↑n) (s.fld
      F.DR_CQ_BASE_CQ_LOG2 ↑n) = false) := by
  refine ⟨2, puts up [(F.DR_SQ_BASE_SQ_LOG2, 2, 3), (F.DR_CQ_BASE_CQ_LOG2, 2, 5), (F.DR_SQ_BASE_SQ_BASE, 2, 3), (F.DR_CQ_BASE_CQ_BASE, 2,
    4), (F.RG_GRAN_OWNER, 0, 2), (F.RG_GRAN_CLASS, 0, 1)], ?_⟩
  decide +kernel

theorem witness_RegisterCommandsAct_4 : ∃ (v : BitVec 8) (s : State), s.csrOpen = true := by
  refine ⟨0x81, up, ?_⟩
  decide +kernel

theorem witness_RegisterCommandsAct_5 : ∃ (n : Fin 64) (v : Word) (a b : Nat) (s : State), s.csrOpen = true ∧ s.flag
      F.DR_CTL_ENABLE n.val = true ∧ a = v.toNat % 2 ^ 17 ∧ b = v.toNat / 2 ^ 32 % 2 ^ 17 ∧ (a + 2 ^ 17 - s.sqHead n.val) % 2
      ^ 17 ≤ s.sqSize n.val ∧ (s.cqTail n.val + 2 ^ 17 - b) % 2 ^ 17 ≤ s.cqSize n.val := by
  refine ⟨2, 32 + 2 ^ 32 * 0, 32, 0, puts up [(F.DR_SQ_BASE_SQ_LOG2, 2, 5), (F.DR_CQ_BASE_CQ_LOG2, 2, 5),
    (F.DR_SQ_BASE_SQ_BASE, 2, 3), (F.DR_CQ_BASE_CQ_BASE, 2, 4), (F.RG_GRAN_OWNER, 0, 2), (F.RG_GRAN_CLASS, 0, 1),
    (F.DR_CTL_ENABLE, 2, 1)], ?_⟩
  decide +kernel

theorem witness_RegisterCommandsAct_6 : ∃ (o : BitVec 24) (v : Word) (r : Reg) (i : Nat) (s : State), s.csrOpen = true ∧
      Reg.ofOffset o.toNat = some (r, i) ∧ r ∈ [.MW_IRQ_MASK, .PT_FLAGS, .IN_STAT, .GT_SYNC_DLY, .CR_RCTX0, .CR_RCTX1,
      .PA_PORTS, .AV_ASSAY_STAT] := by
  refine ⟨BitVec.ofNat 24 (Reg.offset .CR_RCTX1 63), 5, .CR_RCTX1, 63, up, ?_⟩
  decide +kernel

theorem witness_RegisterCommandsAct_7 : ∃ (o : BitVec 24) (v : Word) (s : State), (Reg.ofOffset o.toNat = none ∨ s.csrOpen =
      false) := by
  refine ⟨0xfffff8, 5, up, ?_⟩
  decide +kernel

theorem witness_SideboardIsControlled_1 : ∃ (s : State), s.csrOpen = true ∧ s.allServed ∧ s.draws.buckets = [] ∧ s.sound := by
  refine ⟨hold 0x1000 5 up, ?_⟩
  iterate 3 refine ⟨by
      first
        | exact served_of (by decide +kernel)
        | exact sound_of (by decide +kernel) (by decide +kernel) (by decide +kernel)
        | decide +kernel,
    ?_⟩
  first
    | exact served_of (by decide +kernel)
    | exact sound_of (by decide +kernel) (by decide +kernel) (by decide +kernel)
    | decide +kernel

theorem witness_SideboardIsControlled_2 : ∃ (s : State), s.flag F.SB_STAT_FLUSHING 0 = true ∧ (∀ n, (s.slice n).dirtyBursts =
      []) := by
  refine ⟨up.put F.SB_STAT_FLUSHING 0 1, ?_⟩
  exact ⟨by decide +kernel, no_dirty (by decide +kernel)⟩

theorem witness_SideboardIsControlled_3 : ∃ (v : BitVec 4) (s : State), s.csrOpen = true ∧ v.toNat ≤ 12 ∧ v.toNat ≠ s.fld
      F.SB_CTL_RES_WAYS 0 ∧ s.draws.buckets = [] ∧ s.mem.slices = [] := by
  refine ⟨12, up, ?_⟩
  decide +kernel

theorem witness_SideboardIsControlled_4 : ∃ (v : BitVec 4) (s : State), s.csrOpen = true ∧ (12 < v.toNat ∨ v.toNat ≠ s.fld
      F.SB_CTL_RES_WAYS 0 ∧ s.draws.buckets ≠ []) := by
  refine ⟨13, up, ?_⟩
  decide +kernel

theorem witness_SideboardIsControlled_5 : ∃ (s : State), s.flag F.SB_STAT_RES_CHANGING 0 = true ∧ s.mem.slices = [] := by
  refine ⟨up.put F.SB_STAT_RES_CHANGING 0 1, ?_⟩
  decide +kernel

theorem witness_BureauIsWritten_1 : ∃ (s : State), s.csrOpen = true := by
  refine ⟨up, ?_⟩
  decide +kernel

theorem witness_BureauIsWritten_2 : ∃ (s : State), s.life.bureau.pending = true ∧ s.life.bureau.writing = none ∧ s.bureauFree
      = true := by
  refine ⟨onLife (fun l => { l with bureau := { l.bureau with pending := true } }) up, ?_⟩
  decide +kernel

theorem witness_BureauIsWritten_3 : ∃ (s : State), (s.life.bureau.pending = false ∨ s.life.bureau.writing.isSome = true ∨ s.bureauFree =
      false) := by
  refine ⟨up, ?_⟩
  decide +kernel

theorem witness_BureauIsWritten_4 : ∃ (body : List Byte) (h : List Byte) (k : Nat) (q : Nat) (s : State), s.life.bureau.writing = some body
      ∧ s.life.bureau.banked = false ∧ (k = if s.flag F.LC_BUREAU_EMPTY 0 = true ∧ s.fld F.LC_BUREAU_SEQ 0 = 0 then 0 else 1 - s.fld
      F.LC_BUREAU_CUR_BANK 0) ∧ q = (s.fld F.LC_BUREAU_SEQ 0 + 1) % 2 ^ 32 ∧ h =
      { seq := q, length := body.length, shut := false, gtc := 0, step := 0, retired := 0, ce := 0, ue := 0, resets := 0 : BankHead }.seal
      body := by
  refine ⟨[1, 2, 3], BankHead.seal ⟨1, 3, false, 0, 0, 0, 0, 0, 0⟩ [1, 2, 3], 1, 1, onLife (fun l =>
    { l with bureau := { l.bureau with writing := some [1, 2, 3], banked := false } }) up, ?_⟩
  decide +kernel

theorem witness_BureauIsWritten_5 : ∃ (body : List Byte) (s : State), s.life.bureau.writing = some body ∧ s.life.bureau.banked = true := by
  refine ⟨[1, 2, 3], onLife (fun l => { l with bureau := { l.bureau with writing := some [1, 2, 3], banked := true } }) up, ?_⟩
  decide +kernel

theorem witness_BureauIsWritten_6 : ∃ (s : State), s.life.bureau.writing = none := by
  refine ⟨up, ?_⟩
  decide +kernel

theorem witness_BureauIsWritten_7 : ∃ (s : State), s.lc = lcReleased ∧ s.life.bureau.lastRefresh + 86400 * 1600000000 ≤ s.gtc := by
  refine ⟨up.put F.GT_TIME_GTC 0 (86400 * 1600000000), ?_⟩
  decide +kernel

theorem witness_BureauIsWritten_8 : ∃ (s : State), (s.lc ≠ lcReleased ∨ s.gtc < s.life.bureau.lastRefresh + 86400 * 1600000000) := by
  refine ⟨up.put F.GT_TIME_GTC 0 (86400 * 1600000000 - 1), ?_⟩
  decide +kernel

theorem witness_ReadsReturn_1 : ∃ (n : Nat) (d : Desc) (l : Loc) (s : State), s.oneRead n d l := by
  refine ⟨64, readDesc, ⟨64, 0⟩, waitingRead, ?_⟩
  exact waitingRead_one

theorem witness_ReadsReturn_2 : ∃ (n j : Nat) (d : Desc) (l : Loc) (b : BitErr) (s : State), s.oneRead n d l ∧ ((b.check = 0
      ∧ j < 64 ∧ b.data = 1#64 <<< j) ∨ (b.data = 0 ∧ j < 8 ∧ b.check = 1#8 <<< j)) := by
  refine ⟨64, 63, readDesc, ⟨64, 0⟩, ⟨0, 1#64 <<< 63, 0⟩, waitingRead, ?_⟩
  exact ⟨waitingRead_one, by decide +kernel⟩

theorem witness_ReadsReturn_3 : ∃ (n i j : Nat) (d : Desc) (l : Loc) (b : BitErr) (s : State), s.oneRead n d l ∧ b.check = 0
      ∧ i < j ∧ j < 64 ∧ b.data = 1#64 <<< i ^^^ 1#64 <<< j := by
  refine ⟨64, 0, 63, readDesc, ⟨64, 0⟩, ⟨7, 1#64 <<< 0 ^^^ 1#64 <<< 63, 0⟩, waitingRead, ?_⟩
  exact ⟨waitingRead_one, by decide +kernel⟩

theorem witness_ReadsReturn_4 : ∃ (n : Nat) (i : Nat) (d : Desc) (l : Loc) (s : State), s.oneRead n d l ∧ i < 512 := by
  refine ⟨64, 511, readDesc, ⟨64, 0⟩, waitingRead, ?_⟩
  iterate 1 refine ⟨by first | exact waitingRead_one | decide +kernel, ?_⟩
  first | exact waitingRead_one | decide +kernel

theorem witness_ReadsReturn_5 : ∃ (n : Nat) (k : Nat) (d : SectorBits) (p : Option Nat) (rest : List WBack) (s : State), n < 256 ∧
      s.chanState n = 0 ∧ (s.chan n).selfRefresh = false ∧ (s.chan n).wback = { k := k, data := d, part := p : WBack } :: rest ∧
      s.ports.waits = [] ∧ (∀ (m : Nat), m ≠ n → (s.chan m).retry = []) ∧ (s.chan n).retry = [] ∧ s.bankInMode { n := n, k := k : Loc } =
      true := by
  refine ⟨7, 33, 5, some 2, [⟨5, 6, none⟩], onChan 7 (fun x => { x with wback := [⟨33, 5, some 2⟩, ⟨5, 6, none⟩] }) (up.put
    F.CE_PL_STAT_BG_MODE 7 0xff), ?_⟩
  iterate 7 refine ⟨by first | exact others_idle (by decide +kernel) | decide +kernel, ?_⟩
  first | exact others_idle (by decide +kernel) | decide +kernel

theorem witness_ReadsReturn_6 : ∃ (n : Nat) (k : Nat) (d : SectorBits) (p : Option Nat) (rest : List WBack) (s : State), n < 256 ∧
      s.chanState n = 0 ∧ (s.chan n).selfRefresh = false ∧ (s.chan n).wback = { k := k, data := d, part := p : WBack } :: rest ∧
      s.ports.waits = [] ∧ (∀ (m : Nat), m ≠ n → (s.chan m).retry = []) ∧ (s.chan n).retry = [] ∧ s.bankInMode { n := n, k := k : Loc } =
      false ∧ (∀ (h : Held), s.sliceHas { n := n, k := k : Loc } = some h → h.dirty = false) ∧ s.mem.upsets = [] := by
  refine ⟨7, 33, 5, some 2, [⟨5, 6, none⟩], onChan 7 (fun x => { x with wback := [⟨33, 5, some 2⟩, ⟨5, 6, none⟩] }) (up), ?_⟩
  iterate 9 refine ⟨by first | exact others_idle (by decide +kernel) | exact of_none (by decide +kernel) | decide +kernel, ?_⟩
  first | exact others_idle (by decide +kernel) | exact of_none (by decide +kernel) | decide +kernel

theorem witness_ReadsReturn_7 : ∃ (n : Nat) (k : Nat) (d : SectorBits) (p : Option Nat) (rest : List WBack) (s : State) (h : Held), n < 256
      ∧ s.chanState n = 0 ∧ (s.chan n).selfRefresh = false ∧ (s.chan n).wback = { k := k, data := d, part := p : WBack } :: rest ∧
      s.ports.waits = [] ∧ (∀ (m : Nat), m ≠ n → (s.chan m).retry = []) ∧ (s.chan n).retry = [] ∧ s.bankInMode { n := n, k := k : Loc } =
      false ∧ s.sliceHas { n := n, k := k : Loc } = some h ∧ h.dirty = true := by
  refine ⟨7, 33, 5, some 2, [⟨5, 6, none⟩], onChan 7 (fun x => { x with wback := [⟨33, 5, some 2⟩, ⟨5, 6, none⟩] }) (up.setSlice 7 ⟨[⟨4,
    [(1, some ⟨mkSec 9, true⟩)]⟩], [], []⟩), ⟨mkSec 9, true⟩, ?_⟩
  iterate 9 refine ⟨by first | exact others_idle (by decide +kernel) | decide +kernel, ?_⟩
  first | exact others_idle (by decide +kernel) | decide +kernel

theorem witness_MendRowsAreIssued_1 : ∃ (c : Nat) (p : Nat) (r : MendRow) (s : State), c < 32 ∧ s.stalled = false ∧ (s.mend c).rows = [r] ∧
      s.rowWhole r = true ∧ r.m < 2 ^ 21 ∧ 2 ≤ s.mendN ∧ p = s.parityIdx c r.m ∧ (∀ i < s.mendN, s.chanState (32 * s.rowMember p i + c) = 0)
      ∧ (∀ i < s.mendN, s.fld F.CE_PL_STAT_BG_MODE (32 * s.rowMember p i + c) = 0) ∧ s.mem.upsets = [] ∧ s.rowTaken c r.m = false ∧
      s.mendSites.Nodup ∧ (∀ u ∈ s.mendSites, u < 8) ∧ (∀ i < 32 * (s.mendN - 1), ∀ (x : Sec), Tab.get (fun x => none) r.secs i = some x →
      x.good = true ∧ x.fault = false) := by
  refine ⟨31, mendState.parityIdx 31 5, wholeRow, mendState, ?_⟩
  iterate 13 refine ⟨by first | exact wholeRow_good | decide +kernel, ?_⟩
  first | exact wholeRow_good | decide +kernel

theorem witness_MendRowsAreIssued_2 : ∃ (c : Nat) (s : State), c < 32 ∧ (∀ r ∈ (s.mend c).rows, s.rowWhole r = false ∨ s.rowTaken c r.m =
      true) := by
  refine ⟨31, up, ?_⟩
  decide +kernel

theorem witness_WindowAndOperandAccesses_1 : ∃ (a : BitVec 44) (s : State), (windowUnit a = none ∨ ∃ n k off, windowUnit a = some (n, k,
      off) ∧ (s.inMode n k = false ∨ off % 64 ≠ 0)) := by
  refine ⟨0, up, ?_⟩
  first | decide +kernel | exact Or.inl (by decide +kernel)

theorem witness_WindowAndOperandAccesses_2 : ∃ (a : BitVec 44) (d : SectorBits) (h : BitVec 64) (n : Nat) (k : Nat) (off : Nat) (u : Nat) (s
      : State), windowUnit a = some (n, k, off) ∧ u = 8 * n + k ∧ s.inMode n k = true ∧ off % 64 = 0 ∧ h = BitVec.setWidth 64 (hallmark d) ∧
      off = 0 := by
  refine ⟨BitVec.ofNat 44 (0xC * 2 ^ 40 + 7 * 2 ^ 32 + 2 ^ 31 + 2 ^ 29 + 0), 5, eccLanes 5, 7, 5, 0, 61, up.put F.CE_PL_STAT_BG_MODE 7 0x20,
    ?_⟩
  decide +kernel

theorem witness_WindowAndOperandAccesses_3 : ∃ (a : BitVec 44) (d : SectorBits) (h : BitVec 64) (n : Nat) (k : Nat) (off : Nat) (u : Nat) (s
      : State), windowUnit a = some (n, k, off) ∧ u = 8 * n + k ∧ s.inMode n k = true ∧ off % 64 = 0 ∧ h = BitVec.setWidth 64 (hallmark d) ∧
      2048 ≤ off ∧ off < 4096 := by
  refine ⟨BitVec.ofNat 44 (0xC * 2 ^ 40 + 7 * 2 ^ 32 + 2 ^ 31 + 2 ^ 29 + 4032), 5, eccLanes 5, 7, 5, 0xfc0, 61, up.put F.CE_PL_STAT_BG_MODE
    7 0x20, ?_⟩
  decide +kernel

theorem witness_WindowAndOperandAccesses_4 : ∃ (a : BitVec 44) (d : SectorBits) (h : BitVec 64) (n : Nat) (k : Nat) (off : Nat) (u : Nat) (s
      : State), windowUnit a = some (n, k, off) ∧ u = 8 * n + k ∧ s.inMode n k = true ∧ off % 64 = 0 ∧ h ≠ BitVec.setWidth 64 (hallmark d) ∧
      (off = 0 ∨ 2048 ≤ off ∧ off < 4096) := by
  refine ⟨BitVec.ofNat 44 (0xC * 2 ^ 40 + 7 * 2 ^ 32 + 2 ^ 31 + 2 ^ 29 + 2048), 5, 6, 7, 5, 0x800, 61, up.put F.CE_PL_STAT_BG_MODE 7 0x20,
    ?_⟩
  decide +kernel

theorem witness_WindowAndOperandAccesses_5 : ∃ (a : BitVec 44) (d : SectorBits) (h : BitVec 16) (n k off u : Nat) (s :
      State), windowUnit a = some (n, k, off) ∧ u = 8 * n + k ∧ s.inMode n k = true ∧ off % 64 = 0 ∧ 1 ≤ off ∧ (off < 0x800 ∨
      0x1000 ≤ off) := by
  refine ⟨BitVec.ofNat 44 (0xC * 2 ^ 40 + 7 * 2 ^ 32 + 2 ^ 31 + 2 ^ 29 + 0x1000), 5, 6, 7, 5, 0x1000, 61, puts up
    [(F.CE_PL_STAT_BG_MODE, 7, 0x20)], ?_⟩
  decide +kernel

theorem witness_WindowAndOperandAccesses_6 : ∃ (a : BitVec 44) (h : BitVec 64) (n : Nat) (k : Nat) (off : Nat) (u : Nat) (s : State),
      windowUnit a = some (n, k, off) ∧ u = 8 * n + k ∧ s.inMode n k = true ∧ off % 64 = 0 ∧ h = BitVec.setWidth 64 (hallmark ((s.unit
      u).read off)) := by
  refine ⟨BitVec.ofNat 44 (0xC * 2 ^ 40 + 7 * 2 ^ 32 + 2 ^ 31 + 2 ^ 29 + 320), eccLanes (PUnit.empty.read 0x140), 7, 5, 0x140, 61, up.put
    F.CE_PL_STAT_BG_MODE 7 0x20, ?_⟩
  decide +kernel

theorem witness_WindowAndOperandAccesses_7 : ∃ (a : BitVec 44) (h : BitVec 64) (n : Nat) (k : Nat) (off : Nat) (u : Nat) (s : State),
      windowUnit a = some (n, k, off) ∧ u = 8 * n + k ∧ s.inMode n k = true ∧ off % 64 = 0 ∧ h ≠ BitVec.setWidth 64 (hallmark ((s.unit
      u).read off)) := by
  refine ⟨BitVec.ofNat 44 (0xC * 2 ^ 40 + 7 * 2 ^ 32 + 2 ^ 31 + 2 ^ 29 + 320), 2 ^ 40, 7, 5, 0x140, 61, up.put F.CE_PL_STAT_BG_MODE 7 0x20,
    ?_⟩
  decide +kernel

theorem witness_WindowAndOperandAccesses_8 : ∃ (n : Nat) (m : Nat) (k : Nat) (bg : Fin 8) (s : State), (s.inMode n ↑bg = false ∨ s.bankOf
      { n := n, k := 32 * m + k : Loc } ≠ ↑bg ∨ s.locPlainClass { n := n, k := 32 * m + k : Loc } = false ∨ 32 ≤ k ∨ s.positions n ≤ m) :=
      by
  refine ⟨7, 9, 3, opBg, up, ?_⟩
  decide +kernel

theorem witness_WindowAndOperandAccesses_9 : ∃ (n : Nat) (m : Nat) (k : Nat) (u : Nat) (bg : Fin 8) (l : Loc) (s : State), s.inMode n ↑bg =
      true ∧ n < 256 ∧ k < 32 ∧ m < s.positions n ∧ m < 2 ^ 21 ∧ l = { n := n, k := 32 * m + k : Loc } ∧ u = 8 * n + ↑bg ∧ s.bankOf l = ↑bg
      ∧ s.locPlainClass l = true ∧ (s.chan n).retry = [] := by
  refine ⟨7, 9, 3, 8 * 7 + opBg.val, opBg, ⟨7, 32 * 9 + 3⟩, (up.putBit F.CE_PL_STAT_BG_MODE 7 opBg.val true).put F.RG_GRAN_CLASS 0 0, ?_⟩
  decide +kernel

theorem witness_ArithmeticSlotsLand_1 : ∃ (x : Anvil) (l : Landing), x.landing = [l] ∧ x.cyc + 1 < l.at_ := by
  refine ⟨{ Anvil.empty with cyc := 77, landing := [⟨79, false, 1, 5, 5⟩] }, ⟨79, false, 1, 5, 5⟩, ?_⟩
  decide +kernel

theorem witness_ArithmeticSlotsLand_2 : ∃ (x : Anvil) (l : Landing), x.landing = [l] ∧ l.at_ ≤ x.cyc + 1 ∧ l.toQ = false := by
  refine ⟨⟨[], [], [⟨4, false, 3, 1, 1⟩], 3, none, [], [], []⟩, ⟨4, false, 3, 1, 1⟩, ?_⟩
  decide +kernel

theorem witness_ArithmeticSlotsLand_3 : ∃ (x : Anvil) (l : Landing), ∃ r, x.landing = [l] ∧ l.at_ ≤ x.cyc + 1 ∧ l.toQ = false
      ∧ r ≠ l.r := by
  refine ⟨{ Anvil.empty with cyc := 77, landing := [⟨78, false, 1, 5, 5⟩] }, ⟨78, false, 1, 5, 5⟩, 2, ?_⟩
  decide +kernel

theorem witness_ArithmeticSlotsLand_4 : ∃ (x : Anvil) (l : Landing), ∃ j, x.landing = [l] ∧ l.at_ ≤ x.cyc + 1 ∧ l.toQ = false
      ∧ j < 2048 := by
  refine ⟨{ Anvil.empty with cyc := 77, landing := [⟨78, false, 1, 5, 5⟩] }, ⟨78, false, 1, 5, 5⟩, 2047, ?_⟩
  decide +kernel

theorem witness_ArithmeticSlotsLand_5 : ∃ (x : Anvil) (l : Landing), x.landing = [l] ∧ l.at_ ≤ x.cyc + 1 ∧ l.toQ = true := by
  refine ⟨⟨[], [], [⟨4, true, 3, 1, 1⟩], 3, none, [], [], []⟩, ⟨4, true, 3, 1, 1⟩, ?_⟩
  decide +kernel

theorem witness_ArithmeticSlotsLand_6 : ∃ (x : Anvil) (l : Landing), ∃ r, x.landing = [l] ∧ l.at_ ≤ x.cyc + 1 ∧ l.toQ = true
      ∧ r ≠ l.r := by
  refine ⟨{ Anvil.empty with cyc := 77, landing := [⟨78, true, 1, 5, 5⟩] }, ⟨78, true, 1, 5, 5⟩, 2, ?_⟩
  decide +kernel

theorem witness_ArithmeticSlotsLand_7 : ∃ (x : Anvil) (l : Landing), ∃ j, x.landing = [l] ∧ l.at_ ≤ x.cyc + 1 ∧ l.toQ = true
      ∧ l.r ≠ 0 ∧ j < 256 := by
  refine ⟨{ Anvil.empty with cyc := 77, landing := [⟨78, true, 1, 5, 5⟩] }, ⟨78, true, 1, 5, 5⟩, 255, ?_⟩
  decide +kernel

theorem witness_ArithmeticSlotsLand_8 : ∃ (o : AbOp) (sl : SlotAB) (i : Issue) (x : Site) (s : State), s.runsAb o i x ∧
      o.isCmp = false ∧ o.isPair = false := by
  refine ⟨.fma, .b, issue (slot 5 7 4 5 6 4), idleSite, up, ?_⟩
  exact ⟨by unfold State.runsAb State.issuesAt; decide +kernel, by decide +kernel⟩

theorem witness_ComparesAndPairs_1 : ∃ (o : AbOp) (sl : SlotAB) (i : Issue) (x : Site) (j : Nat) (s : State), s.runsAb o i x
      ∧ o.isCmp = true ∧ j = i.word.format.lane / 8 := by
  refine ⟨.cmplt, .a, issue (slot 5 7 4 5 0 6), idleSite, 1, up, ?_⟩
  exact ⟨by unfold State.runsAb State.issuesAt; decide +kernel, by decide +kernel⟩

theorem witness_ComparesAndPairs_2 : ∃ (o : AbOp) (sl : SlotAB) (i : Issue) (x : Site) (s : State), s.runsAb o i x ∧ o.isPair
      = true := by
  refine ⟨.ftwosum, .a, issue (slot 0 8 1 2 0 7), idleSite, up, ?_⟩
  exact ⟨by unfold State.runsAb State.issuesAt; decide +kernel, by decide +kernel⟩

theorem witness_SpecialFunctionSlots_1 : ∃ (o : COp) (i : Issue) (x : Site) (k : Nat) (s : State), s.issuesAt i x ∧ o.legal
      i.word = true ∧ x.fits (o.fits i.word) = true ∧ k = Nat.max (o.src i.word).lane (o.dst i.word).lane := by
  refine ⟨.ltof, issue (slot 10 8 4 0 0 6), idleSite, 32, up, ?_⟩
  exact ⟨by unfold State.issuesAt; decide +kernel, by decide +kernel⟩

theorem witness_SpecialFunctionSlots_2 : ∃ (w : SlotWord) (a b : Num.Val) (o : COp), o ≠ .lmul := by
  refine ⟨slot 9 8 1 0 0 6, .fault, .fault, .rcp, ?_⟩
  decide +kernel

theorem witness_SpecialFunctionSlots_3 : ∃ (w : SlotWord) (a b : Num.Val) (u : Num.Dy), a = .dy u ∧ u.isZero = true := by
  refine ⟨slot 9 8 1 0 0 6, .dy ⟨0, 5⟩, .fault, ⟨0, 5⟩, ?_⟩
  decide +kernel

theorem witness_SpecialFunctionSlots_4 : ∃ (w : SlotWord) (a b : Num.Val) (u : Num.Dy), a = .dy u ∧ u.isZero = false ∧
      u.isNeg = true := by
  refine ⟨slot 9 8 1 0 0 6, .dy ⟨-1, -2000⟩, .fault, ⟨-1, -2000⟩, ?_⟩
  decide +kernel

theorem witness_SpecialFunctionSlots_5 : ∃ (w : SlotWord) (a b : Num.Val) (u : Num.Dy), a = .dy u ∧ u.lt ⟨-150, 0⟩ = true := by
  refine ⟨slot 9 8 1 0 0 6, .dy ⟨-601, -2⟩, .fault, ⟨-601, -2⟩, ?_⟩
  decide +kernel

theorem witness_StreamAndMeasuringSlots_1 : ∃ (i : Issue) (x : Site) (g : Target) (m : Nat) (tl : Tile) (y : Fetched) (s : State),
      s.issuesAt i x ∧ x.target = some g ∧ DOp.ld.legal i.word = true ∧ x.fits (DOp.ld.fits i.word) = true ∧ i.word.top = false ∧ List.find?
      (fun y => y.1 == i.word.srcA.toNat) g.e.ins = some (m, tl) ∧ (s.anvil i.anvil).fetchedAt i.word.srcA.toNat g.k g.lo = some y := by
  refine ⟨inBody (slot 0 5 0 0 0 0), bodySite, bodyTarget, 0, rowTile 0x20000, theGroup, fetchedState, ?_⟩
  iterate 6 refine ⟨by first | decide +kernel | (unfold State.issuesAt; decide +kernel), ?_⟩
  first | decide +kernel | (unfold State.issuesAt; decide +kernel)

theorem witness_StreamAndMeasuringSlots_2 : ∃ (i : Issue) (x : Site) (g : Target) (m : Nat) (tl : Tile) (d : Nat → SectorBits) (s : State),
      s.issuesAt i x ∧ x.target = some g ∧ DOp.ld.legal i.word = true ∧ x.fits (DOp.ld.fits i.word) = true ∧ i.word.top = false ∧ List.find?
      (fun y => y.1 == i.word.srcA.toNat) g.e.ins = some (m, tl) ∧ tl.scaleMode = 0 ∧ g.lo + g.act ≤ tl.elems ∧ (s.anvil i.anvil).fetchedAt
      i.word.srcA.toNat g.k g.lo = none ∧ s.groupReady tl g.lo g.act = true ∧ s.draws.buckets = [] ∧ s.runOf g.run.drawer g.run.pos = some
      g.run ∧ (∀ p < g.act, ∀ (a : Nat), a = tl.wordAddr (tl.at_ (g.lo + p)) / 64 * 64 → s.cached a [d a]) := by
  refine ⟨inBody (slot 0 5 0 0 0 0), bodySite, bodyTarget, 0, rowTile 0x20000, bodyData, bodyState, ?_⟩
  iterate 12 refine ⟨by first | exact bodyState_cached | decide +kernel | (unfold State.issuesAt; decide +kernel), ?_⟩
  first | exact bodyState_cached | decide +kernel | (unfold State.issuesAt; decide +kernel)

theorem witness_StreamAndMeasuringSlots_3 : ∃ (i : Issue) (x : Site) (o : DOp) (s : State), s.slotSite i.anvil i.ctx = some x ∧
      s.streamWaits i.anvil o i.word x = true := by
  refine ⟨inBody (slot 0 5 0 0 0 0), bodySite, .ld, starvedState, ?_⟩
  decide +kernel

theorem witness_StreamAndMeasuringSlots_4 : ∃ (i : Issue) (x : Site) (g : Target) (m : Nat) (q : Nat) (tl : Tile) (vs : List Num.Val) (s :
      State), s.issuesAt i x ∧ x.target = some g ∧ DOp.st.legal i.word = true ∧ x.fits (DOp.st.fits i.word) = true ∧ i.word.top = false ∧
      List.find? (fun y => y.1 == i.word.dst.toNat) g.e.outs = some (m, tl) ∧ (s.anvil i.anvil).behind = [] ∧ s.streamWaits i.anvil DOp.st
      i.word x = false ∧ vs = List.map (fun p => (s.anvil i.anvil).elem i.word.format i.word.srcA p) (List.range g.act) ∧ q = Tab.get (fun x
      => 0) g.e.ssq 0 + (List.map (Num.squareUnits g.e.asc) vs).sum ∧ (i.word.mod.getLsbD 0 = false ∨ q < 2 ^ 128) := by
  refine ⟨inBody (slot 0 0 1 0 0 1), bodySite, bodyTarget, 0, 0, rowTile 0x30000, (List.range 16).map fun p => (bodyState.anvil 0).elem
    .df32 1 p, bodyState, ?_⟩
  iterate 10 refine ⟨by first | decide +kernel | (unfold State.issuesAt; decide +kernel), ?_⟩
  first | decide +kernel | (unfold State.issuesAt; decide +kernel)

theorem witness_StreamAndMeasuringSlots_5 : ∃ (i : Issue) (x : Site) (n : Nat) (r : Nat → Num.Rnd) (s : State), s.issuesAt i x ∧
      DOp.cvt.legal i.word = true ∧ x.fits (DOp.cvt.fits i.word) = true ∧
      (n = match x.width with
        | some k => 2048 / k
        | none => cvtElems i.word) ∧ ((i.word.top = false ∧ ∀ (e : Nat), r e = Num.Rnd.nearest) ∨
      ∃ g, i.word.top = true ∧ x.target = some g ∧ ∀ (e : Nat), r e = if i.word.dstFmt.width < i.word.srcFmt.width then Num.Rnd.stoch
      (rnBits i.word.cvtRn) (Gen.bits g.run.seed (rnBits i.word.cvtRn) (g.e.index (g.lo + e)) g.e.rstream (g.run.drawBase + BitVec.ofNat 32
      (1024 + x.bundle))) else Num.Rnd.nearest) := by
  refine ⟨inBody (slot 0 7 1 0 3 0), bodySite, 64, fun _ => .nearest, bodyState, ?_⟩
  iterate 4 refine ⟨by first | decide +kernel | (unfold State.issuesAt; decide +kernel) | exact Or.inl ⟨by decide, fun _ => rfl⟩, ?_⟩
  first | decide +kernel | (unfold State.issuesAt; decide +kernel) | exact Or.inl ⟨by decide, fun _ => rfl⟩

theorem witness_StreamAndMeasuringSlots_6 : ∃ (i : Issue) (x : Site) (g : Target) (n k : Nat) (s : State), s.issuesAt i x ∧
      x.target = some g ∧ DOp.rnd.legal i.word = true ∧ x.fits (DOp.rnd.fits i.word) = true ∧ x.width = some k ∧ n = 2048 / k := by
  refine ⟨inBody (slot 0 7 1 9 0 0), bodySite, bodyTarget, 64, 32, bodyState, ?_⟩
  exact ⟨by unfold State.issuesAt; decide +kernel, by decide +kernel⟩

theorem witness_StreamAndMeasuringSlots_7 : ∃ (i : Issue) (x : Site) (g : Target) (k q : Nat) (vs : List Num.Val) (s :
      State), s.issuesAt i x ∧ x.target = some g ∧ DOp.assay.legal i.word = true ∧ x.fits (DOp.assay.fits i.word) = true ∧ k
      = i.word.mod.toNat ∧ vs = ((List.range g.act).map fun p => (s.anvil i.anvil).elem i.word.format i.word.srcA p) ∧ q =
      Tab.get (fun _ => 0) g.e.ssq k + (vs.map (Num.squareUnits g.e.asc)).sum ∧ q < 2 ^ 128 := by
  refine ⟨inBody (slot 3 0 1 0 0 2), bodySite, bodyTarget, 2, 0, ((List.range 16).map fun p => (bodyState.anvil 0).elem
    .df16p 1 p), bodyState, ?_⟩
  exact ⟨by unfold State.issuesAt; decide +kernel, by decide +kernel⟩

theorem witness_StreamAndMeasuringSlots_8 : ∃ (i : Issue) (x : Site) (g : Target) (vs : List Num.Val) (s : State), s.issuesAt
      i x ∧ x.target = some g ∧ DOp.hist.legal i.word = true ∧ x.fits (DOp.hist.fits i.word) = true ∧ vs = ((List.range
      g.act).map fun p => (s.anvil i.anvil).elem i.word.format i.word.srcA p) ∧ (∀ j, Tab.get (fun _ => 0) g.e.hist j +
      vs.length < 2 ^ 32) := by
  refine ⟨inBody (slot 3 0 1 0 0 2), bodySite, bodyTarget, ((List.range 16).map fun p => (bodyState.anvil 0).elem .df16p 1
    p), bodyState, ?_⟩
  iterate 5 refine ⟨by first | exact fun j => by show 0 + _ < _; simp | decide +kernel | (unfold State.issuesAt; decide +kernel), ?_⟩
  first | exact fun j => by show 0 + _ < _; simp | decide +kernel | (unfold State.issuesAt; decide +kernel)

theorem witness_StreamAndMeasuringSlots_9 : ∃ (i : Issue) (x : Site) (g : Target) (k : Nat) (vs : List Num.Val) (c : Capture)
      (s : State), s.issuesAt i x ∧ x.target = some g ∧ DOp.maxacc.legal i.word = true ∧ x.fits (DOp.maxacc.fits i.word) =
      true ∧ k = i.word.mod.toNat ∧ vs = ((List.range g.act).map fun p => (s.anvil i.anvil).elem i.word.format i.word.srcA p)
      ∧ c = Tab.get (fun _ => .zero) g.e.caps k ∧ c.nFault + vs.length < 2 ^ 32 ∧ c.nOvf + vs.length < 2 ^ 32 := by
  refine ⟨inBody (slot 0 0 1 0 3 2), bodySite, bodyTarget, 2, ((List.range 16).map fun p => (bodyState.anvil 0).elem .df32 1
    p), .zero, bodyState, ?_⟩
  exact ⟨by unfold State.issuesAt; decide +kernel, by decide +kernel⟩

theorem witness_MemoryStaysCanonical_1 : ∃ (s t : State), s.mem.wf = true ∧ step s = .next t := by
  refine ⟨{ up with pending := [.caPar 0] }, after (.caPar 0) up, ?_⟩
  exact ⟨by decide +kernel, rfl⟩

theorem witness_LinesStayInTheirChannel_1 : ∃ (s t : State), s.linesFit ∧ step s = .next t := by
  refine ⟨{ hold 0x1000 5 up with pending := [.caPar 0] }, after (.caPar 0) (hold 0x1000 5 up), ?_⟩
  exact ⟨fits_of (by decide +kernel), rfl⟩

theorem witness_SecDedCorrectsAndDetects_1 : ∃ h, h ∈ hsiao.drop 56 := by
  refine ⟨0xC7, ?_⟩
  decide +kernel

theorem witness_SecDedCorrectsAndDetects_2 : ∃ (w : Word), ∃ j, j < 8 := by
  refine ⟨0, 7, ?_⟩
  decide +kernel

theorem witness_SecDedCorrectsAndDetects_3 : ∃ (i : Nat), i < 64 := by
  refine ⟨63, ?_⟩
  decide +kernel

theorem witness_SecDedCorrectsAndDetects_4 : ∃ (w : Word), ∃ i j, i < 64 ∧ j < 64 ∧ i ≠ j := by
  refine ⟨0, 0, 63, ?_⟩
  decide +kernel

theorem witness_HallmarkFindsAFlippedBit_1 : ∃ (d : SectorBits) (k : Nat), k < 512 := by
  refine ⟨0, 511, ?_⟩
  decide +kernel

theorem witness_ZeroAndComparisons_1 : ∃ (f : Num.Fmt), f.isDF = true := by
  refine ⟨.df4, ?_⟩
  decide +kernel

theorem witness_ZeroAndComparisons_2 : ∃ (o : COp) (w : SlotWord) (a b : Num.Val), o.legal w = true ∧ (o.dst w).isDF = true := by
  refine ⟨.exp2, slot 0 8 1 0 0 6, .fault, .fault, ?_⟩
  decide +kernel

theorem witness_ZeroAndComparisons_3 : ∃ (f : Num.Fmt) (flt p : Bool) (v c : Num.Val) (o : AbOp), (o = .cmplt ∨ o = .cmpeq) := by
  refine ⟨.df32, false, true, .fault, .fault, .cmplt, ?_⟩
  decide +kernel

theorem witness_ZeroAndComparisons_4 : ∃ (f : Num.Fmt) (flt p : Bool) (v c : Num.Val) (o : AbOp), (o = .min ∨ o = .max) := by
  refine ⟨.df32, false, true, .fault, .fault, .max, ?_⟩
  decide +kernel

theorem witness_LogProductsAreExact_1 : ∃ (f : Num.Fmt) (flt n m : Bool) (l k top : Int) (g : Nat), (f = .dl16 ∨ f = .dl8) ∧
      g = f.logBits ∧ top = 2 ^ (f.width - 2) ∧ -top < l + k ∧ l + k < top ∧ (¬((n != m) = true ∧ l + k = -1)) := by
  refine ⟨.dl16, true, false, true, 5, -7, 2 ^ 14, 8, ?_⟩
  decide +kernel

theorem witness_LogProductsAreExact_2 : ∃ (f : Num.Fmt) (flt n m : Bool) (l k top : Int) (g : Nat), (f = .dl16 ∨ f = .dl8) ∧
      g = f.logBits ∧ top = 2 ^ (f.width - 2) ∧ (n != m) = true ∧ l + k = -1 := by
  refine ⟨.dl8, true, false, true, 5, -6, 2 ^ 6, 3, ?_⟩
  decide +kernel

theorem witness_LogProductsAreExact_3 : ∃ (f : Num.Fmt) (flt n m : Bool) (l k top : Int) (g : Nat), (f = .dl16 ∨ f = .dl8) ∧
      g = f.logBits ∧ top = 2 ^ (f.width - 2) ∧ top ≤ l + k := by
  refine ⟨.dl8, true, false, true, 63, 1, 2 ^ 6, 3, ?_⟩
  decide +kernel

theorem witness_LogProductsAreExact_4 : ∃ (f : Num.Fmt) (flt n m : Bool) (l k top : Int) (g : Nat), (f = .dl16 ∨ f = .dl8) ∧
      g = f.logBits ∧ top = 2 ^ (f.width - 2) ∧ l + k ≤ -top := by
  refine ⟨.dl8, true, false, true, -63, -1, 2 ^ 6, 3, ?_⟩
  decide +kernel

theorem witness_LogProductsAreExact_5 : ∃ (f : Num.Fmt) (flt n m : Bool) (l k top : Int) (g : Nat) (a : Num.Dy), (f = .dl16 ∨
      f = .dl8) ∧ g = f.logBits ∧ top = 2 ^ (f.width - 2) := by
  refine ⟨.dl16, true, false, true, 0, 0, 2 ^ 14, 8, ⟨0, 0⟩, ?_⟩
  decide +kernel

theorem witness_BucketSumsAreExact_1 : ∃ (bx code : Nat) (a : Num.Dy) (r : Int), r = (a.scaleBy (174 - (bx : Int))).toIntRne
      ∧ |(r : ℚ) - ratOf a / 2 ^ ((bx : Int) - 174)| = 1 / 2 := by
  refine ⟨174, 0, ⟨1, -1⟩, 0, ?_⟩
  exact ⟨by decide +kernel, by norm_num [ratOf]⟩

theorem witness_BucketSumsAreExact_2 : ∃ (bx code : Nat) (a : Num.Dy) (r : Int), r = (a.scaleBy (174 - (bx : Int))).toIntRne
      ∧ code < 255 := by
  refine ⟨174, 254, ⟨1, 0⟩, 1, ?_⟩
  decide +kernel

theorem witness_BucketSumsAreExact_3 : ∃ (l : List (BitVec 64)), l.length ≤ 2 ^ 16 ∧ (∀ x ∈ l, x = Num.dxFault ∨
      x.toInt.natAbs ≤ 2 ^ 47 - 1) ∧ Num.dxFault ∈ l := by
  refine ⟨[Num.dxFault, 5], ?_⟩
  exact ⟨by decide +kernel, fun x hx => by fin_cases hx <;> decide +kernel, by decide +kernel⟩

theorem witness_BucketSumsAreExact_4 : ∃ (l : List (BitVec 64)), l.length ≤ 2 ^ 16 ∧ (∀ x ∈ l, x = Num.dxFault ∨
      x.toInt.natAbs ≤ 2 ^ 47 - 1) ∧ Num.dxFault ∉ l := by
  refine ⟨[BitVec.ofNat 64 (2 ^ 47 - 1), 5], ?_⟩
  exact ⟨by decide +kernel, fun x hx => by fin_cases hx <;> decide +kernel, by decide +kernel⟩

theorem witness_BucketSumsAreExact_5 : ∃ (l : List (BitVec 64)) (m : List (BitVec 64)), l.length ≤ 2 ^ 16 ∧ (∀ x ∈ l, x =
      Num.dxFault ∨ x.toInt.natAbs ≤ 2 ^ 47 - 1) ∧ l.Perm m := by
  refine ⟨[1, 2], [2, 1], ?_⟩
  exact ⟨by decide +kernel, fun x hx => by fin_cases hx <;> decide +kernel, List.Perm.swap 2 1 []⟩

end Sys2Proof.Tests
end

section
/-!
SUPPORT. Wide values as lists of bytes, and what the array and the Planisher units hold after a write of one of them.
-/

namespace Sys2Proof

/-! ## Bytes of a value -/

theorem ofBytes_lt (bs : List Byte) : ofBytes bs < 2 ^ (8 * bs.length) := by
  induction bs with
  | nil => simp [ofBytes]
  | cons b bs ih =>
    have hb : b.toNat < 2 ^ 8 := b.isLt
    have e : (2 : Nat) ^ (8 * (bs.length + 1)) = 2 ^ 8 * 2 ^ (8 * bs.length) := by rw [Nat.mul_succ, Nat.pow_add, Nat.mul_comm]
    change b.toNat + 256 * ofBytes bs < 2 ^ (8 * (bs.length + 1))
    omega

theorem ofBytes_shiftRight (bs : List Byte) (k : Nat) : ofBytes bs >>> (8 * k) = ofBytes (bs.drop k) := by
  induction k generalizing bs with
  | zero => rfl
  | succ k ih =>
    cases bs with
    | nil => simp [ofBytes]
    | cons b bs =>
      have hb : b.toNat < 2 ^ 8 := b.isLt
      have e : ofBytes (b :: bs) >>> 8 = ofBytes bs := by
        change (b.toNat + 256 * ofBytes bs) >>> 8 = ofBytes bs
        omega
      rw [show 8 * (k + 1) = 8 + 8 * k by omega, Nat.shiftRight_add, e, ih, List.drop_succ_cons]

theorem ofBytes_mod (bs : List Byte) : BitVec.ofNat 8 (ofBytes bs) = bs.getD 0 0 := by
  cases bs with
  | nil => rfl
  | cons b bs =>
    apply BitVec.eq_of_toNat_eq
    have hb : b.toNat < 2 ^ 8 := b.isLt
    change (b.toNat + 256 * ofBytes bs) % 2 ^ 8 = b.toNat
    omega

/-- Byte `j` of the number that a list of bytes spells. -/
theorem byteOf_ofBytes {w : Nat} (bs : List Byte) (j : Nat) (h : 8 * bs.length ≤ w) :
    byteOf (BitVec.ofNat w (ofBytes bs)) j = bs.getD j 0 := by
  have hlt : ofBytes bs < 2 ^ w := Nat.lt_of_lt_of_le (ofBytes_lt bs) (Nat.pow_le_pow_right (by decide) h)
  rw [byteOf, BitVec.toNat_ofNat, Nat.mod_eq_of_lt hlt, ofBytes_shiftRight, ofBytes_mod]
  simp [List.getD_eq_getElem?_getD]

theorem bytesOf_succ {w : Nat} (n : Nat) (x : BitVec w) :
    bytesOf (n + 1) x = BitVec.ofNat 8 x.toNat :: bytesOf n (x >>> 8) := by
  simp [bytesOf, List.range_succ_eq_map, byteOf, Function.comp_def, Nat.mul_succ, Nat.add_comm, Nat.shiftRight_add]

theorem ofBytes_bytesOf {w : Nat} (n : Nat) (x : BitVec w) : ofBytes (bytesOf n x) = x.toNat % 2 ^ (8 * n) := by
  induction n generalizing x with
  | zero => simp [bytesOf, ofBytes, Nat.mod_one]
  | succ n ih =>
    have e : (2 : Nat) ^ (8 * (n + 1)) = 256 * 2 ^ (8 * n) := by rw [Nat.mul_succ, Nat.pow_add, Nat.mul_comm]
    rw [bytesOf_succ]
    change x.toNat % 256 + 256 * ofBytes (bytesOf n (x >>> 8)) = _
    rw [ih, e, BitVec.toNat_ushiftRight, Nat.shiftRight_eq_div_pow, Nat.mod_mul]

@[simp] theorem length_bytesOf {w : Nat} (n : Nat) (x : BitVec w) : (bytesOf n x).length = n := by simp [bytesOf]

/-- A sector is the number that its bytes spell. -/
@[simp] theorem sector_of_bytes (d : SectorBits) : BitVec.ofNat 512 (ofBytes (bytesOf 64 d)) = d := by
  rw [ofBytes_bytesOf, Nat.mod_eq_of_lt d.isLt, BitVec.ofNat_toNat, BitVec.setWidth_eq]

end Sys2Proof

namespace Sys2Proof.Machine

/-! ## The array after a write -/

theorem readBytes_length (d : Nat → Byte) (t : List Host.Cell) (a n : Nat) : (readBytes d t a n).length = n := by
  simp [readBytes]

theorem readBytes_writeBytes_same (d : Nat → Byte) (t : List Host.Cell) (a : Nat) (bs : List Byte) :
    readBytes d (writeBytes d t a bs) a bs.length = bs := by
  apply List.ext_getElem (readBytes_length _ _ _ _)
  intro i h _
  simp only [readBytes, writeBytes, List.getElem_map, List.getElem_range]
  exact Tab.get_setMany_in _ _ _ _ _ (by simpa [readBytes] using h)

theorem readBytes_writeBytes_other (d : Nat → Byte) (t : List Host.Cell) (a b n : Nat) (bs : List Byte)
    (h : b + n ≤ a ∨ a + bs.length ≤ b) : readBytes d (writeBytes d t a bs) b n = readBytes d t b n := by
  refine List.map_congr_left fun i hi => ?_
  have hi : i < n := List.mem_range.mp hi
  exact Tab.get_setMany_other _ _ _ _ _ (by omega)

section
variable (s : State) (l x : Loc) (d : SectorBits) (cs : List Byte)

@[simp] theorem State.rawSector_writeRaw_same : (s.writeRaw l d cs).rawSector l = d := by
  change BitVec.ofNat 512 (ofBytes (readBytes s.mem.dataBlank (writeBytes s.mem.dataBlank s.mem.dram (l.index * 64)
    (bytesOf 64 d)) (l.index * 64) 64)) = d
  have h := readBytes_writeBytes_same s.mem.dataBlank s.mem.dram (l.index * 64) (bytesOf 64 d)
  rw [length_bytesOf] at h
  rw [h, sector_of_bytes]

theorem State.rawSector_writeRaw_other (h : x.index ≠ l.index) : (s.writeRaw l d cs).rawSector x = s.rawSector x :=
  congrArg (fun bs => BitVec.ofNat 512 (ofBytes bs))
    (readBytes_writeBytes_other s.mem.dataBlank s.mem.dram _ _ _ _ (by rw [length_bytesOf]; omega))

theorem State.rawChecks_writeRaw_same (h : cs.length = 8) : (s.writeRaw l d cs).rawChecks l = cs := by
  have e := readBytes_writeBytes_same s.mem.chkBlank s.mem.chk (l.index * 8) cs
  rwa [h] at e

theorem State.rawChecks_writeRaw_other (hc : cs.length = 8) (h : x.index ≠ l.index) :
    (s.writeRaw l d cs).rawChecks x = s.rawChecks x :=
  readBytes_writeBytes_other s.mem.chkBlank s.mem.chk _ _ _ _ (by omega)

@[simp] theorem State.rawSector_touch (a : Nat) : (s.touch a).rawSector l = s.rawSector l := rfl
@[simp] theorem State.rawChecks_touch (a : Nat) : (s.touch a).rawChecks l = s.rawChecks l := rfl

end

/-- Sectors that their channels number below 2^26 have numbers of their own. -/
theorem Loc.index_injective {l x : Loc} (hl : l.k < 2 ^ 26) (hx : x.k < 2 ^ 26) (h : l.index = x.index) : l = x := by
  obtain ⟨n, k⟩ := l
  obtain ⟨m, j⟩ := x
  simp only [Loc.index, Loc.mk.injEq] at *
  omega

/-! ## Units after a write of one -/

section
variable (s : State) (u v : Nat) (x : PUnit)

@[simp] theorem State.unit_setUnit_same : (s.setUnit u x).unit u = x := Tab.get_set_same _ _ _ _

theorem State.unit_setUnit_other (h : v ≠ u) : (s.setUnit u x).unit v = s.unit v := Tab.get_set_other _ _ _ _ _ h

end

end Sys2Proof.Machine
end

section
/-!
PROOF of O47: window transfers and operand accesses of a Planisher unit.
-/

namespace Sys2Proof.Machine

/-! ## A transfer that fails its check (R140) -/

/-- Does a PLANISH or SAMPLE run? -/
def State.planishRuns (s : State) : Bool :=
  s.anyCmd fun _ c => (c.opcode == Op.planish.code || c.opcode == Op.sample.code) && c.phase != .done

/-- The unit after a failed transfer. -/
def PUnit.failed (x : PUnit) (runs : Bool) : PUnit :=
  { x with fails := x.fails + 1, lost := x.lost || decide (1 ≤ x.fails) && runs }

/-- The registers after one. -/
def State.failRegs (s : State) (n u : Nat) : State :=
  if 1 ≤ (s.unit u).fails then (s.put F.CE_PL_STAT_WIN_ERR n 1).put F.CE_PL_STAT_WIN_FAIL n 1
  else s.put F.CE_PL_STAT_WIN_ERR n 1

section
variable (s : State) (n u : Nat)

theorem State.windowFail_eq : s.windowFail n u = (s.failRegs n u).setUnit u ((s.unit u).failed s.planishRuns) := by
  by_cases h : 1 ≤ (s.unit u).fails
  · have h2 : decide (2 ≤ (s.unit u).fails + 1) = true := decide_eq_true (by omega)
    simp only [State.windowFail, State.failRegs, PUnit.failed, State.when, h, h2, if_true, decide_true]
    rfl
  · have h2 : decide (2 ≤ (s.unit u).fails + 1) = false := decide_eq_false (by omega)
    simp only [State.windowFail, State.failRegs, PUnit.failed, State.when, h, h2, if_false, decide_false, Bool.false_eq_true]
    rfl

theorem State.failRegs_eq : s.failRegs n u = { s with regs := (s.failRegs n u).regs } := by
  by_cases h : 1 ≤ (s.unit u).fails <;> simp only [State.failRegs, h, if_true, if_false] <;> rfl

theorem State.failRegs_pl : (s.failRegs n u).pl = s.pl := by rw [State.failRegs_eq]

theorem State.failRegs_err : (s.failRegs n u).fld F.CE_PL_STAT_WIN_ERR n = 1 := by
  have h1 : (s.put F.CE_PL_STAT_WIN_ERR n 1).fld F.CE_PL_STAT_WIN_ERR n = 1 := fld_put_same _ _ _ _ (by decide)
  unfold State.failRegs
  split
  · rw [fld_put_field _ F.CE_PL_STAT_WIN_FAIL F.CE_PL_STAT_WIN_ERR _ _ rfl (by decide), h1]
  · exact h1

theorem State.failRegs_fail : (s.failRegs n u).fld F.CE_PL_STAT_WIN_FAIL n =
    if 1 ≤ (s.unit u).fails then 1 else s.fld F.CE_PL_STAT_WIN_FAIL n := by
  unfold State.failRegs
  split
  · exact fld_put_same _ _ _ _ (by decide)
  · exact fld_put_field _ _ _ _ _ rfl (by decide)

theorem State.failRegs_but : RegsBut s (s.failRegs n u) (fun o => o = Reg.offset .CE_PL_STAT n) := by
  have h := (RegsBut.refl s fun o => o = Reg.offset .CE_PL_STAT n).setReg .CE_PL_STAT n
    (Fld.into F.CE_PL_STAT_WIN_ERR (s.reg .CE_PL_STAT n) 1) rfl
  unfold State.failRegs
  split
  · exact h.setReg _ _ _ rfl
  · exact h

/-- What a failed transfer shows, whatever else it does to the unit: the clauses that a read and a write share. -/
theorem State.failed_transfer {t : State} (ht : t = { s with regs := (s.failRegs n u).regs, pl := t.pl })
    (hl : (t.unit u).lost = ((s.unit u).failed s.planishRuns).lost) (hv : ∀ v, v ≠ u → t.unit v = s.unit v) :
    s.windowFailed t n u ∧ t.fld F.CE_PL_STAT_WIN_ERR n = 1 ∧ RegsBut s t (fun o => o = Reg.offset .CE_PL_STAT n) ∧
      t = { s with regs := t.regs, pl := t.pl } := by
  have hr : t.regs = (s.failRegs n u).regs := by rw [ht]
  have hf : t.fld F.CE_PL_STAT_WIN_FAIL n = if 1 ≤ (s.unit u).fails then 1 else s.fld F.CE_PL_STAT_WIN_FAIL n :=
    (State.fld_congr hr _ _).trans (s.failRegs_fail n u)
  refine ⟨⟨fun h => ⟨by rw [hf, if_pos h], ?_⟩, fun h => ⟨by rw [hf, if_neg (by omega)], ?_⟩, hv⟩,
    (State.fld_congr hr _ _).trans (s.failRegs_err n u), (s.failRegs_but n u).congr hr, by rw [hr]; exact ht⟩
  · simp [hl, PUnit.failed, h, State.planishRuns]
  · simp [hl, PUnit.failed, h]

end

/-! ## Window transfers (R139, R140) -/

section
variable {a : BitVec 44} {n k off : Nat} {s : State}

theorem exec_windowWrite_stays (d : SectorBits) (h : BitVec 64)
    (w : windowUnit a = none ∨ ∃ n k off, windowUnit a = some (n, k, off) ∧ (s.inMode n k = false ∨ off % 64 ≠ 0)) :
    exec (.planisherWindowWrite a d h) s = .next s := by
  change execPlanisherWindowWrite a d h s = _
  obtain w | ⟨n, k, off, w, hm | ho⟩ := w
  · simp [execPlanisherWindowWrite, w]
  · simp [execPlanisherWindowWrite, w, hm]
  · simp [execPlanisherWindowWrite, w, ho]

theorem exec_windowRead_stays (h : BitVec 64)
    (w : windowUnit a = none ∨ ∃ n k off, windowUnit a = some (n, k, off) ∧ (s.inMode n k = false ∨ off % 64 ≠ 0)) :
    exec (.planisherWindowRead a h) s = .next s := by
  change execPlanisherWindowRead a h s = _
  obtain w | ⟨n, k, off, w, hm | ho⟩ := w
  · simp [execPlanisherWindowRead, w]
  · simp [execPlanisherWindowRead, w, hm]
  · simp [execPlanisherWindowRead, w, ho]

variable (w : windowUnit a = some (n, k, off)) (hm : s.inMode n k = true) (ho : off % 64 = 0)
include w hm ho

theorem exec_windowWrite_reserved (d : SectorBits) (h : BitVec 64) (h1 : 1 ≤ off) (h2 : off < 0x800 ∨ 0x1000 ≤ off) :
    exec (.planisherWindowWrite a d h) s = .next s := by
  have e0 : (off == 0) = false := beq_false_of_ne (by omega)
  have e1 : decide (0x800 ≤ off ∧ off < 0x1000) = false := decide_eq_false (by omega)
  change execPlanisherWindowWrite a d h s = _
  simp only [execPlanisherWindowWrite, w, hm, ho, e0, e1]
  rfl

/-- At the control registers or in the payload buffer a write is taken, or fails its check. -/
theorem exec_windowWrite (d : SectorBits) (h : BitVec 64) (hp : off = 0 ∨ (0x800 ≤ off ∧ off < 0x1000)) :
    exec (.planisherWindowWrite a d h) s = .next (
      if eccLanes d = h then s.setUnit (8 * n + k) ((s.unit (8 * n + k)).write off d)
      else (s.windowFail n (8 * n + k)).setUnit (8 * n + k) { (s.windowFail n (8 * n + k)).unit (8 * n + k) with err := true }) := by
  have e : (off == 0 || decide (0x800 ≤ off ∧ off < 0x1000)) = true := by simpa using hp
  change execPlanisherWindowWrite a d h s = _
  simp only [execPlanisherWindowWrite, w, hm, ho, e]
  rfl

theorem exec_windowRead (h : BitVec 64) : exec (.planisherWindowRead a h) s = .next (
    if eccLanes ((s.unit (8 * n + k)).read off) = h then s.setUnit (8 * n + k) { s.unit (8 * n + k) with fails := 0 }
    else s.windowFail n (8 * n + k)) := by
  change execPlanisherWindowRead a h s = _
  simp only [execPlanisherWindowRead, w, hm, ho]
  rfl

end

/-! ## The clauses about the window -/

section
variable {a : BitVec 44} {n k off u : Nat} {s : State} (w : windowUnit a = some (n, k, off)) (hu : u = 8 * n + k)
  (hm : s.inMode n k = true) (ho : off % 64 = 0)
include w hu hm ho

theorem windowWrite_registers (d : SectorBits) (h : BitVec 64) (hh : h = (hallmark d).setWidth 64) (h0 : off = 0) :
    ∃ t, exec (.planisherWindowWrite a d h) s = .next t ∧
      t.unit u = { s.unit u with
        pctl := sectorWord d 0
        param0 := sectorWord d 1
        param1 := sectorWord d 2
        param2 := sectorWord d 3
        fails := 0
        step := 0
        seen := [] } ∧ (∀ v, v ≠ u → t.unit v = s.unit v) ∧ t = { s with pl := t.pl } := by
  subst hu hh
  refine ⟨_, (exec_windowWrite w hm ho d _ (.inl h0)).trans (congrArg _ (if_pos rfl)), ?_,
    fun v hv => State.unit_setUnit_other _ _ _ _ hv, rfl⟩
  rw [State.unit_setUnit_same, PUnit.write, if_pos h0]

theorem windowWrite_payload (d : SectorBits) (h : BitVec 64) (hh : h = (hallmark d).setWidth 64) (h1 : 0x800 ≤ off)
    (h2 : off < 0x1000) : ∃ t, exec (.planisherWindowWrite a d h) s = .next t ∧
      (∀ j, Tab.get (fun _ => 0) (t.unit u).payload j = if j = (off - 0x800) / 64 then d else Tab.get (fun _ => 0) (s.unit u).payload j) ∧
      t.unit u = { s.unit u with
        payload := (t.unit u).payload
        fails := 0 } ∧ (∀ v, v ≠ u → t.unit v = s.unit v) ∧ t = { s with pl := t.pl } := by
  subst hu hh
  have e : (s.unit (8 * n + k)).write off d =
      { s.unit (8 * n + k) with payload := Tab.insert (s.unit (8 * n + k)).payload ((off - 0x800) / 64) d, fails := 0 } := by
    rw [PUnit.write, if_neg (by omega), if_pos ⟨h1, h2⟩]
  refine ⟨_, (exec_windowWrite w hm ho d _ (.inr ⟨h1, h2⟩)).trans (congrArg _ (if_pos rfl)), fun j => ?_, ?_,
    fun v hv => State.unit_setUnit_other _ _ _ _ hv, rfl⟩
  · rw [State.unit_setUnit_same, e]
    split
    · next hj => rw [hj, Tab.get_insert_same]
    · next hj => rw [Tab.get_insert_other _ _ _ _ _ hj]
  · rw [State.unit_setUnit_same, e]

theorem windowWrite_fails (d : SectorBits) (h : BitVec 64) (hh : h ≠ (hallmark d).setWidth 64)
    (hp : off = 0 ∨ (0x800 ≤ off ∧ off < 0x1000)) : ∃ t, exec (.planisherWindowWrite a d h) s = .next t ∧
      t.unit u = { s.unit u with
        err := true
        fails := (s.unit u).fails + 1
        lost := (t.unit u).lost } ∧ s.windowFailed t n u ∧ t.fld F.CE_PL_STAT_WIN_ERR n = 1 ∧
      RegsBut s t (fun o => o = Reg.offset .CE_PL_STAT n) ∧ t = { s with regs := t.regs, pl := t.pl } := by
  have he := exec_windowWrite w hm ho d h hp
  rw [if_neg (show ¬eccLanes d = h from Ne.symm hh), State.windowFail_eq, State.unit_setUnit_same, ← hu] at he
  refine ⟨_, he, by rw [State.unit_setUnit_same]; rfl, State.failed_transfer s n u ?_ ?_ fun v hv => ?_⟩
  · rw [State.setUnit, State.setUnit, State.failRegs_eq]
  · rw [State.unit_setUnit_same]
  · rw [State.unit_setUnit_other _ _ _ _ hv, State.unit_setUnit_other _ _ _ _ hv, State.unit, State.failRegs_pl, State.unit]

theorem windowRead_taken (h : BitVec 64) (hh : h = (hallmark ((s.unit u).read off)).setWidth 64) :
    ∃ t, exec (.planisherWindowRead a h) s = .next t ∧
      t.unit u = { s.unit u with fails := 0 } ∧ (∀ v, v ≠ u → t.unit v = s.unit v) ∧ t = { s with pl := t.pl } := by
  subst hu hh
  exact ⟨_, (exec_windowRead w hm ho _).trans (congrArg _ (if_pos rfl)), State.unit_setUnit_same _ _ _,
    fun v hv => State.unit_setUnit_other _ _ _ _ hv, rfl⟩

theorem windowRead_fails (h : BitVec 64) (hh : h ≠ (hallmark ((s.unit u).read off)).setWidth 64) :
    ∃ t, exec (.planisherWindowRead a h) s = .next t ∧
      t.unit u = { s.unit u with
        fails := (s.unit u).fails + 1
        lost := (t.unit u).lost } ∧ s.windowFailed t n u ∧ t.fld F.CE_PL_STAT_WIN_ERR n = 1 ∧
      RegsBut s t (fun o => o = Reg.offset .CE_PL_STAT n) ∧ t = { s with regs := t.regs, pl := t.pl } := by
  have he := exec_windowRead w hm ho h
  rw [← hu, if_neg (show ¬eccLanes ((s.unit u).read off) = h from Ne.symm hh), State.windowFail_eq] at he
  refine ⟨_, he, by rw [State.unit_setUnit_same]; rfl, State.failed_transfer s n u ?_ ?_ fun v hv => ?_⟩
  · rw [State.setUnit, State.failRegs_eq]
  · rw [State.unit_setUnit_same]
  · rw [State.unit_setUnit_other _ _ _ _ hv, State.unit, State.failRegs_pl, State.unit]

end

/-! ## Operand accesses (R138) -/

theorem exec_operandAccess_stays (n m k : Nat) (bg : Fin 8) (x : PlAccess) (s : State)
    (h : s.inMode n bg.val = false ∨ s.bankOf ⟨n, 32 * m + k⟩ ≠ bg.val ∨
      s.locPlainClass ⟨n, 32 * m + k⟩ = false ∨ 32 ≤ k ∨ s.positions n ≤ m) :
    exec (.planisherOperandAccess n bg x m k) s = .next s := by
  change execPlanisherOperandAccess n bg x m k s = _
  unfold execPlanisherOperandAccess
  refine if_pos ?_
  obtain h | h | h | h | h := h <;> simp [h]

/-- A unit without an operation keeps the column in its segment buffer. -/
theorem PUnit.take_idle {x : PUnit} (h : x.op = none) (k : Nat) (d : SectorBits) :
    x.take k d = { x with seg := Tab.insert x.seg k d } := by rw [PUnit.take, h]

/-- Drawing open words changes the counter of free values alone. -/
theorem State.drawSector_eq (s : State) : s.drawSector.2 = { s with freeCtr := s.drawSector.2.freeCtr } :=
  foldl_keeps (P := fun b : List Word × State => b.2 = { s with freeCtr := b.2.freeCtr })
    (fun b _ h => by
      change { b.2 with freeCtr := b.2.freeCtr + 1 } = { s with freeCtr := b.2.freeCtr + 1 }
      rw [h]) _ ([], s) rfl

/-- What a WR writes: what the unit presents, or else an open value. -/
def State.presented (s : State) (u k : Nat) : SectorBits × State := match (s.unit u).present k with
  | some d => (d, s)
  | none => s.drawSector

theorem State.presented_eq (s : State) (u k : Nat) :
    (s.presented u k).2 = { s with freeCtr := (s.presented u k).2.freeCtr } := by
  unfold State.presented
  split
  · rfl
  · exact s.drawSector_eq

theorem State.presented_some {s : State} {u k : Nat} {d : SectorBits} (h : (s.unit u).present k = some d) :
    (s.presented u k).1 = d := by rw [State.presented, h]

/-- The granule of a sector is marked as holding data. -/
def State.touchAt (s : State) (l : Loc) : State := match s.addrOf l with
  | some a => s.touch a
  | none => s

theorem State.touchAt_eq (s : State) (l : Loc) :
    s.touchAt l = { s with mem := { s.mem with touched := (s.touchAt l).mem.touched } } := by
  unfold State.touchAt
  split <;> rfl

@[simp] theorem State.rawSector_touchAt (s : State) (l x : Loc) : (s.touchAt l).rawSector x = s.rawSector x := by
  rw [State.touchAt_eq]
  rfl

@[simp] theorem State.rawChecks_touchAt (s : State) (l x : Loc) : (s.touchAt l).rawChecks x = s.rawChecks x := by
  rw [State.touchAt_eq]
  rfl

section
variable {n m k u : Nat} {bg : Fin 8} {s : State} (hm : s.inMode n bg.val = true) (hn : n < 256) (hk : k < 32)
  (hp : m < s.positions n) (hb : s.bankOf ⟨n, 32 * m + k⟩ = bg.val) (hc : s.locPlainClass ⟨n, 32 * m + k⟩ = true)
  (hr : (s.chan n).retry = [])
include hm hn hk hp hb hc hr

/-- Is an access served?  It is on a Plain position of the bank group with no request to go first. -/
theorem operandAccess_served : (!s.inMode n bg.val || decide (256 ≤ n ∨ 32 ≤ k ∨ s.positions n ≤ m) ||
    s.bankOf ⟨n, 32 * m + k⟩ != bg.val || !s.locPlainClass ⟨n, 32 * m + k⟩ ||
    !(s.servables n [] (s.chan n).retry).isEmpty) = false := by
  have e : decide (256 ≤ n ∨ 32 ≤ k ∨ s.positions n ≤ m) = false := decide_eq_false (by omega)
  rw [hm, e, hb, hc, hr]
  simp [State.servables]

theorem exec_operandAccess_row (x : PlAccess) (hx : x = .act ∨ x = .pre) :
    exec (.planisherOperandAccess n bg x m k) s = .next s := by
  change execPlanisherOperandAccess n bg x m k s = _
  simp only [execPlanisherOperandAccess, operandAccess_served hm hn hk hp hb hc hr]
  obtain rfl | rfl := hx <;> rfl

theorem exec_operandAccess_rd : exec (.planisherOperandAccess n bg .rd m k) s =
    .next (s.setUnit (8 * n + bg.val) ((s.unit (8 * n + bg.val)).take k (s.rawSector ⟨n, 32 * m + k⟩))) := by
  change execPlanisherOperandAccess n bg .rd m k s = _
  simp only [execPlanisherOperandAccess, operandAccess_served hm hn hk hp hb hc hr]
  rfl

theorem exec_operandAccess_wr : exec (.planisherOperandAccess n bg .wr m k) s =
    .next (((s.presented (8 * n + bg.val) k).2.writeRaw ⟨n, 32 * m + k⟩ (s.presented (8 * n + bg.val) k).1
      (List.replicate 8 0)).touchAt ⟨n, 32 * m + k⟩) := by
  change execPlanisherOperandAccess n bg .wr m k s = _
  simp only [execPlanisherOperandAccess, operandAccess_served hm hn hk hp hb hc hr]
  rfl

/-- An RD delivers the array's sector to the unit. -/
theorem operandAccess_delivers : ∃ t, exec (.planisherOperandAccess n bg .rd m k) s = .next t ∧
    t.unit (8 * n + bg.val) = (s.unit (8 * n + bg.val)).take k (s.rawSector ⟨n, 32 * m + k⟩) ∧
    ((s.unit (8 * n + bg.val)).op = none → ∀ j, Tab.get (fun _ => 0) (t.unit (8 * n + bg.val)).seg j =
      if j = k then s.rawSector ⟨n, 32 * m + k⟩ else Tab.get (fun _ => 0) (s.unit (8 * n + bg.val)).seg j) ∧
    (∀ v, v ≠ 8 * n + bg.val → t.unit v = s.unit v) ∧ t = { s with pl := t.pl } := by
  refine ⟨_, exec_operandAccess_rd hm hn hk hp hb hc hr, State.unit_setUnit_same _ _ _, fun ho j => ?_,
    fun v hv => State.unit_setUnit_other _ _ _ _ hv, rfl⟩
  rw [State.unit_setUnit_same, PUnit.take_idle ho]
  by_cases hj : j = k
  · rw [if_pos hj, hj, Tab.get_insert_same]
  · rw [if_neg hj, Tab.get_insert_other _ _ _ _ _ hj]

/-- A WR leaves what the unit presents in the array, with check bytes of 0. -/
theorem operandAccess_writes (h21 : m < 2 ^ 21) : ∃ t, exec (.planisherOperandAccess n bg .wr m k) s = .next t ∧
    t.rawChecks ⟨n, 32 * m + k⟩ = List.replicate 8 0#8 ∧
    (∀ d, (s.unit (8 * n + bg.val)).present k = some d → t.rawSector ⟨n, 32 * m + k⟩ = d) ∧
    (∀ x, x.n < 256 → x.k < 2 ^ 26 → x ≠ ⟨n, 32 * m + k⟩ → t.rawSector x = s.rawSector x ∧ t.rawChecks x = s.rawChecks x) ∧
    t.pl = s.pl ∧ t.regs = s.regs ∧ t.draws = s.draws ∧ t.anv = s.anv := by
  have hl : (⟨n, 32 * m + k⟩ : Loc).k < 2 ^ 26 := by
    change 32 * m + k < 2 ^ 26
    omega
  refine ⟨_, exec_operandAccess_wr hm hn hk hp hb hc hr, ?_, fun d hd => ?_, fun x _ hx hne => ?_, ?_⟩
  · rw [State.rawChecks_touchAt, State.rawChecks_writeRaw_same _ _ _ _ rfl]
    rfl
  · rw [State.rawSector_touchAt, State.rawSector_writeRaw_same, State.presented_some hd]
  · have hi : x.index ≠ (⟨n, 32 * m + k⟩ : Loc).index := fun h => hne (Loc.index_injective hx hl h)
    rw [State.rawSector_touchAt, State.rawChecks_touchAt, State.rawSector_writeRaw_other _ _ _ _ _ hi,
      State.rawChecks_writeRaw_other _ _ _ _ _ rfl hi, State.presented_eq]
    exact ⟨rfl, rfl⟩
  · rw [State.touchAt_eq, State.presented_eq]
    exact ⟨rfl, rfl, rfl, rfl⟩

end

/-- Settles O47: each clause is the theorem above about that kind of transfer or access.  What a unit makes of its operands rests on
log 58, and that a second failure ends its work on log 59; here they are `PUnit.take`, `PUnit.present` and `PUnit.failed`. -/
theorem windowAndOperandAccesses : Obligations.WindowAndOperandAccesses := by
  unfold Obligations.WindowAndOperandAccesses
  refine ⟨fun a d h s w => ⟨exec_windowWrite_stays d h w, exec_windowRead_stays h w⟩, ?write, ?read,
    fun n m k bg x s h => exec_operandAccess_stays n m k bg x s h, ?access⟩
  case write =>
    intro a d h n k off u s w hu hm ho
    exact ⟨windowWrite_registers w hu hm ho d h, windowWrite_payload w hu hm ho d h, windowWrite_fails w hu hm ho d h,
      exec_windowWrite_reserved w hm ho d h⟩
  case read =>
    intro a h n k off u s w hu hm ho
    exact ⟨windowRead_taken w hu hm ho h, windowRead_fails w hu hm ho h⟩
  case access =>
    rintro n m k _ bg _ s hm hn hk hp h21 rfl rfl hb hc hr
    exact ⟨exec_operandAccess_row hm hn hk hp hb hc hr .act (.inl rfl), exec_operandAccess_row hm hn hk hp hb hc hr .pre (.inr rfl),
      operandAccess_delivers hm hn hk hp hb hc hr, operandAccess_writes hm hn hk hp hb hc hr h21⟩

end Sys2Proof.Machine
end

section
/-!
SUPPORT. The address map of R210 and R211 outside Mended granules: each sector of an address has a place of its own.
-/

namespace Sys2Proof.Machine

/-! ## The tiers (R210) -/

/-- The first burst position past a tier. -/
def Tier.top (t : Tier) : Nat := t.low + t.size / (t.sites.length * 65536)

/-- What the places under a tier rest on: its burst positions, from `low` to below `top`, fill it, and its sites differ. -/
structure Tier.Sane (t : Tier) : Prop where
  base : t.base % 2048 = 0
  size : t.size = t.sites.length * 65536 * (t.top - t.low)
  top : t.top ≤ 2 ^ 21
  nodup : t.sites.Nodup

/-- The tier that ends at capacity code `c`, after those of `acc`. -/
def State.nextTier (s : State) (acc : List Tier × Nat × Nat) (c : Nat) : Tier :=
  let sites := (List.range 8).filter fun t => decide (c ≤ s.siteCap t)
  ⟨acc.2.1, sites.length * (c - acc.2.2) * (8 * gib), acc.2.2 * (8 * gib) / 65536, sites⟩

/-- The step of `State.tiers`. -/
def State.tierStep (s : State) (acc : List Tier × Nat × Nat) (c : Nat) : List Tier × Nat × Nat :=
  (acc.1 ++ [s.nextTier acc c], acc.2.1 + (s.nextTier acc c).size, c)

section
variable (s : State) (acc : List Tier × Nat × Nat) (c : Nat)

theorem State.nextTier_low : (s.nextTier acc c).low = acc.2.2 * 2 ^ 17 := by
  change acc.2.2 * (8 * gib) / 65536 = _
  simp only [gib]
  omega

theorem State.nextTier_size :
    (s.nextTier acc c).size = (s.nextTier acc c).sites.length * 65536 * ((c - acc.2.2) * 2 ^ 17) := by
  simp only [State.nextTier, gib]
  ring

theorem State.nextTier_top : (s.nextTier acc c).top =
    if (s.nextTier acc c).sites.length = 0 then (s.nextTier acc c).low else (s.nextTier acc c).low + (c - acc.2.2) * 2 ^ 17 := by
  rw [Tier.top, State.nextTier_size]
  split
  · next h0 => simp [h0]
  · next h0 => rw [Nat.mul_div_cancel_left _ (by omega)]

theorem State.nextTier_top_le (hc : acc.2.2 ≤ c) : (s.nextTier acc c).top ≤ c * 2 ^ 17 := by
  rw [State.nextTier_top, State.nextTier_low]
  split <;> omega

theorem State.nextTier_sane (hb : acc.2.1 % 2048 = 0) (hc : acc.2.2 ≤ c) (h15 : c ≤ 15) : (s.nextTier acc c).Sane := by
  have htop := s.nextTier_top_le acc c hc
  refine ⟨hb, ?_, by omega, List.nodup_range.filter _⟩
  rw [State.nextTier_size, State.nextTier_top]
  split
  · next h0 => simp [h0]
  · rw [Nat.add_sub_cancel_left]

end

/-- The tiers so far are sane, end at the last capacity code, and take burst positions one after the other. -/
structure TiersSane (acc : List Tier × Nat × Nat) : Prop where
  each : ∀ t ∈ acc.1, t.Sane ∧ t.top ≤ acc.2.2 * 2 ^ 17
  apart : acc.1.Pairwise fun t u => t.top ≤ u.low
  base : acc.2.1 % 2048 = 0

theorem TiersSane.step (s : State) {acc : List Tier × Nat × Nat} (h : TiersSane acc) {c : Nat} (hc : acc.2.2 ≤ c) (h15 : c ≤ 15) :
    TiersSane (s.tierStep acc c) := by
  obtain ⟨each, apart, base⟩ := h
  refine ⟨fun t ht => ?_, List.pairwise_append.mpr ⟨apart, List.pairwise_singleton _ _, fun t ht u hu => ?_⟩, ?_⟩
  · obtain ht | ht := List.mem_append.mp ht
    · obtain ⟨h1, h2⟩ := each t ht
      exact ⟨h1, h2.trans (Nat.mul_le_mul_right _ hc)⟩
    · rw [List.mem_singleton.mp ht]
      exact ⟨s.nextTier_sane acc c base hc h15, s.nextTier_top_le acc c hc⟩
  · rw [List.mem_singleton.mp hu, State.nextTier_low]
    exact (each t ht).2
  · change (acc.2.1 + (s.nextTier acc c).size) % 2048 = 0
    have e : (s.nextTier acc c).size = 2048 * ((s.nextTier acc c).sites.length * 32 * ((c - acc.2.2) * 2 ^ 17)) := by
      rw [State.nextTier_size]
      ring
    omega

theorem TiersSane.foldl (s : State) (cs : List Nat) : ∀ acc : List Tier × Nat × Nat, TiersSane acc → cs.Pairwise (· < ·) →
    (∀ c ∈ cs, acc.2.2 ≤ c ∧ c ≤ 15) → TiersSane (cs.foldl s.tierStep acc) := by
  induction cs with
  | nil => exact fun _ h _ _ => h
  | cons c cs ih =>
    intro acc h hs hb
    obtain ⟨hlt, hs⟩ := List.pairwise_cons.mp hs
    obtain ⟨h1, h2⟩ := hb c (by simp)
    exact ih _ (h.step s h1 h2) hs fun x hx => ⟨(hlt x hx).le, (hb x (by simp [hx])).2⟩

theorem State.tiers_sane (s : State) :
    (∀ t ∈ s.tiers, t.Sane) ∧ s.tiers.Pairwise fun t u => t.top ≤ u.low := by
  have h : TiersSane (((List.range 16).filter fun c => c != 0 && (List.range 8).any fun t => s.siteCap t == c).foldl
      s.tierStep ([], 0, 0)) := by
    refine TiersSane.foldl s _ _ ⟨by simp, List.Pairwise.nil, rfl⟩ (List.pairwise_lt_range.filter _) fun c hc => ?_
    have := List.mem_range.mp (List.mem_of_mem_filter hc)
    exact ⟨Nat.zero_le _, by omega⟩
  exact ⟨fun t ht => (h.each t ht).1, h.apart⟩

/-! ## Places under R211 -/

/-- The tier of an address. -/
def State.tierAt (s : State) (a : Nat) : Option Tier := s.tiers.find? fun t => decide (t.base ≤ a ∧ a < t.base + t.size)

/-- The place of an address in a tier. -/
def Tier.place (t : Tier) (a : Nat) : Loc :=
  ⟨32 * t.sites.getD ((a - t.base) / 2048 % (32 * t.sites.length) % t.sites.length) 0
      + (a - t.base) / 2048 % (32 * t.sites.length) / t.sites.length,
    (t.low + (a - t.base) / 2048 / (32 * t.sites.length)) * 32 + a % 2048 / 64⟩

theorem State.locPlain_eq (s : State) (a : Nat) : s.locPlain a = (s.tierAt a).map fun t => t.place a := rfl

theorem State.tierAt_some {s : State} {a : Nat} {t : Tier} (h : s.tierAt a = some t) :
    t ∈ s.tiers ∧ t.Sane ∧ t.base ≤ a ∧ a < t.base + t.size := by
  have hm := List.mem_of_find?_eq_some h
  have hp := of_decide_eq_true (List.find?_some (p := fun t : Tier => decide (t.base ≤ a ∧ a < t.base + t.size)) h)
  exact ⟨hm, s.tiers_sane.1 t hm, hp⟩

/-- A tier's bounds fall on bursts. -/
theorem State.tierAt_burst (s : State) {a b : Nat} (h : a / 2048 = b / 2048) : s.tierAt a = s.tierAt b := by
  refine List.find?_congr fun t ht => decide_eq_decide.mpr ?_
  have hs := s.tiers_sane.1 t ht
  have hb := hs.base
  have e : t.size = 2048 * (t.sites.length * 32 * (t.top - t.low)) := by
    rw [hs.size]
    ring
  omega

theorem State.locPlain_isSome_burst (s : State) {a b : Nat} (h : a / 2048 = b / 2048) :
    (s.locPlain a).isSome = (s.locPlain b).isSome := by
  rw [State.locPlain_eq, State.locPlain_eq, s.tierAt_burst h, Option.isSome_map, Option.isSome_map]

/-- The bytes of a sector have one place. -/
theorem State.locPlain_sector (s : State) {a b : Nat} (h : a / 64 = b / 64) : s.locPlain a = s.locPlain b := by
  have h2 : a / 2048 = b / 2048 := by omega
  rw [State.locPlain_eq, State.locPlain_eq, s.tierAt_burst h2]
  refine Option.map_congr fun t ht => ?_
  have h0 := (State.tierAt_some ht).2.1.base
  have e1 : (a - t.base) / 2048 = (b - t.base) / 2048 := by omega
  have e2 : a % 2048 / 64 = b % 2048 / 64 := by omega
  simp only [Tier.place, e1, e2]

/-- An address in a tier lies at one of the tier's burst positions. -/
theorem Tier.place_m {t : Tier} (h : t.Sane) {a : Nat} (h1 : t.base ≤ a) (h2 : a < t.base + t.size) :
    t.low ≤ (t.place a).m ∧ (t.place a).m < t.top ∧ 0 < t.sites.length := by
  have hs := h.size
  have e : t.sites.length * 65536 * (t.top - t.low) = 2048 * (32 * t.sites.length * (t.top - t.low)) := by ring
  have hn : (a - t.base) / 2048 < 32 * t.sites.length * (t.top - t.low) := by omega
  have hpos : 0 < 32 * t.sites.length := Nat.pos_of_ne_zero fun h0 => by simp [h0] at hn
  have hm : (a - t.base) / 2048 / (32 * t.sites.length) < t.top - t.low := Nat.div_lt_of_lt_mul hn
  have hsec : a % 2048 / 64 < 32 := by omega
  simp only [Loc.m, Tier.place]
  generalize (a - t.base) / 2048 / (32 * t.sites.length) = i at hm ⊢
  omega

theorem mul_thirtytwo_add_inj {p q u v : Nat} (h : p * 32 + u = q * 32 + v) (hu : u < 32) (hv : v < 32) : p = q ∧ u = v := by
  omega

/-- Two addresses of a tier with one place lie in one sector. -/
theorem Tier.place_injective {t : Tier} (h : t.Sane) {a b : Nat} (ha : t.base ≤ a) (ha2 : a < t.base + t.size)
    (hb : t.base ≤ b) (e : t.place a = t.place b) : a / 64 = b / 64 := by
  have hpos := (Tier.place_m h ha ha2).2.2
  simp only [Tier.place, Loc.mk.injEq] at e
  obtain ⟨en, ek⟩ := e
  generalize hx : (a - t.base) / 2048 = x at en ek
  generalize hy : (b - t.base) / 2048 = y at en ek
  have lt (z : Nat) : z % (32 * t.sites.length) / t.sites.length < 32 :=
    Nat.div_lt_of_lt_mul (by rw [Nat.mul_comm]; exact Nat.mod_lt _ (by omega))
  rw [Nat.mul_comm 32 (t.sites.getD _ _), Nat.mul_comm 32 (t.sites.getD _ _)] at en
  obtain ⟨esite, ech⟩ := mul_thirtytwo_add_inj en (lt x) (lt y)
  obtain ⟨erow, -⟩ := mul_thirtytwo_add_inj ek (by omega) (by omega)
  replace erow := Nat.add_left_cancel erow
  have emod : x % (32 * t.sites.length) % t.sites.length = y % (32 * t.sites.length) % t.sites.length := by
    have hxm := Nat.mod_lt (x % (32 * t.sites.length)) hpos
    have hym := Nat.mod_lt (y % (32 * t.sites.length)) hpos
    rw [List.getD_eq_getElem _ _ hxm, List.getD_eq_getElem _ _ hym] at esite
    exact (h.nodup.getElem_inj_iff).mp esite
  have ek2 : x % (32 * t.sites.length) = y % (32 * t.sites.length) := by
    rw [← Nat.div_add_mod (x % (32 * t.sites.length)) t.sites.length, ech, emod, Nat.div_add_mod]
  have exy : x = y := by
    rw [← Nat.div_add_mod x (32 * t.sites.length), erow, ek2, Nat.div_add_mod]
  have h0 := h.base
  omega

/-- A channel numbers the sectors of its addresses below 2^26. -/
theorem State.locPlain_lt {s : State} {a : Nat} {l : Loc} (h : s.locPlain a = some l) : l.k < 2 ^ 26 := by
  rw [State.locPlain_eq, Option.map_eq_some_iff] at h
  obtain ⟨t, ht, rfl⟩ := h
  obtain ⟨-, hs, h1, h2⟩ := State.tierAt_some ht
  have hm := (Tier.place_m hs h1 h2).2.1
  have ht := hs.top
  simp only [Loc.m] at hm
  omega

/-- R211: addresses with one place lie in one sector. -/
theorem State.locPlain_injective {s : State} {a b : Nat} {l : Loc} (ha : s.locPlain a = some l) (hb : s.locPlain b = some l) :
    a / 64 = b / 64 := by
  rw [State.locPlain_eq, Option.map_eq_some_iff] at ha hb
  obtain ⟨t, ht, rfl⟩ := ha
  obtain ⟨u, hu, e⟩ := hb
  obtain ⟨htm, hts, ht1, ht2⟩ := State.tierAt_some ht
  obtain ⟨hum, hus, hu1, hu2⟩ := State.tierAt_some hu
  obtain ⟨t1, t2, -⟩ := Tier.place_m hts ht1 ht2
  obtain ⟨u1, u2, -⟩ := Tier.place_m hus hu1 hu2
  have htu : t = u := by
    by_contra hne
    have : Std.Symm fun t u : Tier => t.top ≤ u.low ∨ u.top ≤ t.low := ⟨fun _ _ => Or.symm⟩
    have apart : s.tiers.Pairwise fun t u => t.top ≤ u.low ∨ u.top ≤ t.low := s.tiers_sane.2.imp Or.inl
    have ord := apart.forall htm hum hne
    rw [e] at u1 u2
    omega
  subst htu
  exact Tier.place_injective hts ht1 ht2 hu1 e.symm

end Sys2Proof.Machine
end

section
/-!
SUPPORT. The array by address (R138): what a Planisher unit's reads and writes of bytes come to.
-/

namespace Sys2Proof.Machine

/-! ## Addresses outside Mended granules -/

/-- An address in the memory window, outside Mended granules, with a place under R211. -/
structure State.PlainAt (s : State) (a : Nat) : Prop where
  inside : a < s.windowEnd
  plain : s.isMended a = false
  placed : (s.locPlain a).isSome = true

theorem State.PlainAt.locate {s : State} {a : Nat} (h : s.PlainAt a) : s.locate a = s.locPlain a := by
  rw [State.locate, if_neg (Nat.not_le.mpr h.inside), h.plain]
  rfl

theorem State.PlainAt.sector {s : State} {a : Nat} (h : s.PlainAt a) : s.PlainAt (a / 64 * 64) := by
  have hg : a / 64 * 64 / gib = a / gib := by
    simp only [gib]
    omega
  refine ⟨Nat.lt_of_le_of_lt (Nat.div_mul_le_self a 64) h.inside, ?_, ?_⟩
  · rw [← h.plain, State.isMended, State.isMended, hg]
  · rw [s.locPlain_sector (show a / 64 * 64 / 64 = a / 64 by omega)]
    exact h.placed

/-- A sector of a plain address and the place of its bytes. -/
theorem State.PlainAt.locate_sector {s : State} {a : Nat} (h : s.PlainAt a) :
    ∃ l, s.locate a = some l ∧ s.locate (a / 64 * 64) = some l ∧ s.locPlain a = some l := by
  obtain ⟨l, hl⟩ := Option.isSome_iff_exists.mp h.placed
  refine ⟨l, h.locate.trans hl, ?_, hl⟩
  rw [h.sector.locate, s.locPlain_sector (show a / 64 * 64 / 64 = a / 64 by omega), hl]

theorem mem_burstsOf {a len x : Nat} (h1 : a ≤ x) (h2 : x < a + len) : x / 2048 ∈ burstsOf a len := by
  rw [burstsOf, if_neg (by omega), List.mem_map]
  exact ⟨x / 2048 - a / 2048, List.mem_range.mpr (by omega), by omega⟩

theorem mem_granulesOf {a len x : Nat} (h1 : a ≤ x) (h2 : x < a + len) : x / gib ∈ granulesOf a len := by
  rw [granulesOf, if_neg (by omega), List.mem_map]
  refine ⟨x / gib - a / gib, List.mem_range.mpr ?_, ?_⟩ <;> simp only [gib] <;> omega

theorem exists_of_mem_burstsOf {a len b : Nat} (h : b ∈ burstsOf a len) : ∃ x, a ≤ x ∧ x < a + len ∧ x / 2048 = b := by
  unfold burstsOf at h
  split at h
  · cases h
  · next h0 =>
    obtain ⟨i, hi, rfl⟩ := List.mem_map.mp h
    have := List.mem_range.mp hi
    exact ⟨max a ((a / 2048 + i) * 2048), by omega, by omega, by omega⟩

theorem State.rangeServed_iff (s : State) (a len : Nat) : s.rangeServed a len = true ↔
    ∀ b ∈ burstsOf a len, ∃ l, s.locPlain (b * 2048) = some l ∧ s.chanState l.n = 0 := by
  rw [State.rangeServed, List.all_eq_true]
  refine forall₂_congr fun b _ => ?_
  cases s.locPlain (b * 2048) <;> simp

/-- A range in a range whose channels serve. -/
theorem State.rangeServed_mono {s : State} {a len b n : Nat} (h : s.rangeServed a len = true) (h1 : a ≤ b) (h2 : b + n ≤ a + len) :
    s.rangeServed b n = true := by
  rw [State.rangeServed_iff] at h ⊢
  intro x hx
  obtain ⟨y, hy1, hy2, rfl⟩ := exists_of_mem_burstsOf hx
  exact h _ (mem_burstsOf (by omega) (by omega))

/-- R125: a range that passed its checks, in channels in service, holds plain addresses. -/
theorem State.plainAt_of_checks {s : State} {a len x : Nat} (hw : s.badWindow a len = false)
    (hc : s.touchesClass 2 a len = false) (hs : s.rangeServed a len = true) (h1 : a ≤ x) (h2 : x < a + len) : s.PlainAt x := by
  have hlen : (len != 0) = true := bne_iff_ne.mpr (by omega)
  rw [State.badWindow, hlen, Bool.true_and, Bool.or_eq_false_iff] at hw
  obtain ⟨l, hl, -⟩ := (s.rangeServed_iff a len).mp hs _ (mem_burstsOf h1 h2)
  refine ⟨?_, ?_, ?_⟩
  · have := of_decide_eq_false hw.1
    omega
  · exact List.any_eq_false.mp hc _ (mem_granulesOf h1 h2) |> eq_false_of_ne_true
  · rw [s.locPlain_isSome_burst (show x / 2048 = x / 2048 * 2048 / 2048 by omega), hl]
    rfl

/-! ## What rests on the registers alone -/

/-- A state of those registers: whatever reads nothing else of a state reads the same of this one, by unfolding. -/
def State.ofRegs (r : Tab Word) : State := { State.reset with regs := r }

theorem State.eq_of_regs {α : Type} (f : State → α) (hf : ∀ s, f s = f (.ofRegs s.regs)) {s t : State} (h : t.regs = s.regs) :
    f t = f s := by rw [hf t, h, ← hf s]

section
variable {s t : State} (h : t.regs = s.regs)
include h

theorem State.locPlain_congr : t.locPlain = s.locPlain := State.eq_of_regs State.locPlain (fun _ => rfl) h
theorem State.locate_congr : t.locate = s.locate := State.eq_of_regs State.locate (fun _ => rfl) h
theorem State.rangeServed_congr : t.rangeServed = s.rangeServed := State.eq_of_regs State.rangeServed (fun _ => rfl) h

theorem State.PlainAt.congr {a : Nat} (p : s.PlainAt a) : t.PlainAt a where
  inside := by
    have e : t.windowEnd = s.windowEnd := State.eq_of_regs State.windowEnd (fun _ => rfl) h
    rw [e]
    exact p.inside
  plain := (congrFun (State.eq_of_regs State.isMended (fun _ => rfl) h) a).trans p.plain
  placed := by
    rw [State.locPlain_congr h]
    exact p.placed

end

/-! ## Reading bytes -/

/-- The sector of the array at a sector's address. -/
def State.sectorAt (s : State) (a : Nat) : SectorBits := (s.locate a).elim allOnes s.rawSector

/-- The byte of the array at an address. -/
def State.rawByte (s : State) (a : Nat) : Byte := byteOf (s.sectorAt (a / 64 * 64)) (a % 64)

theorem flatMap_bytes {α : Type} (g : Nat → α) (n : Nat) :
    ((List.range n).flatMap fun i => (List.range 64).map fun j => g (64 * i + j)) = (List.range (64 * n)).map g := by
  induction n with
  | zero => rfl
  | succ n ih =>
    rw [List.range_succ (n := n), List.flatMap_append, ih, Nat.mul_succ, List.range_add, List.map_append, List.map_map]
    simp only [List.flatMap_cons, List.flatMap_nil, List.append_nil, Function.comp_def]

theorem State.rawBytes_sectors (s : State) (a n : Nat) : s.rawBytes a n = ((((List.range ((a % 64 + n + 63) / 64)).flatMap fun i =>
    bytesOf 64 (s.sectorAt (a / 64 * 64 + 64 * i))).drop (a % 64)).take n) := by
  simp only [State.rawBytes, State.sectorAt]
  refine congrArg (fun f : Nat → List Byte => (((List.range _).flatMap f).drop _).take n) (funext fun i => ?_)
  cases s.locate (a / 64 * 64 + 64 * i) <;> rfl

theorem State.bytesOf_sectorAt (s : State) (b i : Nat) :
    bytesOf 64 (s.sectorAt (b / 64 * 64 + 64 * i)) = (List.range 64).map fun j => s.rawByte (b / 64 * 64 + (64 * i + j)) := by
  refine List.map_congr_left fun j hj => ?_
  have hj : j < 64 := List.mem_range.mp hj
  rw [State.rawByte, show (b / 64 * 64 + (64 * i + j)) / 64 * 64 = b / 64 * 64 + 64 * i by omega,
    show (b / 64 * 64 + (64 * i + j)) % 64 = j by omega]

theorem State.rawBytes_eq (s : State) (a n : Nat) : s.rawBytes a n = (List.range n).map fun i => s.rawByte (a + i) := by
  simp only [State.rawBytes_sectors, State.bytesOf_sectorAt]
  rw [flatMap_bytes fun i => s.rawByte (a / 64 * 64 + i)]
  refine List.ext_getElem (by simp; omega) fun i h1 h2 => ?_
  simp only [List.getElem_take, List.getElem_drop, List.getElem_map, List.getElem_range]
  congr 1
  omega

theorem State.rawBytes_congr {s t : State} {a n : Nat} (h : ∀ i < n, t.rawByte (a + i) = s.rawByte (a + i)) :
    t.rawBytes a n = s.rawBytes a n := by
  rw [State.rawBytes_eq, State.rawBytes_eq]
  exact List.map_congr_left fun i hi => h i (List.mem_range.mp hi)

theorem State.rawByte_congr {s t : State} (hr : t.regs = s.regs) (hm : ∀ l, t.rawSector l = s.rawSector l) :
    t.rawByte = s.rawByte := by
  funext a
  simp only [State.rawByte, State.sectorAt, State.locate_congr hr, funext hm]

/-! ## Writing bytes -/

/-- A sector at `b` with the bytes of a range that fall in it replaced. -/
def overlaid (a : Nat) (bs : List Byte) (b : Nat) (d : SectorBits) : SectorBits :=
  BitVec.ofNat 512 (ofBytes ((List.range 64).map fun j =>
    if a ≤ b + j ∧ b + j < a + bs.length then bs.toArray.getD (b + j - a) 0 else (bytesOf 64 d).toArray.getD j 0))

theorem byteOf_overlaid (a : Nat) (bs : List Byte) (b : Nat) (d : SectorBits) {j : Nat} (hj : j < 64) :
    byteOf (overlaid a bs b d) j = if a ≤ b + j ∧ b + j < a + bs.length then bs.getD (b + j - a) 0 else byteOf d j := by
  rw [overlaid, byteOf_ofBytes _ _ (by simp)]
  simp [hj, bytesOf]

/-- The step of `State.putRaw`: the sector `i` of a range. -/
def State.putSector (a : Nat) (bs : List Byte) (s : State) (i : Nat) : State :=
  match s.locate (a / 64 * 64 + 64 * i) with
  | some l => (s.writeRaw l (overlaid a bs (a / 64 * 64 + 64 * i) (s.rawSector l)) (List.replicate 8 0)).touch (a / 64 * 64 + 64 * i)
  | none => s

theorem State.putRaw_eq (s : State) (a : Nat) (bs : List Byte) :
    s.putRaw a bs = (List.range ((a % 64 + bs.length + 63) / 64)).foldl (State.putSector a bs) s := rfl

theorem State.putSector_eq (a : Nat) (bs : List Byte) (s : State) (i : Nat) :
    s.putSector a bs i = { s with mem := (s.putSector a bs i).mem } := by
  unfold State.putSector
  split <;> rfl

theorem State.putSector_located {s : State} {a : Nat} {bs : List Byte} {i : Nat} {l : Loc}
    (h : s.locate (a / 64 * 64 + 64 * i) = some l) : s.putSector a bs i =
      (s.writeRaw l (overlaid a bs (a / 64 * 64 + 64 * i) (s.rawSector l)) (List.replicate 8 0)).touch (a / 64 * 64 + 64 * i) := by
  rw [State.putSector, h]

theorem State.rawByte_plain {s : State} {a : Nat} {l : Loc} (h : s.locate (a / 64 * 64) = some l) :
    s.rawByte a = byteOf (s.rawSector l) (a % 64) := by
  rw [State.rawByte, State.sectorAt, h]
  rfl

/-- Plain addresses of different sectors have places of different numbers. -/
theorem State.PlainAt.sector_of_index {s : State} {a b : Nat} {l x : Loc} (ha : s.locPlain a = some l) (hb : s.locPlain b = some x)
    (h : l.index = x.index) : a / 64 = b / 64 := by
  have e : l = x := Loc.index_injective (State.locPlain_lt ha) (State.locPlain_lt hb) h
  exact State.locPlain_injective ha (e ▸ hb)

/-- The state after the first `n` sectors of a range have been written. -/
structure State.PutUpTo (s : State) (a : Nat) (bs : List Byte) (n : Nat) (t : State) : Prop where
  rest : t = { s with mem := t.mem }
  bytes : ∀ y, s.PlainAt y → t.rawByte y =
    if a ≤ y ∧ y < a + bs.length ∧ y / 64 < a / 64 + n then bs.getD (y - a) 0 else s.rawByte y
  kept : s.arrayKept t fun l => ∃ i, i < bs.length ∧ s.locate (a + i) = some l

theorem State.PutUpTo.step {s t : State} {a n : Nat} {bs : List Byte} (h : s.PutUpTo a bs n t)
    (hp : ∀ x, a ≤ x → x < a + bs.length → s.PlainAt x) (hn : n < (a % 64 + bs.length + 63) / 64) (h0 : 0 < bs.length) :
    s.PutUpTo a bs (n + 1) (t.putSector a bs n) := by
  obtain ⟨rest, bytes, kept⟩ := h
  have regs : t.regs = s.regs := by rw [rest]
  obtain ⟨x, hx1, hx2, hxb⟩ : ∃ x, a ≤ x ∧ x < a + bs.length ∧ x / 64 * 64 = a / 64 * 64 + 64 * n :=
    ⟨max a (a / 64 * 64 + 64 * n), by omega, by omega, by omega⟩
  obtain ⟨l, hl, hlb, hlp⟩ := (hp x hx1 hx2).locate_sector
  rw [hxb, ← State.locate_congr regs] at hlb
  have eput := State.putSector_located (bs := bs) hlb
  refine ⟨(State.putSector_eq a bs t n).trans (congrArg (fun u : State => { u with mem := (t.putSector a bs n).mem }) rest),
    fun y hy => ?_, fun z hz => ?_⟩
  · obtain ⟨ly, -, hlyb, hlyp⟩ := hy.locate_sector
    rw [← State.locate_congr regs] at hlyb
    have hlyb' : (t.putSector a bs n).locate (y / 64 * 64) = some ly := by
      rw [State.locate_congr (show (t.putSector a bs n).regs = t.regs by rw [State.putSector_eq]), hlyb]
    rw [State.rawByte_plain hlyb', eput, State.rawSector_touch]
    by_cases hs : y / 64 = x / 64
    · have e : ly = l := by
        rw [s.locPlain_sector hs, hlp] at hlyp
        exact (Option.some.inj hlyp).symm
      have hyb : a / 64 * 64 + 64 * n + y % 64 = y := by omega
      rw [e, State.rawSector_writeRaw_same, byteOf_overlaid _ _ _ _ (Nat.mod_lt _ (by decide)), hyb]
      split
      · next hin => rw [if_pos ⟨hin.1, hin.2, by omega⟩]
      · next hout => rw [if_neg (fun hin => hout ⟨hin.1, hin.2.1⟩), ← e, ← State.rawByte_plain hlyb, bytes y hy, if_neg (by omega)]
    · have hne : ly.index ≠ l.index := fun e => hs (State.PlainAt.sector_of_index hlyp hlp e)
      rw [State.rawSector_writeRaw_other _ _ _ _ _ hne, ← State.rawByte_plain hlyb, bytes y hy]
      congr 1
      exact propext (by omega)
  · have hne : z.index ≠ l.index := (hz l ⟨x - a, by omega, (congrArg s.locate (Nat.add_sub_cancel' hx1)).trans hl⟩).symm
    obtain ⟨k1, k2⟩ := kept z hz
    rw [eput, State.rawSector_touch, State.rawChecks_touch, State.rawSector_writeRaw_other _ _ _ _ _ hne,
      State.rawChecks_writeRaw_other _ _ _ _ _ rfl hne]
    exact ⟨k1, k2⟩

/-- Bytes put into a range of plain addresses: the range holds them, and the rest of the array is as it was. -/
theorem State.putRaw_spec (s : State) (a : Nat) (bs : List Byte) (hp : ∀ x, a ≤ x → x < a + bs.length → s.PlainAt x)
    (h0 : 0 < bs.length) : s.putRaw a bs = { s with mem := (s.putRaw a bs).mem } ∧
      (∀ y, s.PlainAt y → (s.putRaw a bs).rawByte y = if a ≤ y ∧ y < a + bs.length then bs.getD (y - a) 0 else s.rawByte y) ∧
      s.arrayKept (s.putRaw a bs) fun l => ∃ i, i < bs.length ∧ s.locate (a + i) = some l := by
  have all : ∀ n ≤ (a % 64 + bs.length + 63) / 64, s.PutUpTo a bs n ((List.range n).foldl (State.putSector a bs) s) := by
    intro n
    induction n with
    | zero => exact fun _ => ⟨rfl, fun y _ => (if_neg (by omega)).symm, fun _ _ => ⟨rfl, rfl⟩⟩
    | succ n ih =>
      intro hn
      rw [List.range_succ, List.foldl_append]
      exact (ih (by omega)).step hp hn h0
  obtain ⟨rest, bytes, kept⟩ := all _ le_rfl
  rw [← State.putRaw_eq] at rest bytes kept
  refine ⟨rest, fun y hy => ?_, kept⟩
  rw [bytes y hy]
  congr 1
  exact propext (by omega)

end Sys2Proof.Machine
end

section
/-!
SUPPORT. A started command that runs and ends (R122, R125, R126): what its Drawer holds afterwards.
-/

namespace Sys2Proof.Machine

/-! ## Checks -/

theorem firstFail_eq_none {l : List (Bool × Status)} : firstFail l = none ↔ ∀ e ∈ l, e.1 = false := by
  induction l with
  | nil => simp [firstFail]
  | cons e l ih =>
    obtain ⟨bad, st⟩ := e
    cases bad <;> simp [firstFail, ih]

@[simp] theorem State.hasRead_ok (s : State) (d pos : Nat) : s.hasRead d pos .ok = s := by
  unfold State.hasRead
  split <;> rfl

/-! ## Started commands -/

theorem State.cmd_pos {s : State} {d pos : Nat} {c : Cmd} (h : s.cmd d pos = some c) : c.pos = pos :=
  beq_iff_eq.mp (List.find?_some (p := fun c : Cmd => c.pos == pos) h)

theorem State.cmd_setCmd {s : State} {d pos : Nat} {c e : Cmd} (h : s.cmd d pos = some c) (he : e.pos = pos) :
    (s.setCmd d e).cmd d pos = some e := by
  have hd : (s.setCmd d e).drawer d =
      { s.drawer d with cmds := (s.drawer d).cmds.map fun x => if x.pos = e.pos then e else x } := Tab.get_set_same _ _ _ _
  have hf : ((fun c : Cmd => c.pos == pos) ∘ fun x => if x.pos = e.pos then e else x) = fun c => c.pos == pos := by
    funext x
    by_cases hx : x.pos = pos <;> simp [he, hx]
  rw [State.cmd, hd, List.find?_map, hf]
  change ((s.cmd d pos).map _) = _
  rw [h, Option.map_some, if_pos ((State.cmd_pos h).trans he.symm)]

theorem State.drawer_setCmd_other (s : State) {d e : Nat} (c : Cmd) (h : e ≠ d) : (s.setCmd d c).drawer e = s.drawer e :=
  Tab.get_set_other _ _ _ _ _ h

/-- The Drawer holds the command that has ended. -/
theorem State.cmd_finish {s : State} {d pos : Nat} {c e : Cmd} (h : s.cmd d pos = some c) (he : e.pos = pos) (st : Status) (a b : Nat) :
    (s.finish d e st a b).cmd d pos = some (e.ended st a b) := State.cmd_setCmd h he

theorem State.drawer_finish_other (s : State) {d e : Nat} (c : Cmd) (st : Status) (a b : Nat) (h : e ≠ d) :
    (s.finish d c st a b).drawer e = s.drawer e := s.drawer_setCmd_other _ h

@[simp] theorem State.finish_buckets (s : State) (d : Nat) (c : Cmd) (st : Status) (a b : Nat) :
    (s.finish d c st a b).draws.buckets = s.draws.buckets := rfl

/-- A command that is not armed takes its first action without more. -/
theorem State.firstAction_unarmed {s : State} {d pos : Nat} (h : s.isArmed d pos = false) : s.firstAction d pos = s := by
  cases hl : (s.drawer d).launch with
  | none => simp only [State.firstAction, hl]
  | some l =>
    simp only [State.isArmed, hl, beq_eq_false_iff_ne] at h
    simp only [State.firstAction, hl, h, false_and, if_false]

section
variable {s : State} {d pos : Nat} {o : Op} {c : Cmd} (h : s.fresh d pos o c)
include h

theorem State.fresh.due (again : Bool) : s.due d pos o again = some c := by
  obtain ⟨hc, hp, ho, hd, hs, -⟩ := h
  rw [State.due, hc]
  exact if_pos ⟨.inl hp, ho, hd, by simp [hs]⟩

/-- A fresh command whose checks pass does its work. -/
theorem State.fresh.runCmd {again : Bool} {check : State → Cmd → Option Status × State} (work : State → Cmd → State)
    (hk : check s c = (none, s)) : s.runCmd d pos o again check work = work s c := by
  obtain ⟨hc, hp, -, -, -, ha⟩ := id h
  simp only [State.runCmd, h.due, hp, if_true, hk, ha, hc, Option.getD_some, Bool.false_eq_true, if_false]

theorem State.fresh.firstAction : s.firstAction d c.pos = s := by
  obtain ⟨hc, -, -, -, -, ha⟩ := h
  rw [State.cmd_pos hc]
  exact State.firstAction_unarmed ha

end

/-! ## Slices that hold nothing -/

section
variable {s : State} (h : s.mem.slices = [])
include h

theorem State.slicesHeld_empty : s.slicesHeld = [] := by rw [State.slicesHeld, h]; rfl

theorem State.openRows_empty (reads : List (Nat × Nat)) (dest : Nat × Nat) (d : Nat) : s.openRows reads dest d = s := by
  rw [State.openRows, State.writeBackWhere, State.slicesHeld_empty h, List.foldl_nil, State.dropWhere, State.slicesHeld_empty h,
    List.foldl_nil]

theorem State.openWaits_empty {rs : List (Nat × Nat)} (hr : ∀ r ∈ rs, s.rangeHeld r.1 r.2 = false) : s.openWaits rs = false := by
  rw [State.openWaits, State.dirtyWaits, State.slicesHeld_empty h, List.any_nil, Bool.or_false]
  exact List.any_eq_false.mpr fun r hm => by simp [hr r hm]

end

/-! ## Work that units do -/

/-- From `s` to `t` only open values, the energy and the units have moved, and no unit of `t` is lost. -/
structure State.UnitsMoved (s t : State) : Prop where
  rest : t = { s with freeCtr := t.freeCtr, power := t.power, pl := t.pl }
  lost : ∀ u, (t.unit u).lost = false

namespace State.UnitsMoved

variable {s t : State} (h : s.UnitsMoved t)
include h

theorem regs : t.regs = s.regs := by rw [h.rest]
theorem mem : t.mem = s.mem := by rw [h.rest]
theorem ports : t.ports = s.ports := by rw [h.rest]
theorem draws : t.draws = s.draws := by rw [h.rest]
theorem anv : t.anv = s.anv := by rw [h.rest]

theorem rawByte : t.rawByte = s.rawByte :=
  State.rawByte_congr h.regs fun l => by simp only [State.rawSector, h.mem]

theorem setUnit {u : Nat} {x : PUnit} (hx : x.lost = false) : s.UnitsMoved (t.setUnit u x) where
  rest := congrArg (fun v : State => v.setUnit u x) h.rest
  lost v := by
    by_cases hv : v = u
    · rw [hv, State.unit_setUnit_same, hx]
    · rw [State.unit_setUnit_other _ _ _ _ hv, h.lost]

theorem draw : s.UnitsMoved { t with freeCtr := t.freeCtr + 1 } :=
  ⟨congrArg (fun v : State => { v with freeCtr := t.freeCtr + 1 }) h.rest, h.lost⟩

theorem withPower (x : Power) : s.UnitsMoved { t with power := x } :=
  ⟨congrArg (fun v : State => { v with power := x }) h.rest, h.lost⟩

theorem charge (part cls k : Nat) : s.UnitsMoved (t.charge part cls k) := by
  unfold State.charge
  dsimp only
  split
  · exact h
  · exact h.withPower _

theorem chargeRow (d : Nat) : s.UnitsMoved (t.chargeRow d) := h.draw.charge _ _ _

theorem openBuffers (u : Nat) : s.UnitsMoved (t.openBuffers u) := h.draw.setUnit (h.lost u)

theorem foldl {α : Type} {f : State → α → State} (l : List α) (hf : ∀ t x, s.UnitsMoved t → s.UnitsMoved (f t x)) :
    s.UnitsMoved (l.foldl f t) := foldl_keeps hf l t h

/-- R145: units that take their control registers and their segments. -/
theorem loadUnits (p : Plan) (a : Nat) (x : List Num.Val) : s.UnitsMoved (t.loadUnits p a x) := by
  refine h.foldl _ fun t j ht => ?_
  split
  · next u _ =>
    refine (ht.openBuffers u).setUnit ?_
    have hl := (ht.openBuffers u).lost u
    dsimp only
    split <;> split <;> exact hl
  · exact ht

theorem unitsDone (rs : List (Nat × Nat)) : s.UnitsMoved (t.unitsDone rs) := by
  refine h.foldl _ fun t u ht => ?_
  rw [if_neg (by simp [ht.lost u])]
  exact ht

theorem openUnits (us : List Nat) : s.UnitsMoved (t.openUnits us) :=
  h.foldl _ fun _ u ht => (ht.draw.draw.draw.draw.openBuffers u).setUnit ((ht.draw.draw.draw.draw.openBuffers u).lost u)

theorem lostIn (rs : List (Nat × Nat)) : t.lostIn rs = false :=
  List.any_eq_false.mpr fun r _ => by simp [h.lost]

end State.UnitsMoved

theorem State.unitsMoved_refl {s : State} (h : ∀ u, (s.unit u).lost = false) : s.UnitsMoved s := ⟨rfl, h⟩

end Sys2Proof.Machine
end

section
/-!
SUPPORT. The rows of a PLANISH: their lengths, and that a row's result rests on the bytes of its operands.
-/

namespace Sys2Proof.Machine

open Sys2Proof.Num

/-! ## Lengths (R141) -/

theorem cellBytes_mul_segElems (f : Fmt) : segElems f * cellBytes f = 2048 := by
  unfold segElems cellBytes segBytes
  split
  · rfl
  · split <;> rfl

/-- A row's elements fit its segments. -/
theorem mul_cellBytes_le_rowPitch (f : Fmt) (n : Nat) : n * cellBytes f ≤ rowPitch f n := by
  have hE := cellBytes_mul_segElems f
  have hpos : 0 < segElems f := Nat.pos_of_ne_zero fun h => by rw [h, Nat.zero_mul] at hE; cases hE
  have hn : n ≤ rowSegs f n * segElems f := by
    have h1 := Nat.div_add_mod (n + segElems f - 1) (segElems f)
    have h2 := Nat.mod_lt (n + segElems f - 1) hpos
    rw [rowSegs, Nat.mul_comm]
    omega
  calc n * cellBytes f ≤ rowSegs f n * segElems f * cellBytes f := Nat.mul_le_mul_right _ hn
    _ = rowPitch f n := by rw [Nat.mul_assoc, hE]; rfl

theorem rowPitch_pos (f : Fmt) {n : Nat} (h : 0 < n) : 0 < rowPitch f n := by
  refine Nat.lt_of_lt_of_le (Nat.mul_pos h (Nat.pos_of_ne_zero fun h0 => ?_)) (mul_cellBytes_le_rowPitch f n)
  have hE := cellBytes_mul_segElems f
  rw [h0, Nat.mul_zero] at hE
  cases hE

theorem length_flatMap_bytesOf {α : Type} {w : Nat} (n : Nat) (g : α → BitVec w) (l : List α) :
    (l.flatMap fun x => bytesOf n (g x)).length = l.length * n := by
  simp [List.length_flatMap, length_bytesOf]

@[simp] theorem length_rowImage (f : Fmt) (vs : List Val) : (rowImage f vs).length = rowPitch f vs.length := by
  have h := mul_cellBytes_le_rowPitch f vs.length
  rw [rowImage, List.length_append, List.length_replicate, length_flatMap_bytesOf]
  omega

@[simp] theorem length_smallRow (vs : List Val) : (smallRow vs).length = 4 * vs.length := by
  rw [smallRow, length_flatMap_bytesOf, Nat.mul_comm]

@[simp] theorem length_rowVals (s : State) (f : Fmt) (a n : Nat) : (s.rowVals f a n).length = n := by
  simp [State.rowVals, State.rowCodes]

theorem Plan.pitchD_pos {p : Plan} (h : 0 < p.elems) : 0 < p.pitchD := by
  unfold Plan.pitchD
  split
  · exact rowPitch_pos _ h
  · omega

theorem length_statRow {p : Plan} (x : List Val) (h : 0 < p.elems)
    (ho : p.op = .rowStats ∨ p.op = .rowSsq ∨ p.op = .rowMax ∨ p.op = .rowLse) : (statRow p x).length = p.op.small := by
  unfold statRow
  split
  · obtain ho | ho | ho | ho := ho <;> simp [ho, PlOp.small]
  · rw [if_neg (by omega)]
    obtain ho | ho | ho | ho := ho <;> simp [ho, PlOp.small]

/-- A row's result fills the row's place in the destination. -/
theorem State.length_planRow (s : State) {p : Plan} (r : Nat) (hg : p.op ≠ .gatherSum) (h : 0 < p.elems) :
    (s.planRow p r).length = p.pitchD := by
  unfold State.planRow Plan.pitchD
  cases ho : p.op
  case gatherSum => exact absurd ho hg
  case rowStats => exact (length_statRow _ h (.inl ho)).trans (by rw [ho]; rfl)
  case rowSsq => exact (length_statRow _ h (.inr (.inl ho))).trans (by rw [ho]; rfl)
  case rowMax => exact (length_statRow _ h (.inr (.inr (.inl ho)))).trans (by rw [ho]; rfl)
  case rowLse => exact (length_statRow _ h (.inr (.inr (.inr ho)))).trans (by rw [ho]; rfl)
  case normCentred => by_cases hb : p.usesB = true <;> simp [PlOp.small, hb]
  case normRms => by_cases hb : p.usesB = true <;> simp [PlOp.small, hb]
  all_goals simp [PlOp.small, PlOp.pairs]

/-! ## Operands -/

theorem State.rowVals_congr {s t : State} {f : Fmt} {a n : Nat} (h : ∀ i < rowPitch f n, t.rawByte (a + i) = s.rawByte (a + i)) :
    t.rowVals f a n = s.rowVals f a n := by
  have e : t.rawBytes a (n * cellBytes f) = s.rawBytes a (n * cellBytes f) :=
    State.rawBytes_congr fun i hi => h i (Nat.lt_of_lt_of_le hi (mul_cellBytes_le_rowPitch f n))
  simp only [State.rowVals, State.rowCodes, e]

/-- A row's result rests on its row of A, its row of B or the gain row, and under FMA the destination's row. -/
theorem State.planRow_congr {s t : State} {p : Plan} {r : Nat} (hg : p.op ≠ .gatherSum)
    (ha : t.rowVals p.fa (p.a + r * p.pitchA) p.elems = s.rowVals p.fa (p.a + r * p.pitchA) p.elems)
    (hb : p.op.pairs = true → t.rowVals p.fb (p.b + r * p.pitchB) p.elems = s.rowVals p.fb (p.b + r * p.pitchB) p.elems)
    (hgain : p.op.pairs = false → p.usesB = true → t.rowVals p.fb p.b p.elems = s.rowVals p.fb p.b p.elems)
    (hd : p.op = .fma → t.rowVals p.fd (p.d + r * p.pitchD) p.elems = s.rowVals p.fd (p.d + r * p.pitchD) p.elems) :
    t.planRow p r = s.planRow p r := by
  have hB : (if p.op.pairs then t.rowVals p.fb (p.b + r * p.pitchB) p.elems else []) =
      if p.op.pairs then s.rowVals p.fb (p.b + r * p.pitchB) p.elems else [] := by
    split
    · next h => exact hb h
    · rfl
  have hG (h : p.op.pairs = false) : (if p.usesB then t.rowVals p.fb p.b p.elems else List.replicate p.elems (.dy ⟨1, 0⟩)) =
      if p.usesB then s.rowVals p.fb p.b p.elems else List.replicate p.elems (.dy ⟨1, 0⟩) := by
    split
    · next hu => exact hgain h hu
    · rfl
  unfold State.planRow
  rw [ha, hB]
  cases ho : p.op
  case gatherSum => exact absurd ho hg
  case fma => simp only [hd ho]
  case normCentred => simp only [hG (by rw [ho]; rfl)]
  case normRms => simp only [hG (by rw [ho]; rfl)]
  all_goals rfl

/-! ## Channels in service -/

theorem PlOp.pairs_of_gains {o : PlOp} (h : o.gains = true) : o.pairs = false := by
  revert h
  cases o <;> decide

theorem Plan.mem_reads_a {p : Plan} (hg : p.op ≠ .gatherSum) : (p.a, p.nrows * p.pitchA) ∈ p.reads := by simp [Plan.reads, hg]

theorem Plan.mem_reads_b {p : Plan} (h : p.op.pairs = true) : (p.b, p.nrows * p.pitchB) ∈ p.reads := by simp [Plan.reads, h]

theorem Plan.mem_reads_gain {p : Plan} (h : p.op.pairs = false) (hu : p.usesB = true) : (p.b, p.pitchB) ∈ p.reads := by
  simp [Plan.reads, h, hu]

/-- Row `r` of `n` rows lies in their range. -/
theorem row_le {r n w : Nat} (h : r < n) : r * w + w ≤ n * w := by
  rw [← Nat.succ_mul]
  exact Nat.mul_le_mul_right w h

/-- A row of ranges in service is served. -/
theorem State.rowServed_of {s : State} {p : Plan} {r : Nat} (bag : List Nat) (hg : p.op ≠ .gatherSum)
    (h : ∀ x ∈ p.dest :: p.reads, s.rangeServed x.1 x.2 = true) (hr : r < p.nrows) : s.rowServed p r bag = true := by
  obtain ⟨hd, hreads⟩ := List.forall_mem_cons.mp h
  have rowOf {a w : Nat} (hw : s.rangeServed a (p.nrows * w) = true) : s.rangeServed (a + r * w) w = true :=
    State.rangeServed_mono hw (by omega) (by have := row_le (w := w) hr; omega)
  have hB : (!p.op.pairs || s.rangeServed (p.b + r * p.pitchB) p.pitchB) = true := by
    cases hp : p.op.pairs with
    | false => rfl
    | true => exact rowOf (hreads _ (Plan.mem_reads_b hp))
  have hG : (!(p.op.gains && p.usesB) || s.rangeServed p.b p.pitchB) = true := by
    cases hp : p.op.gains && p.usesB with
    | false => rfl
    | true =>
      obtain ⟨h1, h2⟩ := Bool.and_eq_true_iff.mp hp
      exact hreads _ (Plan.mem_reads_gain (PlOp.pairs_of_gains h1) h2)
  have hD : s.rangeServed (p.d + r * p.pitchD) p.pitchD = true := rowOf hd
  rw [State.rowServed, if_neg hg, rowOf (hreads _ (Plan.mem_reads_a hg)), hB, hG, hD]
  rfl

end Sys2Proof.Machine
end

section
/-!
PROOF of O29, its part on PLANISH (R16, R141 to R145): row by row the array holds the row's result.
-/

namespace Sys2Proof.Machine

open Sys2Proof.Num

/-! ## The checks (R125, R141, R142) -/

section
variable {s : State} {d pos : Nat} {c : Cmd} {p : Plan} (hp : planOf c = some p) (hg : p.op ≠ .gatherSum)
include hp hg

/-- A plan without an index list checks its ranges alone, and reads nothing. -/
theorem State.planCheck_eq : s.planCheck d c = (firstFail (s.rangeChecks d (p.dest :: p.reads) ++
    [((p.dest :: p.reads).any fun r => s.touchesClass 1 r.1 r.2 || s.touchesClass 2 r.1 r.2, .regionClass),
      (!s.coResident p, .badArg)]), s) := by
  simp only [State.planCheck, hp, State.listOf, hg, if_false, State.hasRead_ok]

theorem State.planCheck_pass (h : (s.planCheck d c).1 = none) : s.planCheck d c = (none, s) := by
  rw [State.planCheck_eq hp hg] at h ⊢
  exact congrArg (·, s) h

/-- Ranges that pass lie in the window, outside Mended granules. -/
theorem State.planCheck_ranges (h : (s.planCheck d c).1 = none) :
    ∀ r ∈ p.dest :: p.reads, s.badWindow r.1 r.2 = false ∧ s.touchesClass 2 r.1 r.2 = false := by
  rw [State.planCheck_eq hp hg, firstFail_eq_none] at h
  have hw := h ((p.dest :: p.reads).any fun r => s.badWindow r.1 r.2, .badArg) (by simp [State.rangeChecks])
  have hc := h ((p.dest :: p.reads).any fun r => s.touchesClass 1 r.1 r.2 || s.touchesClass 2 r.1 r.2, .regionClass) (by simp)
  intro r hr
  have h1 := List.any_eq_false.mp hw r hr
  have h2 := List.any_eq_false.mp hc r hr
  rw [Bool.not_eq_true] at h1 h2
  exact ⟨h1, (Bool.or_eq_false_iff.mp h2).2⟩

end

/-! ## The rows one by one -/

/-- What a PLANISH asks of its ranges: plain addresses whose channels serve, and a destination apart from the operands. -/
structure State.PlanReady (s : State) (p : Plan) : Prop where
  gather : p.op ≠ .gatherSum
  elems : 0 < p.elems
  plain : ∀ r ∈ p.dest :: p.reads, ∀ x, r.1 ≤ x → x < r.1 + r.2 → s.PlainAt x
  served : ∀ r ∈ p.dest :: p.reads, s.rangeServed r.1 r.2 = true
  apart : ∀ r ∈ p.reads, overlap p.dest.1 p.dest.2 r.1 r.2 = false

/-- The state after `n` rows. -/
structure State.PlanUpTo (s : State) (p : Plan) (n : Nat) (x : Done × State) : Prop where
  done : x.1 = ⟨n, .ok, false⟩
  regs : x.2.regs = s.regs
  ports : x.2.ports = s.ports
  draws : x.2.draws = s.draws
  anv : x.2.anv = s.anv
  lost : ∀ u, (x.2.unit u).lost = false
  rows : ∀ r < n, x.2.rawBytes (p.d + r * p.pitchD) p.pitchD = s.planRow p r
  bytes : ∀ y, s.PlainAt y → y < p.d ∨ p.d + n * p.pitchD ≤ y → x.2.rawByte y = s.rawByte y
  kept : s.arrayKept x.2 fun l => ∃ i, i < p.dest.2 ∧ s.locate (p.dest.1 + i) = some l

section
variable {s : State} {p : Plan} (hr : s.PlanReady p)
include hr

theorem State.PlanReady.row_plain {n x : Nat} (hn : n < p.nrows) (h1 : p.d + n * p.pitchD ≤ x)
    (h2 : x < p.d + n * p.pitchD + p.pitchD) : s.PlainAt x := by
  have hle := row_le (w := p.pitchD) hn
  exact hr.plain p.dest (by simp) x (show p.d ≤ x by omega) (show x < p.d + p.nrows * p.pitchD by omega)

/-- The bytes of an operand are plain and outside the destination. -/
theorem State.PlanReady.read_apart {r : Nat × Nat} (h : r ∈ p.reads) {x : Nat} (h1 : r.1 ≤ x) (h2 : x < r.1 + r.2) (hn : 0 < p.nrows) :
    s.PlainAt x ∧ (x < p.d ∨ p.d + p.nrows * p.pitchD ≤ x) := by
  refine ⟨hr.plain r (by simp [h]) x h1 h2, ?_⟩
  have ha := hr.apart r h
  have hpos : 0 < p.nrows * p.pitchD := Nat.mul_pos hn (Plan.pitchD_pos hr.elems)
  have hl : (r.2 != 0) = true := bne_iff_ne.mpr (by omega)
  have hd : (p.dest.2 != 0) = true := bne_iff_ne.mpr (show p.nrows * p.pitchD ≠ 0 by omega)
  rw [overlap, hl, hd, Bool.true_and, Bool.true_and, Bool.and_eq_false_iff, decide_eq_false_iff_not, decide_eq_false_iff_not] at ha
  change ¬p.d < _ ∨ ¬r.1 < p.d + p.nrows * p.pitchD at ha
  omega

/-- Before row `n` is written the array holds its operands as it did at the start. -/
theorem State.PlanReady.planRow_kept {n : Nat} (hn : n < p.nrows) {t : State}
    (hb : ∀ y, s.PlainAt y → y < p.d ∨ p.d + n * p.pitchD ≤ y → t.rawByte y = s.rawByte y) : t.planRow p n = s.planRow p n := by
  have hle := row_le (w := p.pitchD) hn
  have hread {r : Nat × Nat} (h : r ∈ p.reads) {x : Nat} (h1 : r.1 ≤ x) (h2 : x < r.1 + r.2) : t.rawByte x = s.rawByte x := by
    obtain ⟨h3, h4⟩ := hr.read_apart h h1 h2 (by omega)
    exact hb x h3 (by omega)
  have hrow {a w : Nat} (h : (a, p.nrows * w) ∈ p.reads) : ∀ i < w, t.rawByte (a + n * w + i) = s.rawByte (a + n * w + i) := by
    intro i hi
    have hw := row_le (w := w) hn
    exact hread h (show a ≤ _ by omega) (show _ < a + p.nrows * w by omega)
  refine State.planRow_congr hr.gather (State.rowVals_congr (hrow (Plan.mem_reads_a hr.gather)))
    (fun h => State.rowVals_congr (hrow (Plan.mem_reads_b h)))
    (fun h hu => State.rowVals_congr fun i hi => hread (Plan.mem_reads_gain h hu) (show p.b ≤ _ by omega) (show _ < p.b + p.pitchB by exact Nat.add_lt_add_left hi _))
    (fun ho => State.rowVals_congr fun i hi => ?_)
  have hpd : rowPitch p.fd p.elems = p.pitchD := by simp [Plan.pitchD, ho, PlOp.small]
  exact hb _ (hr.row_plain hn (by omega) (by omega)) (by omega)

/-- Row `n`, once those before it are done: its units take their registers, and its result goes to the array. -/
theorem State.PlanUpTo.doRow_eq (d : Nat) {n : Nat} (bag : List Nat) {t : State} (h : s.PlanUpTo p n (⟨n, .ok, false⟩, t)) (hn : n < p.nrows) :
    ∃ v, t.UnitsMoved v ∧ t.doRow d p n bag ⟨n, .ok, false⟩ =
      (⟨n + 1, .ok, false⟩, v.putRaw (p.d + n * p.pitchD) (s.planRow p n)) := by
  have hserved : t.rowServed p n bag = true :=
    State.rowServed_of bag hr.gather (fun r hm => by rw [State.rangeServed_congr h.regs]; exact hr.served r hm) hn
  have hcharge := (State.unitsMoved_refl h.lost).chargeRow d
  have hrow : (t.chargeRow d).planRow p n = s.planRow p n :=
    hr.planRow_kept hn fun y hy ho => (congrFun hcharge.rawByte y).trans (h.bytes y hy ho)
  have hgb : (p.op == .gatherSum) = false := beq_eq_false_iff_ne.mpr hr.gather
  refine ⟨_, hcharge.loadUnits p (p.a + n * p.pitchA) ((t.chargeRow d).rowVals p.fa (p.a + n * p.pitchA) p.elems), ?_⟩
  simp only [State.doRow, hserved, hcharge.lostIn, hgb, hr.gather, hrow, Bool.not_true, Bool.or_false, Bool.false_and,
    Bool.false_eq_true, if_false]

theorem State.PlanUpTo.step {d n : Nat} (bag : List Nat) {x : Done × State} (h : s.PlanUpTo p n x) (hn : n < p.nrows) :
    s.PlanUpTo p (n + 1) (x.2.doRow d p n bag x.1) := by
  obtain ⟨done, t⟩ := x
  obtain rfl : done = _ := h.done
  obtain ⟨v, hunits, heq⟩ := h.doRow_eq hr d bag hn
  obtain ⟨-, regs, ports, draws, anv, lost, rows, bytes, kept⟩ := h
  simp only at regs ports draws anv lost rows bytes kept ⊢
  have hlen : (s.planRow p n).length = p.pitchD := s.length_planRow n hr.gather hr.elems
  have vregs : v.regs = s.regs := hunits.regs.trans regs
  obtain ⟨prest, pbytes, pkept⟩ := v.putRaw_spec (p.d + n * p.pitchD) (s.planRow p n)
    (fun x h1 h2 => (hr.row_plain hn h1 (by rwa [hlen] at h2)).congr vregs) (by rw [hlen]; exact Plan.pitchD_pos hr.elems)
  rw [hlen] at pbytes pkept
  rw [heq]
  have hle := row_le (w := p.pitchD) hn
  refine ⟨rfl, ?_, ?_, ?_, ?_, fun u => ?_, fun r hrn => ?_, fun y hy ho => ?_, fun l hl => ?_⟩
  · rw [prest]
    exact vregs
  · rw [prest]
    exact hunits.ports.trans ports
  · rw [prest]
    exact hunits.draws.trans draws
  · rw [prest]
    exact hunits.anv.trans anv
  · rw [prest]
    exact hunits.lost u
  · obtain hlt | rfl := Nat.lt_succ_iff_lt_or_eq.mp hrn
    · have hle2 := row_le (w := p.pitchD) hlt
      rw [← rows r hlt]
      refine State.rawBytes_congr fun i hi => ?_
      rw [pbytes _ ((hr.row_plain (hlt.trans hn) (by omega) (by omega)).congr vregs), if_neg (by omega), hunits.rawByte]
    · rw [State.rawBytes_eq]
      refine List.ext_getElem (by rw [List.length_map, List.length_range, hlen]) fun i h1 h2 => ?_
      have hi : i < p.pitchD := by rwa [hlen] at h2
      rw [List.getElem_map, List.getElem_range, pbytes _ ((hr.row_plain hn (by omega) (by omega)).congr vregs),
        if_pos (by omega), Nat.add_sub_cancel_left, List.getD_eq_getElem _ _ h2]
  · rw [Nat.succ_mul] at ho
    rw [pbytes y (hy.congr vregs), if_neg (by omega), hunits.rawByte]
    exact bytes y hy (by omega)
  · have k1 := pkept l fun x hx => by
      obtain ⟨i, hi, hxl⟩ := hx
      rw [State.locate_congr vregs] at hxl
      refine hl x ⟨n * p.pitchD + i, ?_, ?_⟩
      · change _ < p.nrows * p.pitchD
        omega
      · change s.locate (p.d + (n * p.pitchD + i)) = some x
        rwa [← Nat.add_assoc]
    have k2 : v.rawSector l = t.rawSector l ∧ v.rawChecks l = t.rawChecks l := by
      simp only [State.rawSector, State.rawChecks, hunits.mem, and_self]
    exact ⟨k1.1.trans (k2.1.trans (kept l hl).1), k1.2.trans (k2.2.trans (kept l hl).2)⟩

end

/-- All the rows of a PLANISH. -/
theorem State.PlanReady.all_rows {s : State} {p : Plan} (hr : s.PlanReady p) (hl : ∀ u, (s.unit u).lost = false) (d : Nat)
    (bags : List (List Nat)) : s.PlanUpTo p p.nrows ((List.range p.nrows).foldl
      (fun (acc : Done × State) i => acc.2.doRow d p i (bags.getD i []) acc.1) (⟨0, .ok, false⟩, s)) := by
  have upTo : ∀ n ≤ p.nrows, s.PlanUpTo p n ((List.range n).foldl
      (fun (acc : Done × State) i => acc.2.doRow d p i (bags.getD i []) acc.1) (⟨0, .ok, false⟩, s)) := by
    intro n
    induction n with
    | zero => exact fun _ => ⟨rfl, rfl, rfl, rfl, rfl, hl, fun r h => absurd h (Nat.not_lt_zero r), fun _ _ _ => rfl, fun _ _ => ⟨rfl, rfl⟩⟩
    | succ n ih =>
      intro hn
      rw [List.range_succ, List.foldl_append]
      exact (ih (by omega)).step hr _ hn
  exact upTo _ le_rfl

/-! ## The command -/

/-- The statement's clause on PLANISH. -/
theorem planish_gives_rows {d pos : Nat} {c : Cmd} {p : Plan} {s : State} (hf : s.fresh d pos .planish c) (hp : planOf c = some p)
    (hk : (s.planCheck d c).1 = none) (hs : s.mem.slices = [])
    (hh : ∀ r ∈ p.dest :: p.reads, s.rangeHeld r.1 r.2 = false) (hl : ∀ u, (s.unit u).lost = false)
    (ht : s.planTurn c (s.chansOf (p.dest :: p.reads)) = true) (hr : s.PlanReady p) :
    ∃ t, exec (.planish d pos) s = .next t ∧
      t.cmd d pos = some ({ c with holds := [⟨p.dest.1, p.dest.2⟩] }.ended .ok 0 p.nrows) ∧
      (∀ r < p.nrows, t.rawBytes (p.d + r * p.pitchD) p.pitchD = s.planRow p r) ∧
      s.arrayKept t (fun l => ∃ i, i < p.dest.2 ∧ s.locate (p.dest.1 + i) = some l) ∧
      (∀ e, e ≠ d → t.drawer e = s.drawer e) ∧ t.ports = s.ports ∧ t.anv = s.anv ∧ t.draws.buckets = s.draws.buckets := by
  have hlist : s.listOf d p = (.bags [], .ok, s) := if_neg hr.gather
  have hwaits : s.listWaits d pos = false := by simp only [State.listWaits, hf.due, hp, hlist]
  have hexec : exec (.planish d pos) s = .next (s.planWork d c p []) := by
    change execPlanish d pos s = _
    rw [execPlanish, hwaits, if_neg (by decide), hf.runCmd _ (State.planCheck_pass hp hr.gather hk)]
    simp only [hp, hlist, State.hasRead_ok, hf.1, Option.getD_some]
  have hx := hr.all_rows hl d []
  generalize hfold : (List.range p.nrows).foldl
    (fun (acc : Done × State) i => acc.2.doRow d p i (([] : List (List Nat)).getD i []) acc.1) (⟨0, .ok, false⟩, s) = x at hx
  obtain ⟨done, u⟩ := x
  obtain ⟨rfl, regs, ports, draws, anv, lost, rows, -, kept⟩ := hx
  simp only at regs ports draws anv lost rows kept
  have hwork : s.planWork d c p [] =
      (u.unitsDone (p.dest :: p.reads)).finish d { c with holds := [⟨p.dest.1, p.dest.2⟩] } .ok 0 p.nrows := by
    have htable : p.reads ++ p.table [] = p.reads := by rw [Plan.table, if_neg hr.gather, List.append_nil]
    simp only [State.planWork, htable, ht, State.openWaits_empty hs hh, hf.firstAction, State.openRows_empty hs, hfold]
    rfl
  have hdone := (State.unitsMoved_refl lost).unitsDone (p.dest :: p.reads)
  generalize u.unitsDone (p.dest :: p.reads) = v at hwork hdone
  have hpos := State.cmd_pos hf.1
  have hcmd : v.cmd d pos = some c := by rw [State.cmd, State.drawer, hdone.draws, draws]; exact hf.1
  have hdrawer (e : Nat) : v.drawer e = s.drawer e := by rw [State.drawer, hdone.draws, draws]; rfl
  have hmem (l : Loc) : v.rawSector l = u.rawSector l ∧ v.rawChecks l = u.rawChecks l := by
    simp only [State.rawSector, State.rawChecks, hdone.mem, and_self]
  refine ⟨_, hexec.trans (congrArg _ hwork), State.cmd_finish hcmd (by exact hpos) _ _ _, fun r hrn => ?_, fun l hl => ?_,
    fun e he => (State.drawer_finish_other _ _ _ _ _ he).trans (hdrawer e), hdone.ports.trans ports, hdone.anv.trans anv, ?_⟩
  · rw [← rows r hrn]
    exact State.rawBytes_congr fun i _ => congrFun hdone.rawByte _
  · exact ⟨(hmem l).1.trans (kept l hl).1, (hmem l).2.trans (kept l hl).2⟩
  · rw [State.finish_buckets, hdone.draws, draws]

end Sys2Proof.Machine
end

section
/-!
PROOF of O29, its part on SAMPLE (R152 to R156), and O29 itself.
-/

namespace Sys2Proof.Machine

open Sys2Proof.Num

/-! ## Counters -/

theorem State.count_eq (s : State) (cnt ovf : Fld) (i n : Nat) :
    s.count cnt ovf i n = { s with regs := (s.count cnt ovf i n).regs } := by
  unfold State.count
  dsimp only
  split <;> rfl

/-- A wrapping counter counts modulo its width; its OVF bit stands beside it (R327). -/
theorem State.fld_count (s : State) (cnt ovf : Fld) (i n : Nat) (hw : cnt.lo + cnt.w ≤ 64) (hr : cnt.reg = ovf.reg)
    (hd : cnt.lo + cnt.w ≤ ovf.lo ∨ ovf.lo + ovf.w ≤ cnt.lo) (ho : cnt.reg.offset i ≠ 0x18) :
    (s.count cnt ovf i n).fld cnt i = (s.fld cnt i + n) % 2 ^ cnt.w := by
  have hput : (s.put cnt i (s.fld cnt i + n)).fld cnt i = (s.fld cnt i + n) % 2 ^ cnt.w := fld_put_same _ _ _ _ hw
  unfold State.count
  dsimp only
  split
  · exact hput
  · rw [State.fld, reg_raise_other _ _ _ _ ho]
    exact (fld_put_field _ ovf cnt _ _ hr hd).trans hput

/-! ## Block writes of a command (R177) -/

section
variable (s : State) (p q : Nat) (v : Port)

@[simp] theorem State.port_setPort_same : (s.setPort p v).port p = v := Tab.get_set_same _ _ _ _

theorem State.port_setPort_other (h : q ≠ p) : (s.setPort p v).port q = s.port q := Tab.get_set_other _ _ _ _ _ h

end

/-- The write of burst `b` of a command's sectors, where it has any. -/
def burstWrite (d pos og dest : Nat) (secs : List Sec) (final : Bool) (b : Nat) : Option OutWrite :=
  let n := secs.length
  let lo := Nat.max (b * 32) (dest / 64) - dest / 64
  let hi := Nat.min ((b + 1) * 32) (dest / 64 + n) - dest / 64
  if lo < hi then some ⟨d, pos, d, og, dest + 64 * lo, final && hi == n, (secs.take hi).drop lo⟩ else none

theorem State.queueWrites_eq (s : State) (p d pos og dest : Nat) (secs : List Sec) (final : Bool) :
    s.queueWrites p d pos og dest secs final = s.setPort p { s.port p with
      outq := (s.port p).outq ++
        (burstsOf (dest / 64 * 64) (64 * secs.length)).filterMap (burstWrite d pos og dest secs final) } := rfl

theorem take_append_drop_take {α : Type} (l : List α) {i j : Nat} (h : i ≤ j) : l.take i ++ (l.take j).drop i = l.take j := by
  have e := List.take_append_drop i (l.take j)
  rwa [List.take_take, Nat.min_eq_left h] at e

section
variable (d pos og dest : Nat) (secs : List Sec) (final : Bool)

/-- The first `j` writes carry the sectors up to the end of their last burst. -/
theorem burstWrite_secs_upTo (j : Nat) (h : j ≤ (dest / 64 * 64 + 64 * secs.length - 1) / 2048 + 1 - dest / 64 * 64 / 2048)
    (h0 : 0 < secs.length) :
    (((List.range j).map fun i => dest / 64 * 64 / 2048 + i).filterMap (burstWrite d pos og dest secs final)).flatMap OutWrite.secs =
      secs.take (min ((dest / 64 * 64 / 2048 + j) * 32) (dest / 64 + secs.length) - dest / 64) := by
  induction j with
  | zero =>
    rw [show min ((dest / 64 * 64 / 2048 + 0) * 32) (dest / 64 + secs.length) - dest / 64 = 0 by omega]
    rfl
  | succ j ih =>
    have hlo : Nat.max ((dest / 64 * 64 / 2048 + j) * 32) (dest / 64) - dest / 64 =
        min ((dest / 64 * 64 / 2048 + j) * 32) (dest / 64 + secs.length) - dest / 64 := by
      change max _ _ - _ = _
      omega
    have hhi : Nat.min ((dest / 64 * 64 / 2048 + j + 1) * 32) (dest / 64 + secs.length) - dest / 64 =
        min ((dest / 64 * 64 / 2048 + (j + 1)) * 32) (dest / 64 + secs.length) - dest / 64 := rfl
    have hlt : min ((dest / 64 * 64 / 2048 + j) * 32) (dest / 64 + secs.length) - dest / 64 <
        min ((dest / 64 * 64 / 2048 + (j + 1)) * 32) (dest / 64 + secs.length) - dest / 64 := by omega
    rw [List.range_succ, List.map_append, List.filterMap_append, List.flatMap_append, ih (by omega)]
    simp only [List.map_cons, List.map_nil, List.filterMap_cons, List.filterMap_nil, burstWrite, hlo, hhi, if_pos hlt,
      List.flatMap_cons, List.flatMap_nil, List.append_nil]
    exact take_append_drop_take secs hlt.le

/-- The writes carry the sectors in order. -/
theorem burstWrite_secs :
    ((burstsOf (dest / 64 * 64) (64 * secs.length)).filterMap (burstWrite d pos og dest secs final)).flatMap OutWrite.secs = secs := by
  obtain h0 | h0 := Nat.eq_zero_or_pos secs.length
  · rw [h0, List.length_eq_zero_iff.mp h0]
    rfl
  · rw [burstsOf, if_neg (by omega), burstWrite_secs_upTo _ _ _ _ _ _ _ le_rfl h0, List.take_of_length_le (by omega)]

end

/-! ## Tokens -/

/-- Where every channel of the range serves and no unit is lost, each row has its token. -/
theorem State.sampleRows_eq {s : State} {seed : BitVec 256} {p : Sampling} {ks : List Nat}
    (hv : s.rangeServed p.range.1 p.range.2 = true) (hl : ∀ u, (s.unit u).lost = false) (hn : ks.length = p.nrows)
    (ht : ∀ r < p.nrows, p.token (s.rowCodes p.fmt (p.logits + r * p.pitch) p.vocab)
      (Gen.bits seed 32 (p.row0 + r) p.rstream p.draw) = some (ks.getD r 0)) : s.sampleRows seed p = ks.map some := by
  have hserved : ∀ r ∈ List.range p.nrows, s.rangeServed (p.logits + r * p.pitch) p.pitch = true := fun r hr => by
    have hle := row_le (w := p.pitch) (List.mem_range.mp hr)
    exact State.rangeServed_mono hv (show p.logits ≤ _ by omega) (show _ ≤ p.logits + p.nrows * p.pitch by omega)
  rw [State.sampleRows, List.takeWhile_eq_self_iff.mpr hserved]
  refine List.ext_getElem (by simp [hn]) fun r h1 h2 => ?_
  have hr : r < p.nrows := by simpa using h1
  rw [List.getElem_map, List.getElem_range, (State.unitsMoved_refl hl).lostIn, if_neg (by decide), ht r hr, List.getElem_map,
    List.getD_eq_getElem]

/-! ## The command -/

/-- The bytes of tokens. -/
def tokenBytes (ks : List Nat) : List Byte := ks.flatMap fun k => bytesOf 4 (BitVec.ofNat 32 k)

/-- The count of a SAMPLE that has drawn `n` tokens without a Fault. -/
def State.countTokens (s : State) (n : Nat) : State :=
  (s.count F.CR_SMP_ROWS_COUNT F.CR_SMP_ROWS_OVF 0 n).countSat F.CR_SMP_STAT_FAULT_ROWS 0 0

theorem State.countTokens_eq (s : State) (n : Nat) : s.countTokens n = { s with regs := (s.countTokens n).regs } :=
  congrArg (fun u : State => u.countSat F.CR_SMP_STAT_FAULT_ROWS 0 0) (s.count_eq _ _ _ _)

theorem State.fld_countTokens (s : State) (n : Nat) :
    (s.countTokens n).fld F.CR_SMP_ROWS_COUNT 0 = (s.fld F.CR_SMP_ROWS_COUNT 0 + n) % 2 ^ 48 :=
  (fld_put_other _ _ _ _ _ _ (by decide)).trans (s.fld_count _ _ _ _ (by decide) rfl (by decide) (by decide))

/-- Its units have drawn the tokens, they are counted, and their block writes queued. -/
def State.sampleQueued (s : State) (d : Nat) (c : Cmd) (p : Sampling) (ks : List Nat) : State :=
  (((s.openUnits (s.unitsIn p.range.1 p.range.2)).unitsDone [p.range]).countTokens p.nrows).queueWrites (c.arg 6 44 5) d c.pos
    (c.arg 6 50 8) (c.arg 7 0 44) ((sectorsOfBytes (tokenBytes ks)).map mkSec) true

/-- And their energy is charged. -/
def State.sampleCharged (s : State) (d : Nat) (c : Cmd) (p : Sampling) (ks : List Nat) : State :=
  ((List.range p.nrows).foldl (fun s _ => s.chargeRow d) (s.sampleQueued d c p ks)).charge d 10 p.nrows

section
variable {s : State} (hl : ∀ u, (s.unit u).lost = false) (d : Nat) (c : Cmd) (p : Sampling) (ks : List Nat)
include hl

theorem State.sampleQueued_spec : ∃ v, s.UnitsMoved v ∧ s.sampleQueued d c p ks = (v.countTokens p.nrows).setPort (c.arg 6 44 5)
    { s.port (c.arg 6 44 5) with
      outq := (s.port (c.arg 6 44 5)).outq ++ (burstsOf (c.arg 7 0 44 / 64 * 64) (64 * ((sectorsOfBytes (tokenBytes ks)).map mkSec).length)).filterMap
          (burstWrite d c.pos (c.arg 6 50 8) (c.arg 7 0 44) ((sectorsOfBytes (tokenBytes ks)).map mkSec) true) } := by
  have h := ((State.unitsMoved_refl hl).openUnits (s.unitsIn p.range.1 p.range.2)).unitsDone [p.range]
  refine ⟨_, h, ?_⟩
  generalize hv : (s.openUnits (s.unitsIn p.range.1 p.range.2)).unitsDone [p.range] = v at h
  have hport : (v.countTokens p.nrows).port (c.arg 6 44 5) = s.port (c.arg 6 44 5) := by
    rw [State.countTokens_eq, State.port, h.ports]
    rfl
  rw [State.sampleQueued, hv, State.queueWrites_eq, hport]

/-- Memory, the Drawers and the Anvils are as they were. -/
theorem State.sampleQueued_rest : (s.sampleQueued d c p ks).mem = s.mem ∧ (s.sampleQueued d c p ks).draws = s.draws ∧
    (s.sampleQueued d c p ks).anv = s.anv ∧ ∀ u, ((s.sampleQueued d c p ks).unit u).lost = false := by
  obtain ⟨v, h, e⟩ := s.sampleQueued_spec hl d c p ks
  rw [e, State.countTokens_eq]
  exact ⟨h.mem, h.draws, h.anv, h.lost⟩

theorem State.sampleQueued_count :
    (s.sampleQueued d c p ks).fld F.CR_SMP_ROWS_COUNT 0 = (s.fld F.CR_SMP_ROWS_COUNT 0 + p.nrows) % 2 ^ 48 := by
  obtain ⟨v, h, e⟩ := s.sampleQueued_spec hl d c p ks
  rw [State.fld_congr (t := v.countTokens p.nrows) (by rw [e, State.setPort_regs]), State.fld_countTokens, State.fld_congr h.regs]

theorem State.sampleQueued_outq :
    (((s.sampleQueued d c p ks).port (c.arg 6 44 5)).outq.drop (s.port (c.arg 6 44 5)).outq.length).flatMap OutWrite.secs =
      (sectorsOfBytes (tokenBytes ks)).map mkSec := by
  obtain ⟨v, -, e⟩ := s.sampleQueued_spec hl d c p ks
  rw [e, State.port_setPort_same, List.drop_left]
  exact burstWrite_secs _ _ _ _ _ _

theorem State.sampleQueued_port_other {q : Nat} (hq : q ≠ c.arg 6 44 5) : (s.sampleQueued d c p ks).port q = s.port q := by
  obtain ⟨v, h, e⟩ := s.sampleQueued_spec hl d c p ks
  rw [e, State.port_setPort_other _ _ _ _ hq, State.countTokens_eq, State.port, h.ports]
  rfl

theorem State.sampleCharged_moved : (s.sampleQueued d c p ks).UnitsMoved (s.sampleCharged d c p ks) :=
  ((State.unitsMoved_refl (s.sampleQueued_rest hl d c p ks).2.2.2).foldl _ fun _ _ h => h.chargeRow d).charge _ _ _

end

section
variable {d pos : Nat} {c : Cmd} {p : Sampling} {ks : List Nat} {s : State} (hf : s.fresh d pos .sample c)
  (hp : samplingOf c = some p) (hk : ∀ e ∈ s.sampleCheck d c, e.1 = false) (hv : s.rangeServed p.range.1 p.range.2 = true)
  (hl : ∀ u, (s.unit u).lost = false) (ht : s.planTurn c (s.chansOf [p.range]) = true) (hs : s.mem.slices = [])
  (h0 : p.tokens = 0) (hb : c.argBit 6 49 = true) (hr : s.rangeHeld p.range.1 p.range.2 = false) (hh : s.rangeHeld 0 0 = false)
  (hn : 0 < p.nrows) (hlen : ks.length = p.nrows)
  (htok : ∀ r < p.nrows, p.token (s.rowCodes p.fmt (p.logits + r * p.pitch) p.vocab)
    (Gen.bits c.seed 32 (p.row0 + r) p.rstream p.draw) = some (ks.getD r 0))
include hf hp hk hv hl ht hs h0 hb hr hh hn hlen htok

/-- SAMPLE whose tokens go to a port alone. -/
theorem exec_sample : exec (.sample d pos) s = .next
    ((s.sampleCharged d c p ks).finish d { c with holds := [⟨0, 0⟩] } .ok 0 p.nrows) := by
  have hdest : p.dest = (0, 0) := if_pos h0
  have hfree : s.rangesFree [(0, 0)] = true := by simp [State.rangesFree, State.rangeReady, hh]
  have hwait : s.openWaits [p.range] = false := State.openWaits_empty hs (by simpa using hr)
  have hbad : ((ks.map some).filter (·.isNone)).length = 0 := by simp
  have hbytes : ((ks.map some).flatMap fun t => bytesOf 4 (BitVec.ofNat 32 (t.getD 0xFFFFFFFF))) = tokenBytes ks := by
    rw [List.flatMap_map]
    rfl
  have hn0 : (p.nrows != 0) = true := bne_iff_ne.mpr (by omega)
  change execSample d pos s = _
  rw [execSample, hf.runCmd _ (congrArg (·, s) (firstFail_eq_none.mpr hk))]
  simp only [hp, State.sampleWork, ht, hwait, hfree, hf.firstAction, State.openRows_empty hs, State.sampleRows_eq hv hl hlen htok,
    hbad, hbytes, List.length_map, hlen, h0, hb, hn0, State.when, hdest, if_true]
  rfl

/-- The statement's clause on SAMPLE. -/
theorem sample_gives_tokens : ∃ t, exec (.sample d pos) s = .next t ∧
      t.cmd d pos = some ({ c with holds := [⟨0, 0⟩] }.ended .ok 0 p.nrows) ∧
      t.fld F.CR_SMP_ROWS_COUNT 0 = (s.fld F.CR_SMP_ROWS_COUNT 0 + p.nrows) % 2 ^ 48 ∧
      ((t.port (c.arg 6 44 5)).outq.drop (s.port (c.arg 6 44 5)).outq.length).flatMap OutWrite.secs =
        (sectorsOfBytes (ks.flatMap fun k => bytesOf 4 (BitVec.ofNat 32 k))).map mkSec ∧
      (∀ q, q ≠ c.arg 6 44 5 → t.port q = s.port q) ∧ s.arrayKept t (fun _ => False) ∧
      (∀ e, e ≠ d → t.drawer e = s.drawer e) ∧ t.anv = s.anv ∧ t.draws.buckets = s.draws.buckets := by
  have hm := State.sampleCharged_moved hl d c p ks
  obtain ⟨qmem, qdraws, qanv, -⟩ := s.sampleQueued_rest hl d c p ks
  have hpos := State.cmd_pos hf.1
  have draws := hm.draws.trans qdraws
  have mem := hm.mem.trans qmem
  have hcmd : (s.sampleCharged d c p ks).cmd d pos = some c := by rw [State.cmd, State.drawer, draws]; exact hf.1
  have hport (q : Nat) : ((s.sampleCharged d c p ks).finish d { c with holds := [⟨0, 0⟩] } .ok 0 p.nrows).port q =
      (s.sampleQueued d c p ks).port q := by rw [State.port, State.finish_ports, hm.ports]; rfl
  refine ⟨_, exec_sample hf hp hk hv hl ht hs h0 hb hr hh hn hlen htok, State.cmd_finish hcmd (by exact hpos) _ _ _, ?_, ?_,
    fun q hq => (hport q).trans (State.sampleQueued_port_other hl d c p ks hq), fun l _ => ?_, fun e he => ?_, hm.anv.trans qanv, ?_⟩
  · exact (State.fld_congr hm.regs _ _).trans (State.sampleQueued_count hl d c p ks)
  · rw [hport]
    exact State.sampleQueued_outq hl d c p ks
  · simp only [State.rawSector, State.rawChecks, State.finish_mem, mem, and_self]
  · rw [State.drawer_finish_other _ _ _ _ _ he, State.drawer, draws]
    rfl
  · rw [State.finish_buckets, draws]

end

/-- Settles O29: PLANISH by induction on its rows, each put where no operand and no other row lies; SAMPLE by its one step, whose tokens
are those of its rows since every channel serves and no unit is lost. -/
theorem planishAndSampleGiveRows : Obligations.PlanishAndSampleGiveRows := by
  unfold Obligations.PlanishAndSampleGiveRows
  refine ⟨?planish, ?sample⟩
  case planish =>
    intro d pos c p s hf hp hg hk _ hs he hr hl ht ha
    have hranges := State.planCheck_ranges hp hg hk
    exact planish_gives_rows hf hp hk hs (fun r hm => (hr r hm).1) hl ht
      ⟨hg, he, fun r hm x => State.plainAt_of_checks (hranges r hm).1 (hranges r hm).2 (hr r hm).2, fun r hm => (hr r hm).2, ha⟩
  case sample =>
    intro d pos c p ks s hf hp hk _ hv hl ht hs h0 hb hr hh hn hlen htok
    exact sample_gives_tokens hf hp hk hv hl ht hs h0 hb hr hh hn hlen htok

end Sys2Proof.Machine
end

section
/-!
PROOF of O59: the sum of two L of a DL format, and what the code of a sum reads as.
-/

namespace Sys2Proof.Num

/-! ## Codes of the DL formats (R31, R32) -/

section
variable {f : Fmt}

theorem encodeL_of_le (flt neg : Bool) {l : Int} (h : l ≤ -2 ^ (f.width - 2)) :
    encodeL f flt neg l = ⟨2 ^ (f.width - 2), false⟩ := if_pos h

theorem encodeL_of_ge (flt neg : Bool) {l : Int} (h : 2 ^ (f.width - 2) ≤ l) :
    encodeL f flt neg l = overflow f flt neg := by
  have hpos : (0 : Int) < 2 ^ (f.width - 2) := by positivity
  rw [encodeL, if_neg (by omega), if_pos h]

variable (hf : f = .dl16 ∨ f = .dl8)
include hf

/-- The value of a code of a DL format, its sign and its L taken apart. -/
theorem decode_dl {c : Nat} (hc : c < 2 ^ f.width) (h : c ≠ 2 ^ f.width - 1) :
    decode f c = if signed (f.width - 1) (c % 2 ^ (f.width - 1)) = -(2 ^ (f.width - 2)) then .dy .zero
      else .lg (decide (2 ^ (f.width - 1) ≤ c)) (signed (f.width - 1) (c % 2 ^ (f.width - 1))) f.logBits := by
  have hm := Nat.mod_eq_of_lt hc
  rcases hf with rfl | rfl <;> simp only [decode, hm, Fmt.faultCode, if_neg h]

theorem decode_zeroCode : decode f (2 ^ (f.width - 2)) = .dy .zero := by
  rcases hf with rfl | rfl <;> rfl

/-- A sign and an L of the range make a code that reads as them, unless it is the Fault pattern. -/
theorem decode_signAndL {neg : Bool} {l : Int} (h1 : -2 ^ (f.width - 2) < l) (h2 : l < 2 ^ (f.width - 2))
    (hn : neg = true → l ≠ -1) :
    decode f ((l % (2 ^ (f.width - 1) : Int)).toNat + if neg then 2 ^ (f.width - 1) else 0) = .lg neg l f.logBits := by
  generalize hc : (l % (2 ^ (f.width - 1) : Int)).toNat + (if neg then 2 ^ (f.width - 1) else 0) = c
  have hfacts : c < 2 ^ f.width ∧ c ≠ 2 ^ f.width - 1 ∧ signed (f.width - 1) (c % 2 ^ (f.width - 1)) = l ∧
      (2 ^ (f.width - 1) ≤ c ↔ neg = true) := by
    rcases hf with rfl | rfl <;> cases neg <;> simp [signed, Fmt.width] at * <;>
      exact ⟨by omega, by omega, by split <;> omega, by omega⟩
  obtain ⟨hlt, hne, hl, hneg⟩ := hfacts
  rw [decode_dl hf hlt hne, hl, if_neg (by omega), Bool.eq_iff_iff.mpr (decide_eq_true_iff.trans hneg)]

/-- Inside the range a sign and an L encode to themselves, but that the Fault pattern gives way to L = 0 (R32). -/
theorem decode_encodeL (flt : Bool) {neg : Bool} {l : Int} (h1 : -2 ^ (f.width - 2) < l) (h2 : l < 2 ^ (f.width - 2)) :
    decode f (encodeL f flt neg l).code = .lg neg (if neg && l = -1 then 0 else l) f.logBits ∧ (encodeL f flt neg l).ovf = false := by
  have hpos : (0 : Int) < 2 ^ (f.width - 2) := by positivity
  rw [encodeL, if_neg (by omega), if_neg (by omega)]
  refine ⟨decode_signAndL hf ?_ ?_ ?_, rfl⟩
  · split <;> omega
  · split <;> omega
  · split <;> simp_all

end

end Sys2Proof.Num

namespace Sys2Proof.Machine

open Sys2Proof.Num

/-- Settles O59: inside the range the sum of the L is the product's L, and outside it the codes are those of R32. -/
theorem logProductsAreExact : Obligations.LogProductsAreExact := by
  unfold Obligations.LogProductsAreExact
  intro f flt n m l k top g hf hg htop
  subst hg htop
  refine ⟨fun h1 h2 hne => ?inRange, fun hn hlk => ?poison, fun h => ?above, fun h => ?below, fun a => ?zero⟩
  case inRange =>
    have hl : (if (n != m) && l + k = -1 then 0 else l + k) = l + k := if_neg (by simpa using hne)
    simpa only [lmul, hl] using decode_encodeL hf flt (neg := n != m) h1 h2
  case poison =>
    have hr : (-2 ^ (f.width - 2) : Int) < -1 ∧ (-1 : Int) < 2 ^ (f.width - 2) := by rcases hf with rfl | rfl <;> decide
    have := (decode_encodeL hf flt (neg := n != m) hr.1 hr.2).1
    simpa only [lmul, hlk, hn, Bool.true_and, decide_true, if_true] using this
  case above => exact encodeL_of_ge flt (n != m) h
  case below => rw [lmul, encodeL_of_le flt (n != m) h, decode_zeroCode hf]
  case zero => exact ⟨decode_zeroCode hf, decode_zeroCode hf, decode_zeroCode hf⟩

end Sys2Proof.Machine
end

section
/-!
SUPPORT. Exact values as the rational numbers they stand for: sums, comparisons, scalings, and the nearest integer.
-/

namespace Sys2Proof.Machine

open Sys2Proof.Num

/-! ## Sums, comparisons and scalings -/

theorem ratOf_atExp {a : Dy} {e : Int} (h : e ≤ a.e) : (a.atExp e : ℚ) * 2 ^ e = ratOf a := by
  have he : (2 : ℚ) ^ (a.e - e).toNat = 2 ^ (a.e - e) := by rw [← zpow_natCast, Int.toNat_of_nonneg (by omega)]
  rw [Dy.atExp, ratOf, Int.cast_mul, Int.cast_pow, Int.cast_ofNat, he, mul_assoc, ← zpow_add₀ two_ne_zero, sub_add_cancel]

theorem ratOf_add (a b : Dy) : ratOf (a.add b) = ratOf a + ratOf b := by
  rw [← ratOf_atExp (min_le_left a.e b.e), ← ratOf_atExp (min_le_right a.e b.e), ← add_mul, ← Int.cast_add]
  rfl

theorem ratOf_neg (a : Dy) : ratOf a.neg = -ratOf a := by simp [ratOf, Dy.neg]

theorem ratOf_sub (a b : Dy) : ratOf (a.sub b) = ratOf a - ratOf b := by rw [Dy.sub, ratOf_add, ratOf_neg, sub_eq_add_neg]

theorem ratOf_scaleBy (a : Dy) (k : Int) : ratOf (a.scaleBy k) = ratOf a * 2 ^ k := by
  rw [ratOf, ratOf, mul_assoc, ← zpow_add₀ two_ne_zero]
  rfl

theorem isNeg_eq (a : Dy) : a.isNeg = decide (ratOf a < 0) := by
  have h : (0 : ℚ) < 2 ^ a.e := by positivity
  simp [Dy.isNeg, ratOf, mul_neg_iff, h, h.not_gt]

theorem isZero_eq (a : Dy) : a.isZero = decide (ratOf a = 0) := by
  simp [Dy.isZero, ratOf, zpow_ne_zero, beq_eq_decide]

theorem lt_eq (a b : Dy) : a.lt b = decide (ratOf a < ratOf b) := by
  rw [Dy.lt, isNeg_eq, ratOf_sub, decide_eq_decide, sub_neg]

theorem eq_eq (a b : Dy) : a.eq b = decide (ratOf a = ratOf b) := by
  rw [Dy.eq, isZero_eq, ratOf_sub, decide_eq_decide, sub_eq_zero]

/-! ## The nearest integer (R38) -/

/-- Twice the distance of a rounded quotient, in units of the divisor. -/
theorem rne_spec (n : Nat) {d : Nat} (hd : 0 < d) : 2 * |(rne n d : Int) * d - n| ≤ d ∧
    (2 * |(rne n d : Int) * d - n| = d → rne n d % 2 = 0) := by
  have hn : ((n / d : Nat) : Int) * d + (n % d : Nat) = n := by exact_mod_cast Nat.div_add_mod' n d
  have hlt := Nat.mod_lt n hd
  unfold rne
  generalize n / d = q at hn ⊢
  generalize n % d = r at hn hlt ⊢
  dsimp only
  split
  case isTrue h =>
    have habs : |((q + 1 : Nat) : Int) * d - n| = d - r := by
      rw [← hn, abs_of_nonneg] <;> push_cast <;> linarith
    rw [habs]
    simp only [Bool.or_eq_true, decide_eq_true_eq, Bool.and_eq_true, beq_iff_eq] at h
    omega
  case isFalse h =>
    have habs : |(q : Int) * d - n| = r := by
      rw [← hn, abs_of_nonpos] <;> linarith
    rw [habs]
    simp only [Bool.or_eq_true, decide_eq_true_eq, Bool.and_eq_true, beq_iff_eq, not_or, not_and] at h
    omega

/-- An integer that is nearest to a number, even where two are. -/
def IsNearest (r : Int) (x : ℚ) : Prop := |(r : ℚ) - x| ≤ 1 / 2 ∧ (|(r : ℚ) - x| = 1 / 2 → r % 2 = 0)

theorem IsNearest.neg {r : Int} {x : ℚ} (h : IsNearest r x) : IsNearest (-r) (-x) := by
  have habs : |((-r : Int) : ℚ) - -x| = |(r : ℚ) - x| := by rw [Int.cast_neg, neg_sub_neg, abs_sub_comm]
  rw [IsNearest, habs, Int.neg_emod_two]
  exact h

theorem IsNearest.intCast (r : Int) : IsNearest r r := by simp [IsNearest]

theorem isNearest_rne (n : Nat) {d : Nat} (hd : 0 < d) : IsNearest (rne n d) (n / d) := by
  have hq : (0 : ℚ) < d := by exact_mod_cast hd
  have habs : |((rne n d : Int) : ℚ) - n / d| = (2 * |(rne n d : Int) * d - n| : Int) / (2 * d) := by
    push_cast
    rw [mul_div_mul_left _ _ two_ne_zero, ← abs_of_pos hq, ← abs_div, abs_of_pos hq, sub_div, mul_div_cancel_right₀ _ hq.ne']
  obtain ⟨hle, heven⟩ := rne_spec n hd
  rw [IsNearest, habs, div_le_iff₀ (by positivity), div_eq_iff (by positivity), one_div, inv_mul_cancel_left₀ two_ne_zero]
  exact ⟨by exact_mod_cast hle, fun h => by exact_mod_cast heven (by exact_mod_cast h)⟩

/-- The magnitude of an exact value, to the nearest integer. -/
theorem isNearest_magnitude (a : Dy) :
    IsNearest (if 0 ≤ a.e then a.m.natAbs * 2 ^ a.e.toNat else rne a.m.natAbs (2 ^ (-a.e).toNat) : Nat) (a.m.natAbs * 2 ^ a.e) := by
  split
  case isTrue h =>
    have he : (2 : ℚ) ^ a.e = (2 ^ a.e.toNat : Nat) := by
      rw [Nat.cast_pow, Nat.cast_ofNat, ← zpow_natCast, Int.toNat_of_nonneg h]
    rw [he]
    exact_mod_cast IsNearest.intCast (a.m.natAbs * 2 ^ a.e.toNat : Nat)
  case isFalse h =>
    have he : (a.m.natAbs : ℚ) * 2 ^ a.e = a.m.natAbs / (2 ^ (-a.e).toNat : Nat) := by
      rw [Nat.cast_pow, Nat.cast_ofNat, ← zpow_natCast, Int.toNat_of_nonneg (by omega), zpow_neg, div_inv_eq_mul]
    rw [he]
    exact isNearest_rne _ (by positivity)

theorem isNearest_toIntRne (a : Dy) : IsNearest a.toIntRne (ratOf a) := by
  have h := isNearest_magnitude a
  rw [Dy.toIntRne]
  split
  case isTrue hneg =>
    have hm : ratOf a = -((a.m.natAbs : ℚ) * 2 ^ a.e) := by
      rw [ratOf, Nat.cast_natAbs, abs_of_neg hneg, Int.cast_neg, neg_mul, neg_neg]
    rw [hm]
    exact h.neg
  case isFalse hpos =>
    have hm : ratOf a = (a.m.natAbs : ℚ) * 2 ^ a.e := by
      rw [ratOf, Nat.cast_natAbs, abs_of_nonneg (by omega)]
    rw [hm]
    exact h

end Sys2Proof.Machine
end

section
/-!
PROOF of O60: contributions to a window, and their sums.
-/

namespace Sys2Proof.Machine

open Sys2Proof.Num

/-! ## Contributions (R41, R35) -/

theorem ratOf_div_two_zpow (a : Dy) (bx : Nat) : ratOf a / 2 ^ ((bx : Int) - 174) = ratOf (a.scaleBy (174 - (bx : Int))) := by
  rw [ratOf_scaleBy, div_eq_mul_inv, ← zpow_neg, neg_sub]

theorem toWindow_dy (bx : Nat) (a : Dy) {r : Int} (hr : r = (a.scaleBy (174 - (bx : Int))).toIntRne) :
    toWindow bx (.dy a) = if 2 ^ 47 - 1 < r then (BitVec.ofInt 64 (2 ^ 47 - 1), true)
      else if r < -(2 ^ 47 - 1) then (BitVec.ofInt 64 (-(2 ^ 47 - 1)), true) else (BitVec.ofInt 64 r, false) := by
  subst hr
  rfl

theorem applyScale_dy {code : Nat} (h : code < 255) (a : Dy) :
    ∃ b, applyScale code (.dy a) = .dy b ∧ ratOf b = ratOf a * 2 ^ ((code : Int) - 127) :=
  ⟨a.scaleBy ((code : Int) - 127), by rw [applyScale, if_neg h.ne], ratOf_scaleBy a _⟩

/-! ## Sums in a window (R33, R88) -/

theorem dxAdd_fault_right (x : BitVec 64) : dxAdd x dxFault = dxFault := by simp [dxAdd]
theorem dxAdd_fault_left (x : BitVec 64) : dxAdd dxFault x = dxFault := by simp [dxAdd]

theorem foldl_dxAdd_fault (l : List (BitVec 64)) : l.foldl dxAdd dxFault = dxFault := by
  induction l with
  | nil => rfl
  | cons x l ih => rw [List.foldl_cons, dxAdd_fault_left, ih]

theorem foldl_dxAdd_of_mem (l : List (BitVec 64)) (a : BitVec 64) (h : dxFault ∈ l) : l.foldl dxAdd a = dxFault := by
  induction l generalizing a with
  | nil => simp at h
  | cons x l ih =>
    rw [List.foldl_cons]
    rcases List.mem_cons.mp h with rfl | hm
    · rw [dxAdd_fault_right, foldl_dxAdd_fault]
    · exact ih _ hm

/-- A word that is a contribution and not Fault (R41). -/
def Bounded (x : BitVec 64) : Prop := x.toInt.natAbs ≤ 2 ^ 47 - 1

theorem toInt_dxFault : dxFault.toInt = -2 ^ 63 := by decide

/-- A sum of a few contributions takes one more without wrapping round. -/
theorem toInt_dxAdd {a x : BitVec 64} (ha : a.toInt.natAbs ≤ 2 ^ 63 - 2 ^ 47) (hx : Bounded x) :
    (dxAdd a x).toInt = a.toInt + x.toInt := by
  unfold Bounded at hx
  have hne : ¬(a = dxFault ∨ x = dxFault) := by
    rintro (rfl | rfl) <;> rw [toInt_dxFault] at * <;> omega
  rw [dxAdd, if_neg hne, BitVec.toInt_add, Int.bmod_eq_of_le] <;> omega

/-- Contributions add up to their exact sum as long as the bounds of R33 hold: each step stays inside the window. -/
theorem toInt_foldl_dxAdd (l : List (BitVec 64)) (hl : ∀ x ∈ l, Bounded x) (n : Nat) (a : BitVec 64)
    (ha : a.toInt.natAbs ≤ n * (2 ^ 47 - 1)) (hn : n + l.length ≤ 2 ^ 16) :
    (l.foldl dxAdd a).toInt = a.toInt + (l.map BitVec.toInt).sum := by
  induction l generalizing n a with
  | nil => simp
  | cons x l ih =>
    rw [List.length_cons] at hn
    have hx := hl x List.mem_cons_self
    have hadd : (dxAdd a x).toInt = a.toInt + x.toInt := toInt_dxAdd (by omega) hx
    have hnext : (dxAdd a x).toInt.natAbs ≤ (n + 1) * (2 ^ 47 - 1) := by
      unfold Bounded at hx
      rw [hadd]
      omega
    rw [List.foldl_cons, ih (fun y hy => hl y (List.mem_cons_of_mem _ hy)) (n + 1) _ hnext (by omega), hadd, List.map_cons,
      List.sum_cons, add_assoc]

section
variable {l : List (BitVec 64)} (hlen : l.length ≤ 2 ^ 16) (hl : ∀ x ∈ l, x = dxFault ∨ x.toInt.natAbs ≤ 2 ^ 47 - 1)
include hlen hl

theorem sum_exact (hf : dxFault ∉ l) : (l.foldl dxAdd 0).toInt = (l.map BitVec.toInt).sum := by
  have hb : ∀ x ∈ l, Bounded x := fun x hx => (hl x hx).resolve_left fun h => hf (h ▸ hx)
  simpa using toInt_foldl_dxAdd l hb 0 0 (by simp) (by omega)

theorem sum_perm {m : List (BitVec 64)} (hp : l.Perm m) : m.foldl dxAdd 0 = l.foldl dxAdd 0 := by
  by_cases hf : dxFault ∈ l
  · rw [foldl_dxAdd_of_mem l 0 hf, foldl_dxAdd_of_mem m 0 (hp.mem_iff.mp hf)]
  · apply BitVec.eq_of_toInt_eq
    rw [sum_exact hlen hl hf, sum_exact (hp.length_eq ▸ hlen) (fun x hx => hl x (hp.mem_iff.mpr hx)) (fun h => hf (hp.mem_iff.mpr h))]
    exact (hp.map _).sum_eq.symm

end

/-- Settles O60: the nearest integer is the contribution, and sums of at most 2^16 of them never leave the window. -/
theorem bucketSumsAreExact : Obligations.BucketSumsAreExact := by
  unfold Obligations.BucketSumsAreExact
  refine ⟨fun bx code a r hr => ⟨?nearest, toWindow_dy bx a hr, fun h => applyScale_dy h a, rfl, rfl⟩, fun bx x => ⟨?value,
    dxAdd_fault_right x, dxAdd_fault_left x⟩, fun l hlen hl => ⟨foldl_dxAdd_of_mem l 0, sum_exact hlen hl, fun m => sum_perm hlen hl⟩⟩
  case nearest =>
    rw [ratOf_div_two_zpow, hr]
    exact isNearest_toIntRne _
  case value =>
    have he : (bx : Int) - 127 - 47 = bx - 174 := by omega
    rw [he]
    rfl

end Sys2Proof.Machine
end

section
/-!
PROOF of O58: no DF result is the sign bit alone, and comparison is by value.
-/

namespace Sys2Proof.Num

/-! ## The sign bit alone (R26) -/

/-- The code is not the sign bit alone. -/
def NotMinusZero (f : Fmt) (c : Nat) : Prop := c ≠ 2 ^ (f.width - 1)

theorem zero_notMinusZero (f : Fmt) : NotMinusZero f 0 := (Nat.two_pow_pos _).ne

theorem producible_notMinusZero {f : Fmt} {c : Nat} (h : producible f c = true) : NotMinusZero f c := by
  simp only [producible, Bool.and_eq_true, bne_iff_ne] at h
  exact h.2

section
variable {f : Fmt} (hf : f.isDF = true)
include hf

/-! A DF format rounds every value by the one function; only the place of the magnitude differs. -/

theorem encode_dy_df (flt : Bool) (r : Rnd) (a : Dy) : encode f flt r (.dy a) = roundDF f flt r a.isNeg a.m.natAbs 1 a.e := by
  cases f <;> simp [Fmt.isDF] at hf <;> rfl

theorem encode_lg_df (flt : Bool) (r : Rnd) (neg : Bool) (l : Int) (g : Nat) :
    encode f flt r (.lg neg l g) = roundDF f flt r neg (exp2Fix l g).m.natAbs 1 (exp2Fix l g).e := by
  cases f <;> simp [Fmt.isDF] at hf <;> rfl

theorem maxCode_df : 0 < f.maxCode ∧ f.maxCode < 2 ^ (f.width - 1) := by
  cases f <;> simp [Fmt.isDF] at hf <;> simp [Fmt.maxCode, Fmt.isDL, Fmt.width]

theorem fault_notMinusZero : NotMinusZero f f.faultCode := by
  cases f <;> simp [Fmt.isDF] at hf <;> simp [NotMinusZero, Fmt.faultCode, Fmt.width]

theorem overflow_notMinusZero (flt neg : Bool) : NotMinusZero f (overflow f flt neg).code := by
  obtain ⟨hpos, hlt⟩ := maxCode_df hf
  cases flt
  case true => exact fault_notMinusZero hf
  case false =>
    rw [NotMinusZero, overflow, if_neg Bool.false_ne_true]
    split <;> dsimp only <;> omega

/-- A rounded magnitude takes the sign bit only where it is not zero. -/
theorem roundDF_notMinusZero (flt : Bool) (r : Rnd) (neg : Bool) (num den : Nat) (e : Int) :
    NotMinusZero f (roundDF f flt r neg num den e).code := by
  obtain ⟨-, hmax⟩ := maxCode_df hf
  rw [roundDF]
  split
  · exact zero_notMinusZero f
  · extract_lets l ge k0 k sh n code
    generalize code = c
    split
    · exact overflow_notMinusZero hf flt neg
    · rw [NotMinusZero]
      dsimp only
      split
      case isTrue h =>
        have : c ≠ 0 := by simpa using (Bool.and_eq_true_iff.mp h).2
        omega
      case isFalse => omega

theorem encode_notMinusZero (flt : Bool) (r : Rnd) (v : Val) : NotMinusZero f (encode f flt r v).code := by
  cases v with
  | fault => exact fault_notMinusZero hf
  | dy a => rw [encode_dy_df hf]; exact roundDF_notMinusZero hf _ _ _ _ _ _
  | lg neg l g => rw [encode_lg_df hf]; exact roundDF_notMinusZero hf _ _ _ _ _ _

omit hf in
theorem pick_notMinusZero (free : Nat) (p : Dy → Bool) {near : Res} (h : NotMinusZero f near.code) :
    NotMinusZero f (pick f free p near).code := by
  rw [pick]
  split
  · exact h
  · split
    · split
      case isTrue hp => exact producible_notMinusZero (Bool.and_eq_true_iff.mp hp).1
      case isFalse => exact h
    · exact h

/-! ## Slots A and B -/

theorem lift1_notMinusZero (flt : Bool) (op : Dy → Dy) (a : Val) : NotMinusZero f (lift1 f flt op a).code := by
  unfold lift1
  split
  · exact encode_notMinusZero hf _ _ _
  · exact fault_notMinusZero hf

theorem lift2_notMinusZero (flt : Bool) (op : Dy → Dy → Dy) (a b : Val) : NotMinusZero f (lift2 f flt op a b).code := by
  unfold lift2
  split
  · exact encode_notMinusZero hf _ _ _
  · exact fault_notMinusZero hf

theorem lift3_notMinusZero (flt : Bool) (op : Dy → Dy → Dy → Dy) (a b c : Val) : NotMinusZero f (lift3 f flt op a b c).code := by
  unfold lift3
  split
  · exact encode_notMinusZero hf _ _ _
  · exact fault_notMinusZero hf

/-- What the sign bit alone and the spare code read as (R25, R26). -/
theorem decode_minusZero : decode f (2 ^ (f.width - 1)) = .dy ⟨0, 1 - f.bias - f.fracBits⟩ := by
  cases f <;> simp [Fmt.isDF] at hf <;> rfl

theorem decode_spare : decode f (2 ^ (f.width - 1) - 1) = decode f f.maxCode := by
  cases f <;> simp [Fmt.isDF] at hf <;> rfl

end

/-! ## Functions of slot C -/

theorem divRound_notMinusZero (flt : Bool) (a b : Dy) : NotMinusZero .df32 (divRound .df32 flt a b).code := by
  unfold divRound
  split
  · exact overflow_notMinusZero rfl _ _
  · exact roundDF_notMinusZero rfl _ _ _ _ _ _

theorem rcp_notMinusZero (free : Nat) (flt : Bool) (a : Val) : NotMinusZero .df32 (rcp free flt a).code := by
  unfold rcp
  split
  · split
    · exact overflow_notMinusZero rfl _ _
    · exact pick_notMinusZero _ _ (divRound_notMinusZero _ _ _)
  · exact fault_notMinusZero rfl

theorem rsq_notMinusZero (free : Nat) (flt : Bool) (a : Val) : NotMinusZero .df32 (rsq free flt a).code := by
  unfold rsq
  split
  · split
    · exact overflow_notMinusZero rfl _ _
    · split
      · exact fault_notMinusZero rfl
      · exact pick_notMinusZero _ _ (encode_notMinusZero rfl _ _ _)
  · exact fault_notMinusZero rfl

theorem sqrtDF_notMinusZero (a : Val) : NotMinusZero .df32 (sqrtDF a).code := by
  unfold sqrtDF
  split
  · split
    · exact zero_notMinusZero _
    · split
      · exact fault_notMinusZero rfl
      · exact encode_notMinusZero rfl _ _ _
  · exact fault_notMinusZero rfl

theorem exp2DF_notMinusZero (free : Nat) (flt : Bool) (a : Val) : NotMinusZero .df32 (exp2DF .df32 free flt a).code := by
  unfold exp2DF
  split
  · split
    · exact overflow_notMinusZero rfl _ _
    · split
      · exact zero_notMinusZero _
      · exact pick_notMinusZero _ _ (encode_notMinusZero rfl _ _ _)
  · exact fault_notMinusZero rfl

theorem log2DF_notMinusZero (free : Nat) (flt : Bool) (a : Val) : NotMinusZero .df32 (log2DF free flt a).code := by
  unfold log2DF
  split
  · split
    · exact overflow_notMinusZero rfl _ _
    · split
      · exact fault_notMinusZero rfl
      · exact pick_notMinusZero _ _ (encode_notMinusZero rfl _ _ _)
  · exact fault_notMinusZero rfl

theorem ltofDF_notMinusZero (free : Nat) (flt : Bool) (a : Val) : NotMinusZero .df32 (ltofDF free flt a).code := by
  cases a with
  | fault => exact fault_notMinusZero rfl
  | dy => exact zero_notMinusZero _
  | lg neg l g => exact pick_notMinusZero _ _ (encode_notMinusZero rfl _ _ _)

theorem twoSum_notMinusZero (flt : Bool) (a b : Val) :
    NotMinusZero .df32 (twoSum flt a b).1.code ∧ NotMinusZero .df32 (twoSum flt a b).2 := by
  unfold twoSum
  split
  · extract_lets s hi
    have hhi : NotMinusZero .df32 hi.code := encode_notMinusZero rfl _ _ _
    split
    · exact ⟨hhi, zero_notMinusZero _⟩
    · split
      · exact ⟨hhi, encode_notMinusZero rfl _ _ _⟩
      · exact ⟨hhi, zero_notMinusZero _⟩
  · exact ⟨fault_notMinusZero rfl, fault_notMinusZero rfl⟩

end Sys2Proof.Num

namespace Sys2Proof.Machine

open Sys2Proof.Num

theorem AbOp.value_notMinusZero {f : Fmt} (hf : f.isDF = true) (o : AbOp) (flt p : Bool) (a b c : Val) :
    NotMinusZero f (o.value f flt a b c p).code := by
  cases o with
  | mov | abs | neg | sel => exact lift1_notMinusZero hf _ _ _
  | add | sub | mul | min | max | scale => exact lift2_notMinusZero hf _ _ _ _
  | fma | fms => exact lift3_notMinusZero hf _ _ _ _ _
  | cmplt | cmpeq | twosum | ftwosum => exact fault_notMinusZero hf

/-- LMUL and FTOL write DL formats alone (Table 3-6). -/
theorem COp.dl_of_legal {o : COp} {w : SlotWord} (ho : o = .lmul ∨ o = .ftol) (hl : o.legal w = true) : (o.dst w).isDF = false := by
  have hw : w.fmt = 9 ∨ w.fmt = 10 := by
    rcases ho with rfl | rfl <;> simp [COp.legal] at hl <;> tauto
  have hd : o.dst w = w.format := by rcases ho with rfl | rfl <;> rfl
  rw [hd, SlotWord.format]
  rcases hw with h | h <;> rw [h] <;> rfl

theorem COp.value_notMinusZero (o : COp) (w : SlotWord) (a b : Val) (hl : o.legal w = true) (hd : (o.dst w).isDF = true) :
    NotMinusZero (o.dst w) (o.value w a b).code := by
  cases o with
  | rcp => exact rcp_notMinusZero _ _ _
  | rsq => exact rsq_notMinusZero _ _ _
  | sqrt => exact sqrtDF_notMinusZero _
  | exp2 => exact exp2DF_notMinusZero _ _ _
  | log2 => exact log2DF_notMinusZero _ _ _
  | ltof => exact ltofDF_notMinusZero _ _ _
  | lmul => simp [COp.dl_of_legal (.inl rfl) hl] at hd
  | ftol => simp [COp.dl_of_legal (.inr rfl) hl] at hd

theorem pairSum_notMinusZero (fast flt : Bool) (a b : Val) :
    NotMinusZero .df32 (pairSum fast flt a b).1 ∧ NotMinusZero .df32 (pairSum fast flt a b).2 := by
  have h := twoSum_notMinusZero flt a b
  unfold pairSum
  split
  · dsimp only
    split
    · refine ⟨h.1, ?_⟩
      dsimp only
      split
      case isTrue hp => exact producible_notMinusZero hp
      case isFalse => exact h.2
    · exact h
  · exact h

/-! ## Comparison (R30) -/

theorem holds_dy (a b : Dy) : AbOp.cmplt.holds (.dy a) (.dy b) = decide (ratOf a < ratOf b) ∧
    AbOp.cmpeq.holds (.dy a) (.dy b) = decide (ratOf a = ratOf b) := ⟨lt_eq a b, eq_eq a b⟩

theorem cmp_fault (op : Dy → Dy → Bool) (v : Val) : cmp op .fault v = false ∧ cmp op v .fault = false := by
  cases v <;> exact ⟨rfl, rfl⟩

theorem lift2_fault (f : Fmt) (flt : Bool) (op : Dy → Dy → Dy) (v : Val) :
    (lift2 f flt op .fault v).code = f.faultCode ∧ (lift2 f flt op v .fault).code = f.faultCode := by
  cases v <;> exact ⟨rfl, rfl⟩

/-- Settles O58: every way to a DF result ends in one of a few roundings, none of which gives the sign bit alone. -/
theorem zeroAndComparisons : Obligations.ZeroAndComparisons := by
  unfold Obligations.ZeroAndComparisons
  refine ⟨fun f hf => ⟨⟨_, decode_minusZero hf, rfl⟩, decode_spare hf, encode_notMinusZero hf, fun o flt p a b c =>
    o.value_notMinusZero hf flt p a b c⟩, COp.value_notMinusZero, pairSum_notMinusZero, holds_dy, fun f flt p v c o => ⟨?cmp, ?minmax⟩⟩
  case cmp => rintro (rfl | rfl) <;> exact cmp_fault _ v
  case minmax => rintro (rfl | rfl) <;> exact lift2_fault f flt _ v

end Sys2Proof.Machine
end

section
/-!
SUPPORT. Lanes of a register, and what a slot's issue leaves of the state.
-/

namespace Sys2Proof.Machine

open Sys2Proof.Num

/-! ## Lanes (R49) -/

/-- The number that lanes 0 to `n − 1` of width `w` make. -/
def laneSum (w n : Nat) (f : Nat → Nat) : Nat := (List.range n).foldl (fun a e => a + f e % 2 ^ w * 2 ^ (w * e)) 0

theorem laneSum_succ (w n : Nat) (f : Nat → Nat) : laneSum w (n + 1) f = laneSum w n f + f n % 2 ^ w * 2 ^ (w * n) := by
  simp [laneSum, List.range_succ]

theorem laneSum_lt (w n : Nat) (f : Nat → Nat) : laneSum w n f < 2 ^ (w * n) := by
  induction n with
  | zero => simp [laneSum]
  | succ n ih =>
    have hf : f n % 2 ^ w + 1 ≤ 2 ^ w := Nat.mod_lt _ (Nat.two_pow_pos w)
    calc laneSum w (n + 1) f < 2 ^ (w * n) + f n % 2 ^ w * 2 ^ (w * n) := by rw [laneSum_succ]; omega
      _ = (f n % 2 ^ w + 1) * 2 ^ (w * n) := by ring
      _ ≤ 2 ^ w * 2 ^ (w * n) := Nat.mul_le_mul_right _ hf
      _ = 2 ^ (w * (n + 1)) := by rw [← pow_add]; ring_nf

theorem laneSum_lt_of_le {w n m : Nat} (h : w * n ≤ m) (f : Nat → Nat) : laneSum w n f < 2 ^ m :=
  (laneSum_lt w n f).trans_le (Nat.pow_le_pow_right two_pos h)

theorem laneSum_lane {w n e : Nat} (f : Nat → Nat) (he : e < n) : laneSum w n f / 2 ^ (w * e) % 2 ^ w = f e % 2 ^ w := by
  induction n with
  | zero => omega
  | succ n ih =>
    rw [laneSum_succ]
    rcases Nat.lt_succ_iff_lt_or_eq.mp he with h | rfl
    · obtain ⟨k, rfl⟩ := Nat.exists_eq_add_of_lt h
      have hp : f (e + k + 1) % 2 ^ w * 2 ^ (w * (e + k + 1)) = 2 ^ (w * e) * (2 ^ w * (f (e + k + 1) % 2 ^ w * 2 ^ (w * k))) := by ring
      rw [hp, Nat.add_mul_div_left _ _ (Nat.two_pow_pos _), Nat.add_mul_mod_self_left, ih h]
    · rw [Nat.add_mul_div_right _ _ (Nat.two_pow_pos _), Nat.div_eq_of_lt (laneSum_lt w e f), Nat.zero_add, Nat.mod_mod]

/-- Stated for every width, so that 2^2048 is never evaluated. -/
theorem toNat_ofNat_of_lt {m x : Nat} (h : x < 2 ^ m) : (BitVec.ofNat m x).toNat = x := by
  rw [BitVec.toNat_ofNat, Nat.mod_eq_of_lt h]

section
variable {w n : Nat} (h : w * n ≤ 2048)
include h

theorem toNat_lanes (f : Nat → Nat) : (lanes w n f).toNat = laneSum w n f := by
  rw [lanes, ← laneSum, toNat_ofNat_of_lt (laneSum_lt_of_le h f)]

theorem toNat_lanes_lt (f : Nat → Nat) : (lanes w n f).toNat < 2 ^ (w * n) := toNat_lanes h f ▸ laneSum_lt w n f

theorem laneOf_lanes (f : Nat → Nat) {e : Nat} (he : e < n) : laneOf w (lanes w n f) e = f e % 2 ^ w := by
  rw [laneOf, toNat_lanes h, laneSum_lane f he]

theorem laneOf_laneMask (p : Nat → Bool) {e : Nat} (he : e < n) : laneOf w (laneMask w n p) e = if p e then 2 ^ w - 1 else 0 := by
  rw [laneMask, laneOf_lanes h _ he]
  have := Nat.two_pow_pos w
  split
  · exact Nat.mod_eq_of_lt (by omega)
  · exact Nat.zero_mod _

end

/-- As many lanes as a register holds. -/
theorem lane_mul_le (w : Nat) : w * (2048 / w) ≤ 2048 := Nat.mul_div_le 2048 w

/-! ## Anvils (R51) -/

section
variable (s : State) {a b : Nat} (v : Anvil)

@[simp] theorem State.anvil_setAnvil_same : (s.setAnvil a v).anvil a = v := Tab.get_set_same _ _ _ _

theorem State.anvil_setAnvil_other (h : b ≠ a) : (s.setAnvil a v).anvil b = s.anvil b := Tab.get_set_other _ _ _ _ _ h

theorem State.landed_setAnvil (ls : List Landing) (hv : v = { s.anvil a with landing := (s.anvil a).landing ++ ls }) :
    s.landed (s.setAnvil a v) a ls :=
  ⟨(s.anvil_setAnvil_same v).trans hv, fun _ hb => s.anvil_setAnvil_other v hb, rfl⟩

end

/-- A result on its way lands in the lanes that its mask names. -/
theorem State.lanesLand_result (s : State) (a lat r : Nat) {k n : Nat} (p : Nat → Bool) (f : Nat → Nat) (h : k * n ≤ 2048) :
    s.lanesLand (s.setAnvil a ((s.anvil a).result lat false r (laneMask k n p) (lanes k n f))) a lat r k n p f :=
  ⟨⟨(s.anvil a).cyc + lat, false, r, laneMask k n p, lanes k n f⟩, s.landed_setAnvil _ _ rfl, rfl, rfl, rfl, toNat_lanes_lt h _,
    fun _ he => ⟨laneOf_laneMask h p he, laneOf_lanes h f he⟩⟩

/-! ## Issue (R51, R55, R63) -/

theorem State.issuesAt.mayIssue {s : State} {i : Issue} {x : Site} (h : s.issuesAt i x) : s.mayIssue i.anvil = true := by
  obtain ⟨ha, hp, hs, -⟩ := h
  simp [State.mayIssue, ha, hp, hs]

theorem exec_ab (o : AbOp) (sl : SlotAB) (i : Issue) (s : State) :
    exec (o.instr sl i) s = .next (s.issueAb i.anvil i.ctx o i.word) := by
  cases o <;> rfl

theorem exec_d (o : DOp) (i : Issue) (s : State) : exec (o.instr i) s = .next (s.issueDIn i.anvil i.ctx o i.word) := by
  cases o <;> rfl

theorem exec_ab_runs {s : State} {o : AbOp} {i : Issue} {x : Site} (sl : SlotAB) (h : s.runsAb o i x) :
    exec (o.instr sl i) s = .next (s.setAnvil i.anvil ((s.anvil i.anvil).issueAb o i.word (x.scal.getD []))) := by
  obtain ⟨hi, hl, hf, hsb⟩ := h
  have hb : (!i.word.sb || x.scal.isSome) = true := by
    cases hw : i.word.sb
    · rfl
    · simp [hsb hw]
  rw [exec_ab, State.issueAb, hi.2.2.2]
  simp only [hi.mayIssue, hl, hf, hb, Bool.and_true, if_true]

end Sys2Proof.Machine
end

section
/-!
PROOF of O49: compares and pair sums.
-/

namespace Sys2Proof.Machine

open Sys2Proof.Num

/-! ## What an operation puts on its way, by its operands (R63) -/

section
variable {s : State} {o : AbOp} {i : Issue} {x : Site}

theorem issueAb_cmp (h : o.isCmp = true) :
    (s.anvil i.anvil).issueAb o i.word (x.scal.getD []) = (s.anvil i.anvil).result o.latency true i.word.dst.toNat
      (laneMask (i.word.format.lane / 8) (2048 / i.word.format.lane) (s.passes i i.word.format.lane))
      (laneMask (i.word.format.lane / 8) (2048 / i.word.format.lane) fun e => o.holds (s.argA o i x e) (s.argB i x e)) := by
  cases o with
  | cmplt | cmpeq => rfl
  | _ => cases h

/-- The result of a pair sum on its way to a register. -/
def State.pairLanes (s : State) (o : AbOp) (i : Issue) (x : Site) (part : Nat × Nat → Nat) : BitVec 2048 :=
  lanes 32 64 fun e => part (pairSum (o == .ftwosum) i.word.flt (s.argA o i x e) (s.argB i x e))

theorem issueAb_pair (h : o.isPair = true) (hf : i.word.format = .df32) :
    (s.anvil i.anvil).issueAb o i.word (x.scal.getD []) =
      ((s.anvil i.anvil).result o.latency false i.word.dst.toNat (laneMask 32 64 (s.passes i 32)) (s.pairLanes o i x Prod.fst)).result
        o.latency false (i.word.dst.toNat + 1) (laneMask 32 64 (s.passes i 32)) (s.pairLanes o i x Prod.snd) := by
  cases o with
  | twosum | ftwosum =>
    unfold Anvil.issueAb State.pairLanes State.argA State.argB
    rw [hf]
    rfl
  | _ => cases h

/-- Formats of slots A and B have lanes of 8, 16 or 32 bits, and pair sums are of DF32 (R65). -/
theorem AbOp.lane_of_legal {w : SlotWord} (h : o.legal w = true) : w.format.lane = 8 ∨ w.format.lane = 16 ∨ w.format.lane = 32 := by
  have hw : [0, 2, 3, 5, 6].contains w.fmt.toNat = true := by
    simp only [AbOp.legal, Bool.and_eq_true, and_assoc] at h
    exact h.1
  rw [SlotWord.format]
  generalize w.fmt.toNat = c at hw
  simp only [List.contains_iff_mem, List.mem_cons, List.not_mem_nil, or_false] at hw
  rcases hw with rfl | rfl | rfl | rfl | rfl <;> decide

theorem AbOp.format_of_legal_pair {w : SlotWord} (h : o.legal w = true) (hp : o.isPair = true) : w.format = .df32 := by
  have hw : w.fmt = 0 := by
    simp only [AbOp.legal, hp, Bool.and_eq_true, Bool.not_true, Bool.false_or, beq_iff_eq, and_assoc] at h
    exact h.2.1
  rw [SlotWord.format, hw]
  rfl

theorem holds_eq_match (h : o.isCmp = true) (u v : Val) : o.holds u v = match u, v with
    | .dy a, .dy b => if o = .cmplt then a.lt b else a.eq b
    | _, _ => false := by
  cases o with
  | cmplt | cmpeq => cases u <;> cases v <;> rfl
  | _ => cases h

end

/-! ## Two-sums (R46) -/

theorem twoSum_fst (flt : Bool) (a b : Dy) : (twoSum flt (.dy a) (.dy b)).1 = encode .df32 flt .nearest (.dy (a.add b)) := by
  unfold twoSum
  dsimp only
  split
  · rfl
  · split <;> rfl

section
variable {flt : Bool} {a b : Dy} {r : Res} (hr : r = encode .df32 flt .nearest (.dy (a.add b)))
include hr

theorem twoSum_snd_ovf (h : r.ovf = true) : (twoSum flt (.dy a) (.dy b)).2 = 0 := by
  subst hr
  unfold twoSum
  exact congrArg Prod.snd (if_pos h)

theorem twoSum_snd {g : Dy} (h : r.ovf = false) (hg : decode .df32 r.code = .dy g) :
    (twoSum flt (.dy a) (.dy b)).2 = (encode .df32 flt .nearest (.dy ((a.add b).sub g))).code := by
  subst hr
  unfold twoSum
  have h' : (fin .df32 flt (a.add b)).ovf = false := h
  have hg' : decode .df32 (fin .df32 flt (a.add b)).code = .dy g := hg
  simp only [h', hg', Bool.false_eq_true, if_false]
  rfl

end

/-- Where R46's condition holds, FTWOSUM gives what TWOSUM gives. -/
theorem pairSum_eq {fast : Bool} (flt : Bool) {a b : Dy} (h : fast = false ∨ b.abs.le a.abs = true ∨ a.isZero = true) :
    pairSum fast flt (.dy a) (.dy b) = ((twoSum flt (.dy a) (.dy b)).1.code, (twoSum flt (.dy a) (.dy b)).2) := by
  refine if_neg ?_
  rcases h with h | h | h <;> simp [h]

/-! ## The clauses -/

section
variable {s : State} {o : AbOp} {i : Issue} {x : Site} (sl : SlotAB) (h : s.runsAb o i x)
include h

theorem compare_lands {j : Nat} (hc : o.isCmp = true) (hj : j = i.word.format.lane / 8) : ∃ t, exec (o.instr sl i) s = .next t ∧
      ∃ l, s.landed t i.anvil [l] ∧ l.at_ = (s.anvil i.anvil).cyc + 2 ∧ l.toQ = true ∧ l.r = i.word.dst.toNat ∧
        ∀ e < 2048 / i.word.format.lane, laneOf j l.mask e = (if s.passes i i.word.format.lane e then 2 ^ j - 1 else 0) ∧
          laneOf j l.val e = (match s.argA o i x e, s.argB i x e with
            | .dy a, .dy b => if (if o = .cmplt then a.lt b else a.eq b) = true then 2 ^ j - 1 else 0
            | _, _ => 0) := by
  have hlat : o.latency = 2 := by
    cases o with
    | cmplt | cmpeq => rfl
    | _ => cases hc
  have hfit : j * (2048 / i.word.format.lane) ≤ 2048 := by
    rw [hj]
    exact (Nat.mul_le_mul_right _ (Nat.div_le_self _ 8)).trans (lane_mul_le _)
  refine ⟨_, exec_ab_runs sl h, _, s.landed_setAnvil _ _ (issueAb_cmp hc), congrArg _ hlat, rfl, rfl, fun e he => ?_⟩
  subst hj
  refine ⟨laneOf_laneMask hfit _ he, (laneOf_laneMask hfit _ he).trans ?_⟩
  rw [holds_eq_match hc]
  cases s.argA o i x e <;> cases s.argB i x e <;> rfl

theorem pair_lands (hp : o.isPair = true) : ∃ t, exec (o.instr sl i) s = .next t ∧
    ∃ h, ∃ l, s.landed t i.anvil [h, l] ∧ h.at_ = (s.anvil i.anvil).cyc + (if o = .twosum then 3 else 2) ∧ l.at_ = h.at_ ∧
      h.toQ = false ∧ l.toQ = false ∧ h.r = i.word.dst.toNat ∧ l.r = i.word.dst.toNat + 1 ∧ h.mask = l.mask ∧
      ∀ e < 64, laneOf 32 h.mask e = (if s.passes i 32 e then 2 ^ 32 - 1 else 0) ∧
        ∀ a, s.argA o i x e = .dy a → ∀ b, s.argB i x e = .dy b → o = .twosum ∨ b.abs.le a.abs = true ∨ a.isZero = true →
          ∀ r, r = Num.encode .df32 i.word.flt .nearest (.dy (a.add b)) →
            laneOf 32 h.val e = r.code % 2 ^ 32 ∧ (r.ovf = true → laneOf 32 l.val e = 0) ∧
            (r.ovf = false → ∀ g, Num.decode .df32 r.code = .dy g →
              laneOf 32 l.val e = (Num.encode .df32 i.word.flt .nearest (.dy ((a.add b).sub g))).code % 2 ^ 32) := by
  have hlat : o.latency = if o = .twosum then 3 else 2 := by cases o <;> rfl
  have hf := AbOp.format_of_legal_pair h.2.1 hp
  have hfit : 32 * 64 ≤ 2048 := by decide
  refine ⟨_, exec_ab_runs sl h, ⟨(s.anvil i.anvil).cyc + o.latency, false, i.word.dst.toNat, laneMask 32 64 (s.passes i 32),
    s.pairLanes o i x Prod.fst⟩, ⟨(s.anvil i.anvil).cyc + o.latency, false, i.word.dst.toNat + 1, laneMask 32 64 (s.passes i 32),
    s.pairLanes o i x Prod.snd⟩, s.landed_setAnvil _ _ ?_, congrArg _ hlat, rfl, rfl, rfl, rfl, rfl, rfl, fun e he =>
    ⟨laneOf_laneMask hfit _ he, fun a ha b hb hcond r hr => ?_⟩⟩
  · rw [issueAb_pair hp hf]
    simp only [Anvil.result, List.append_assoc, List.cons_append, List.nil_append]
  · have hfast : (o == .ftwosum) = false ∨ b.abs.le a.abs = true ∨ a.isZero = true := hcond.imp_left (by rintro rfl; rfl)
    have hlane (part : Nat × Nat → Nat) : laneOf 32 (s.pairLanes o i x part) e =
        part ((twoSum i.word.flt (.dy a) (.dy b)).1.code, (twoSum i.word.flt (.dy a) (.dy b)).2) % 2 ^ 32 := by
      rw [State.pairLanes, laneOf_lanes hfit _ he, ha, hb, pairSum_eq _ hfast]
    refine ⟨?_, fun hovf => ?_, fun hovf g hg => ?_⟩
    · rw [hlane, twoSum_fst, hr]
    · rw [hlane, twoSum_snd_ovf hr hovf]; rfl
    · rw [hlane, twoSum_snd hr hovf hg]

end

/-- Settles O49: each answer, and each part of a pair, is a lane of a result on its way. -/
theorem comparesAndPairs : Obligations.ComparesAndPairs := by
  unfold Obligations.ComparesAndPairs
  exact ⟨fun _ sl _ _ _ _ h hc hj => compare_lands sl h hc hj, fun _ sl _ _ _ h hp => pair_lands sl h hp⟩

end Sys2Proof.Machine
end

section
/-!
PROOF of O51, its part on CVT, RND and the slots that wait: how slot D words issue, and the lanes that they fill.
-/

namespace Sys2Proof.Machine

open Sys2Proof.Num

/-! ## Issue of slot D (R55, R62, R75) -/

theorem exec_d_runs {s : State} {o : DOp} {i : Issue} {x : Site} (h : s.issuesAt i x) (hl : o.legal i.word = true)
    (hf : x.fits (o.fits i.word) = true) (ht : o.bodyOnly i.word = true → x.target.isSome = true)
    (hw : s.streamWaits i.anvil o i.word x = false) : exec (o.instr i) s = .next (s.issueD i.anvil o i.word x) := by
  have hb : (!o.bodyOnly i.word || x.target.isSome) = true := by
    cases hc : o.bodyOnly i.word
    · rfl
    · simp [ht hc]
  rw [exec_d, State.issueDIn, h.2.2.2]
  simp only [h.mayIssue, hl, hf, hb, hw, Bool.not_false, Bool.and_true, if_true]

/-- With its prefetch empty, or its write-behind full, a slot does nothing. -/
theorem exec_d_waits {s : State} {o : DOp} {i : Issue} {x : Site} (h : s.slotSite i.anvil i.ctx = some x)
    (hw : s.streamWaits i.anvil o i.word x = true) : exec (o.instr i) s = .next s := by
  rw [exec_d, State.issueDIn, h]
  simp only [hw, Bool.not_true, Bool.and_false, Bool.false_eq_true, if_false]

theorem exec_end (i : Issue) (s : State) : exec (.end_ i) s = .next s := by
  change Host.Outcome.next (s.issueDIn i.anvil i.ctx .end_ i.word) = _
  unfold State.issueDIn
  split
  · split <;> rfl
  · rfl

/-! ## CVT and RND (R39, R55, R68, R74) -/

section
variable {s : State} {i : Issue} {x : Site} (h : s.issuesAt i x)

/-- As many elements as CVT takes fit into a register in either format. -/
theorem cvt_lanes_le (hf : x.fits (DOp.cvt.fits i.word) = true) :
    i.word.dstFmt.lane * (match x.width with | some k => 2048 / k | none => cvtElems i.word) ≤ 2048 := by
  cases hx : x.width with
  | none => exact (Nat.mul_le_mul_right _ (le_max_right _ _)).trans (lane_mul_le _)
  | some k =>
    simp only [Site.fits, hx, DOp.fits, Bool.and_eq_true, decide_eq_true_eq] at hf
    exact (Nat.mul_le_mul_right _ hf.2).trans (lane_mul_le k)

include h

theorem cvt_lands {n : Nat} {r : Nat → Rnd} (hl : DOp.cvt.legal i.word = true)
    (hf : x.fits (DOp.cvt.fits i.word) = true) (hn : n = (match x.width with | some k => 2048 / k | none => cvtElems i.word))
    (hr : i.word.top = false ∧ (∀ e, r e = .nearest) ∨ (∃ g, i.word.top = true ∧ x.target = some g ∧ ∀ e, r e =
      if i.word.dstFmt.width < i.word.srcFmt.width then .stoch (rnBits i.word.cvtRn) (Gen.bits g.run.seed (rnBits i.word.cvtRn)
        (g.e.index (g.lo + e)) g.e.rstream (g.run.drawBase + BitVec.ofNat 32 (1024 + x.bundle))) else .nearest)) :
    ∃ t, exec (.cvt i) s = .next t ∧
      s.lanesLand t i.anvil 2 i.word.dst.toNat i.word.dstFmt.lane n (fun _ => true) fun e =>
        toLane i.word.dstFmt (encode i.word.dstFmt (i.word.mod.getLsbD 0) (r e)
          ((s.anvil i.anvil).elem i.word.srcFmt i.word.srcA e)).code := by
  have ht : DOp.cvt.bodyOnly i.word = true → x.target.isSome = true := fun hb => by
    rcases hr with ⟨h0, -⟩ | ⟨g, -, hg, -⟩
    · exact absurd (hb.symm.trans h0) (by decide)
    · rw [hg]; rfl
  have hrnd (e : Nat) : r e = match i.word.top, x.target with
      | true, some t => (Rnd.stoch (rnBits i.word.cvtRn) (t.run.bits t.e (rnBits i.word.cvtRn) (t.e.index (t.lo + e))
          (1024 + x.bundle))).into i.word.srcFmt i.word.dstFmt
      | _, _ => Rnd.nearest := by
    rcases hr with ⟨h0, hr⟩ | ⟨g, h1, hg, hr⟩
    · rw [hr, h0]
    · rw [hr, h1, hg]
      rfl
  have hissue : s.issueD i.anvil .cvt i.word x = s.setAnvil i.anvil ((s.anvil i.anvil).result 2 false i.word.dst.toNat
      (laneMask i.word.dstFmt.lane n fun _ => true) (lanes i.word.dstFmt.lane n fun e => toLane i.word.dstFmt
        (encode i.word.dstFmt (i.word.mod.getLsbD 0) (r e) ((s.anvil i.anvil).elem i.word.srcFmt i.word.srcA e)).code)) := by
    simp only [hrnd, hn]
    rfl
  refine ⟨_, exec_d_runs h hl hf ht rfl, ?_⟩
  rw [hissue]
  exact s.lanesLand_result i.anvil 2 i.word.dst.toNat _ _ (hn ▸ cvt_lanes_le hf)

theorem rnd_lands {g : Target} {n k : Nat} (hg : x.target = some g) (hl : DOp.rnd.legal i.word = true)
    (hf : x.fits (DOp.rnd.fits i.word) = true) (hk : x.width = some k) (hn : n = 2048 / k) :
    ∃ t, exec (.rnd i) s = .next t ∧
      s.lanesLand t i.anvil 1 i.word.dst.toNat i.word.format.lane n (fun _ => true) fun e =>
        Gen.bits g.run.seed i.word.format.lane (g.e.index (g.lo + e)) g.e.rstream
          (g.run.drawBase + BitVec.ofNat 32 (32 * i.word.srcA.toNat + i.word.srcB.toNat)) := by
  subst hn
  have hle : i.word.format.lane * (2048 / k) ≤ 2048 := by
    simp only [Site.fits, hk, DOp.fits, decide_eq_true_eq] at hf
    exact (Nat.mul_le_mul_right _ hf).trans (lane_mul_le k)
  have hK : i.word.rndK = 32 * i.word.srcA.toNat + i.word.srcB.toNat := by rw [SlotWord.rndK, Nat.mul_comm]
  have hissue : s.issueD i.anvil .rnd i.word x = s.setAnvil i.anvil ((s.anvil i.anvil).issueRnd i.word (2048 / k) g) := by
    simp only [State.issueD, hk, hg]
  refine ⟨_, exec_d_runs h hl hf (fun _ => by rw [hg]; rfl) rfl, ?_⟩
  rw [hissue, ← hK]
  exact s.lanesLand_result i.anvil 1 i.word.dst.toNat _ _ hle

end

end Sys2Proof.Machine
end

section
/-!
PROOF of O51, its part on ASSAY, HIST and MAXACC: what an entry holds of the values it has measured.
-/

namespace Sys2Proof.Machine

open Sys2Proof.Num

/-! ## Sums of squares (R71) -/

theorem addSsq_of_lt {a b : Nat} (h : a + b < 2 ^ 128) : addSsq a b = (a + b, false) := if_neg (by omega)

/-- A sum that stays below 2^128 takes every square. -/
theorem foldl_addSsq (asc : Nat) (vs : List Val) (a : Nat) (h : a + (vs.map (squareUnits asc)).sum < 2 ^ 128) :
    vs.foldl (fun (a : Nat × Bool) v =>
      let x := addSsq a.1 (squareUnits asc v)
      (x.1, a.2 || x.2)) (a, false) = (a + (vs.map (squareUnits asc)).sum, false) := by
  induction vs generalizing a with
  | nil => rfl
  | cons v vs ih =>
    rw [List.map_cons, List.sum_cons] at h ⊢
    simp only [List.foldl_cons, addSsq_of_lt (show a + squareUnits asc v < 2 ^ 128 by omega), Bool.or_false]
    rw [ih _ (by omega), Nat.add_assoc]

theorem sat32_fst (v n : Nat) : (sat32 v n).1 = Nat.min (v + n) (2 ^ 32 - 1) := by
  unfold sat32
  split
  · exact (Nat.min_eq_right (by omega)).symm
  · exact (Nat.min_eq_left (by omega)).symm

theorem sat32_of_lt {v n : Nat} (h : v + n < 2 ^ 32) : sat32 v n = (v + n, false) := if_neg (by omega)

theorem Entry.assay_eq {e : Entry} {kind q : Nat} {vs : List Val}
    (hq : q = Tab.get (fun _ => 0) e.ssq kind + (vs.map (squareUnits e.asc)).sum) (h : q < 2 ^ 128) :
    e.assay kind vs = ({ e with
      ssq := Tab.set (fun _ => 0) e.ssq kind q
      faultLanes := Nat.min (e.faultLanes + (vs.filter (· == .fault)).length) (2 ^ 32 - 1) }, false) := by
  subst hq
  simp only [Entry.assay, foldl_addSsq _ _ _ h, sat32_fst, faults, Bool.false_eq_true, if_false]

theorem get_set_ssq (t : Tab Nat) (k q j : Nat) :
    Tab.get (fun _ => 0) (Tab.set (fun _ => 0) t k q) j = if j = k then q else Tab.get (fun _ => 0) t j := by
  split
  case isTrue h => rw [h, Tab.get_set_same]
  case isFalse h => exact Tab.get_set_other _ _ _ _ _ h

/-! ## Histograms (R72) -/

/-- Bins that stay below 2^32 count every value. -/
theorem foldl_count (bin : Val → Nat) (vs : List Val) (t : Tab Nat) (h : ∀ j, Tab.get (fun _ => 0) t j + vs.length < 2 ^ 32) :
    ∃ u, vs.foldl (fun (a : Tab Nat × Bool) v =>
        let i := bin v
        let c := sat32 (Tab.get (fun _ => 0) a.1 i) 1
        (Tab.set (fun _ => 0) a.1 i c.1, a.2 || c.2)) (t, false) = (u, false) ∧
      ∀ j, Tab.get (fun _ => 0) u j = Tab.get (fun _ => 0) t j + (vs.filter fun v => bin v == j).length := by
  induction vs generalizing t with
  | nil => exact ⟨t, rfl, fun _ => rfl⟩
  | cons v vs ih =>
    simp only [List.length_cons] at h
    have hstep (j : Nat) : Tab.get (fun _ => 0) (Tab.set (fun _ => 0) t (bin v) (Tab.get (fun _ => 0) t (bin v) + 1)) j =
        Tab.get (fun _ => 0) t j + if bin v = j then 1 else 0 := by
      rw [get_set_ssq]
      split <;> simp_all [eq_comm]
    obtain ⟨u, hu, hget⟩ := ih (Tab.set (fun _ => 0) t (bin v) (Tab.get (fun _ => 0) t (bin v) + 1)) fun j => by
      have := h j
      rw [hstep]
      split <;> omega
    refine ⟨u, ?_, fun j => ?_⟩
    · have hv := h (bin v)
      simp only [List.foldl_cons, sat32_of_lt (show Tab.get (fun _ => 0) t (bin v) + 1 < 2 ^ 32 by omega), Bool.or_false]
      exact hu
    · rw [hget, hstep, List.filter_cons]
      by_cases hb : bin v = j
      · simp [hb, Nat.add_assoc, Nat.add_comm 1]
      · simp [hb]

theorem Entry.count_eq {e : Entry} (set : Nat) {vs : List Val} (h : ∀ j, Tab.get (fun _ => 0) e.hist j + vs.length < 2 ^ 32) :
    ∃ u, e.count set vs = ({ e with hist := u }, false) ∧ ∀ j, Tab.get (fun _ => 0) u j =
      Tab.get (fun _ => 0) e.hist j + (vs.filter fun v => 64 * set + histBin e.hb v == j).length := by
  obtain ⟨u, hu, hget⟩ := foldl_count (fun v => 64 * set + histBin e.hb v) vs e.hist h
  refine ⟨u, ?_, hget⟩
  simp only [Entry.count, hu]

/-! ## Capture sets (R43, R73) -/

theorem Entry.capture_eq {e : Entry} {set novf : Nat} {vs : List Val} {c : Capture}
    (hc : c = Tab.get (fun _ => .zero) e.caps set) (hf : c.nFault + (vs.filter (· == .fault)).length < 2 ^ 32)
    (ho : c.nOvf + novf < 2 ^ 32) : e.capture set vs novf = ({ e with
      caps := Tab.set (fun _ => .zero) e.caps set ⟨vs.foldl raiseMax c.maxAbs, c.nFault + (vs.filter (· == .fault)).length,
        c.nOvf + novf⟩ }, false) := by
  subst hc
  simp only [Entry.capture, faults, sat32_of_lt hf, sat32_of_lt ho, Bool.or_false]

/-! ## The clauses -/

theorem State.satFlag_false (s : State) (f : Fld) : s.satFlag f false = s := rfl

section
variable {s : State} {i : Issue} {x : Site} {g : Target} (h : s.issuesAt i x) (hg : x.target = some g)
include h hg

/-- A measurement issues for the values of its active lanes. -/
theorem exec_measure {o : DOp} (ho : o = .assay ∨ o = .hist ∨ o = .maxacc) (hl : o.legal i.word = true)
    (hf : x.fits (o.fits i.word) = true) : exec (o.instr i) s = .next (s.issueMeasure i.anvil o i.word g) ∧
      i.word.mod.toNat % 4 = i.word.mod.toNat := by
  have hmod : i.word.mod.toNat < 4 := by
    rcases ho with rfl | rfl | rfl <;> simp [DOp.legal] at hl <;> omega
  have hbody : o.bodyOnly i.word = false := by rcases ho with rfl | rfl | rfl <;> rfl
  have hwait : s.streamWaits i.anvil o i.word x = false := by rcases ho with rfl | rfl | rfl <;> rfl
  have hissue : s.issueD i.anvil o i.word x = s.issueMeasure i.anvil o i.word g := by
    unfold State.issueD
    rw [hg]
    rcases ho with rfl | rfl | rfl <;> rfl
  exact ⟨hissue ▸ exec_d_runs h hl hf (fun hb => absurd (hb.symm.trans hbody) (by decide)) hwait, Nat.mod_eq_of_lt hmod⟩

theorem assay_sums {k q : Nat} {vs : List Val} (hl : DOp.assay.legal i.word = true) (hf : x.fits (DOp.assay.fits i.word) = true)
    (hk : k = i.word.mod.toNat) (hvs : vs = ((List.range g.act).map fun p => (s.anvil i.anvil).elem i.word.format i.word.srcA p))
    (hq : q = Tab.get (fun _ => 0) g.e.ssq k + (vs.map (squareUnits g.e.asc)).sum) (hlt : q < 2 ^ 128) :
    ∃ t, exec (.assay i) s = .next t ∧ ∃ e, s.entryNow t g e ∧
      e = { g.e with
        ssq := e.ssq
        faultLanes := Nat.min (g.e.faultLanes + (vs.filter (· == .fault)).length) (2 ^ 32 - 1) } ∧
      ∀ j, Tab.get (fun _ => 0) e.ssq j = if j = k then q else Tab.get (fun _ => 0) g.e.ssq j := by
  obtain ⟨hex, hmod⟩ := exec_measure h hg (o := .assay) (.inl rfl) hl hf
  rw [← hk] at hmod
  refine ⟨_, hex, { g.e with
    ssq := Tab.set (fun _ => 0) g.e.ssq k q
    faultLanes := Nat.min (g.e.faultLanes + (vs.filter (· == .fault)).length) (2 ^ 32 - 1) }, ?_, rfl, get_set_ssq _ _ _⟩
  have hvals : (s.anvil i.anvil).values i.word.format i.word.srcA.toNat g.act = vs := hvs.symm
  simp only [State.entryNow, State.issueMeasure, hvals, ← hk, hmod, Entry.assay_eq hq hlt, State.satFlag_false]

theorem hist_counts {vs : List Val} (hl : DOp.hist.legal i.word = true) (hf : x.fits (DOp.hist.fits i.word) = true)
    (hvs : vs = ((List.range g.act).map fun p => (s.anvil i.anvil).elem i.word.format i.word.srcA p))
    (hlt : ∀ j, Tab.get (fun _ => 0) g.e.hist j + vs.length < 2 ^ 32) : ∃ t, exec (.hist i) s = .next t ∧ ∃ e, s.entryNow t g e ∧
      e = { g.e with hist := e.hist } ∧ ∀ j, Tab.get (fun _ => 0) e.hist j = Tab.get (fun _ => 0) g.e.hist j +
        (vs.filter fun v => 64 * i.word.mod.toNat + histBin g.e.hb v == j).length := by
  obtain ⟨hex, hmod⟩ := exec_measure h hg (o := .hist) (.inr (.inl rfl)) hl hf
  obtain ⟨u, hu, hget⟩ := Entry.count_eq i.word.mod.toNat hlt
  have hvals : (s.anvil i.anvil).values i.word.format i.word.srcA.toNat g.act = vs := hvs.symm
  refine ⟨_, hex, { g.e with hist := u }, ?_, rfl, hget⟩
  simp only [State.entryNow, State.issueMeasure, hvals, hmod, hu, State.satFlag_false]

theorem maxacc_captures {k : Nat} {vs : List Val} {c : Capture} (hl : DOp.maxacc.legal i.word = true)
    (hf : x.fits (DOp.maxacc.fits i.word) = true) (hk : k = i.word.mod.toNat)
    (hvs : vs = ((List.range g.act).map fun p => (s.anvil i.anvil).elem i.word.format i.word.srcA p))
    (hc : c = Tab.get (fun _ => .zero) g.e.caps k) (hnf : c.nFault + vs.length < 2 ^ 32) (hno : c.nOvf + vs.length < 2 ^ 32) :
    ∃ t, exec (.maxacc i) s = .next t ∧ ∃ e, s.entryNow t g e ∧ e = { g.e with caps := e.caps } ∧
      (∀ j, j ≠ k → Tab.get (fun _ => .zero) e.caps j = Tab.get (fun _ => .zero) g.e.caps j) ∧
      Tab.get (fun _ => .zero) e.caps k = ⟨vs.foldl raiseMax c.maxAbs, c.nFault + (vs.filter (· == .fault)).length,
        c.nOvf + (vs.filter fun v => (encode i.word.dstFmt false .nearest v).ovf).length⟩ := by
  obtain ⟨hex, hmod⟩ := exec_measure h hg (o := .maxacc) (.inr (.inr rfl)) hl hf
  rw [← hk] at hmod
  have hvals : (s.anvil i.anvil).values i.word.format i.word.srcA.toNat g.act = vs := hvs.symm
  have hcap := Entry.capture_eq (vs := vs) hc ((Nat.add_le_add_left (List.length_filter_le _ _) _).trans_lt hnf)
    ((Nat.add_le_add_left (List.length_filter_le (fun v => (encode i.word.dstFmt false .nearest v).ovf) vs) _).trans_lt hno)
  refine ⟨_, hex, (g.e.capture k vs (vs.filter fun v => (encode i.word.dstFmt false .nearest v).ovf).length).1, ?_, ?_, fun j hj => ?_, ?_⟩
  · simp only [State.entryNow, State.issueMeasure, hvals, ← hk, hmod, hcap, State.satFlag_false]
  · rw [hcap]
  · rw [hcap]
    exact Tab.get_set_other _ _ _ _ _ hj
  · rw [hcap]
    exact Tab.get_set_same _ _ _ _

end

end Sys2Proof.Machine
end

section
/-!
PROOF of O51, its part on ST: what the write-behind passes on, and what the entry then holds.
-/

namespace Sys2Proof.Machine

open Sys2Proof.Num

/-! ## The iteration a slot works for (R53, R55) -/

theorem Run.target_entry {r : Run} {n k : Nat} {iters : List Iter} {g : Target} (h : r.target n iters k = some g) :
    g.run = r ∧ r.entries[g.k]? = some g.e := by
  unfold Run.target at h
  split at h
  · split at h
    case h_1 he =>
      cases h
      exact ⟨rfl, he⟩
    case h_2 => cases h
  · cases h

theorem State.slotSite_target {s : State} {a : Nat} {ctx : SlotCtx} {x : Site} {g : Target} (h : s.slotSite a ctx = some x)
    (hg : x.target = some g) : ∃ w, (s.anvil a).work = some w ∧ s.runOf w.drawer w.pos = some g.run ∧ g.run.entries[g.k]? = some g.e := by
  unfold State.slotSite at h
  split at h
  case h_1 =>
    split at h <;> cases h
    cases hg
  case h_2 w hw =>
    split at h
    case h_1 => cases h
    case h_2 r hr =>
      split at h
      case h_1 => cases h
      case h_2 =>
        split at h
        case h_1 => cases h; cases hg
        case h_2 => cases h; cases hg
        case h_3 =>
          split at h
          · cases h
          · obtain ⟨t, ht, rfl⟩ := Option.map_eq_some_iff.mp h
            cases hg
            obtain ⟨hrun, he⟩ := Run.target_entry ht
            exact ⟨w, hw, hrun ▸ hr, hrun ▸ he⟩

/-! ## Runs after one has been replaced -/

section
variable {s : State} {d pos : Nat} {r r' : Run}

theorem State.runOf_key (h : s.runOf d pos = some r) : r.drawer = d ∧ r.pos = pos := by
  simpa using List.find?_some h

theorem State.runOf_setRun (h : s.runOf d pos = some r) (hd : r'.drawer = r.drawer) (hp : r'.pos = r.pos) :
    (s.setRun r').runOf d pos = some r' := by
  obtain ⟨rfl, rfl⟩ := State.runOf_key h
  unfold State.runOf State.setRun at *
  dsimp only
  rw [hd, hp]
  generalize s.anv.runs = rs at h
  induction rs with
  | nil => simp at h
  | cons y rs ih =>
    rw [List.map_cons, List.find?_cons]
    by_cases hy : y.drawer = r.drawer ∧ y.pos = r.pos
    · simp [hy, hd, hp]
    · have hy' : (y.drawer == r.drawer && y.pos == r.pos) = false := by simpa using hy
      rw [List.find?_cons, hy'] at h
      rw [if_neg hy, hy']
      exact ih h

/-- The run written last stands. -/
theorem State.setRun_setRun (hd : r'.drawer = r.drawer) (hp : r'.pos = r.pos) : (s.setRun r).setRun r' = s.setRun r' := by
  unfold State.setRun
  dsimp only
  rw [List.map_map]
  congr 2
  refine List.map_congr_left fun y _ => ?_
  rw [Function.comp_apply, hd, hp]
  split <;> simp_all

end

/-! ## Stored values (R60, R70) -/

section
variable (e : Entry) (n lo : Nat) (vs : List Val)

/-- The tables of the other streams stand. -/
theorem Entry.store_other {m : Nat} (h : m ≠ n) : ((e.store n lo vs).stored.find? fun y => y.1 == m) = e.stored.find? fun y => y.1 == m := by
  have hm : (n == m) = false := by simpa using h.symm
  rw [Entry.store]
  dsimp only
  rw [List.find?_cons, hm]
  dsimp only
  rw [List.find?_filter]
  refine List.find?_congr fun y _ => ?_
  by_cases hy : y.1 = m
  · simp [hy, h]
  · simp [hy]

theorem get_foldl_insert_other {ix : Nat → Nat} {j k : Nat} (t : Tab Val) (h : ∀ q < vs.length, ix (k + q) ≠ j) :
    Tab.get (fun _ => .fault) ((vs.zipIdx k).foldl (fun t v => Tab.insert t (ix v.2) v.1) t) j = Tab.get (fun _ => .fault) t j := by
  induction vs generalizing k t with
  | nil => rfl
  | cons v vs ih =>
    rw [List.zipIdx_cons, List.foldl_cons, ih]
    · exact Tab.get_insert_other _ _ _ _ _ (h 0 (Nat.succ_pos _)).symm
    · intro q hq
      have := h (q + 1) (Nat.succ_lt_succ hq)
      rwa [Nat.add_assoc, Nat.add_comm 1]

theorem get_foldl_insert {ix : Nat → Nat} {p k : Nat} (t : Tab Val) (hp : p < vs.length)
    (h : ∀ q < vs.length, ix (k + p) = ix (k + q) → p = q) :
    Tab.get (fun _ => .fault) ((vs.zipIdx k).foldl (fun t v => Tab.insert t (ix v.2) v.1) t) (ix (k + p)) = vs.getD p .fault := by
  induction vs generalizing k t p with
  | nil => simp at hp
  | cons v vs ih =>
    rw [List.zipIdx_cons, List.foldl_cons]
    cases p with
    | zero =>
      rw [get_foldl_insert_other]
      · exact Tab.get_insert_same _ _ _ _
      · intro q hq he
        have := h (q + 1) (Nat.succ_lt_succ hq) (he.symm.trans (congrArg ix (by omega)))
        omega
    | succ p =>
      rw [show k + (p + 1) = k + 1 + p by omega, List.getD_cons_succ]
      refine ih _ (Nat.lt_of_succ_lt_succ hp) fun q hq he => ?_
      have := h (q + 1) (Nat.succ_lt_succ hq) (by rwa [show k + (p + 1) = k + 1 + p by omega, show k + (q + 1) = k + 1 + q by omega])
      omega

theorem Entry.store_get {c : Tab Val} (hc : ((e.store n lo vs).stored.find? fun y => y.1 == n) = some (n, c)) {p : Nat}
    (hp : p < vs.length) (h : ∀ q < vs.length, e.index (lo + p) = e.index (lo + q) → p = q) :
    Tab.get (fun _ => .fault) c (e.index (lo + p)) = vs.getD p .fault := by
  rw [Entry.store, List.find?_cons, beq_self_eq_true] at hc
  cases hc
  have := get_foldl_insert vs (ix := fun q => e.index (lo + q)) (k := 0) ((e.stored.find? fun x => x.1 == n).getD (n, [])).2 hp
    (by simpa using h)
  simpa using this

end

/-! ## Write-behind (R62) -/

theorem State.drainOut_single {s : State} {a m : Nat} {w : Work} {b : Behind} {r : Run} {e : Entry} {tl : Tile}
    (hw : (s.anvil a).work = some w) (hb : (s.anvil a).behind = [b]) (hr : s.runOf w.drawer w.pos = some r)
    (he : r.entries[b.k]? = some e) (ho : (e.outs.find? fun o => o.1 == b.stream) = some (m, tl)) :
    s.drainOut a = if s.groupGoes tl b.lo b.vals.length then
      (s.setAnvil a { s.anvil a with behind := [] }).setEntry r b.k (e.store b.stream b.lo b.vals) else s := by
  have hfirst : ([b].find? fun h => h.stream == b.stream) = some b := by simp
  unfold State.drainOut
  simp only [hw, hb, List.foldl_cons, List.foldl_nil, hr, he, ho, hfirst, true_and, List.erase_cons_head]

/-! ## The entry after an ST (R70, R71) -/

/-- An entry after the emit tap of an ST, where it names it. -/
def Entry.emitTap (e : Entry) (w : SlotWord) (lo : Nat) (vs : List Val) : Entry :=
  if w.mod.getLsbD 1 && e.emit.isSome then e.store 4 lo vs else e

/-- An entry after both taps that an ST may name. -/
def Entry.tapped (e : Entry) (w : SlotWord) (lo : Nat) (vs : List Val) : Entry :=
  if w.mod.getLsbD 0 then ((e.emitTap w lo vs).assay 0 vs).1 else e.emitTap w lo vs

/-- An entry after an ST whose group goes at once, or waits. -/
def Entry.afterSt (e : Entry) (w : SlotWord) (lo : Nat) (vs : List Val) (goes : Bool) : Entry :=
  if goes then (e.tapped w lo vs).store w.dst.toNat lo vs else e.tapped w lo vs

section
variable {e : Entry} {w : SlotWord} (lo : Nat) {vs : List Val}

theorem Entry.emitTap_eq : e.emitTap w lo vs = { e with stored := (e.emitTap w lo vs).stored } := by
  unfold Entry.emitTap
  split <;> rfl

variable {q : Nat} (hq : q = Tab.get (fun _ => 0) e.ssq 0 + (vs.map (squareUnits e.asc)).sum)
include hq

theorem Entry.emitTap_assay (hlt : q < 2 ^ 128) : (e.emitTap w lo vs).assay 0 vs = ({ e with
    stored := (e.emitTap w lo vs).stored
    ssq := Tab.set (fun _ => 0) e.ssq 0 q
    faultLanes := Nat.min (e.faultLanes + (vs.filter (· == .fault)).length) (2 ^ 32 - 1) }, false) := by
  have he := Entry.emitTap_eq (e := e) (w := w) lo (vs := vs)
  have hq' : q = Tab.get (fun _ => 0) (e.emitTap w lo vs).ssq 0 + (vs.map (squareUnits (e.emitTap w lo vs).asc)).sum := by
    rw [he]
    exact hq
  rw [Entry.assay_eq hq' hlt, he]

variable (hlt : w.mod.getLsbD 0 = false ∨ q < 2 ^ 128)
include hlt

/-- The taps, and that no sum saturates. -/
theorem Entry.tapped_eq : e.tapped w lo vs = { e with
    stored := (e.emitTap w lo vs).stored
    ssq := if w.mod.getLsbD 0 then Tab.set (fun _ => 0) e.ssq 0 q else e.ssq
    faultLanes := if w.mod.getLsbD 0 then Nat.min (e.faultLanes + (vs.filter (· == .fault)).length) (2 ^ 32 - 1)
      else e.faultLanes } ∧
    (if w.mod.getLsbD 0 then (e.emitTap w lo vs).assay 0 vs else (e.emitTap w lo vs, false)) = (e.tapped w lo vs, false) := by
  unfold Entry.tapped
  cases hm : w.mod.getLsbD 0
  case false => exact ⟨Entry.emitTap_eq lo, rfl⟩
  case true =>
    have h := Entry.emitTap_assay (w := w) lo hq (hlt.resolve_left (by simp [hm]))
    simp only [if_true, h, and_self]

theorem Entry.afterSt_eq (goes : Bool) : e.afterSt w lo vs goes = { e with
    stored := (e.afterSt w lo vs goes).stored
    ssq := (e.afterSt w lo vs goes).ssq
    faultLanes := if w.mod.getLsbD 0 then Nat.min (e.faultLanes + (vs.filter (· == .fault)).length) (2 ^ 32 - 1)
      else e.faultLanes } := by
  rw [Entry.afterSt, (Entry.tapped_eq lo hq hlt).1]
  cases goes <;> rfl

theorem Entry.afterSt_ssq (goes : Bool) (j : Nat) : Tab.get (fun _ => 0) (e.afterSt w lo vs goes).ssq j =
    if j = 0 ∧ w.mod.getLsbD 0 = true then q else Tab.get (fun _ => 0) e.ssq j := by
  have h : (e.afterSt w lo vs goes).ssq = if w.mod.getLsbD 0 then Tab.set (fun _ => 0) e.ssq 0 q else e.ssq := by
    rw [Entry.afterSt, (Entry.tapped_eq lo hq hlt).1]
    cases goes <;> rfl
  rw [h]
  cases w.mod.getLsbD 0
  · simp
  · simpa using get_set_ssq e.ssq 0 q j

/-- The tables of the other streams stand. -/
theorem Entry.afterSt_other (goes : Bool) {n : Nat} (hn : n ≠ w.dst.toNat) (h4 : n ≠ 4) :
    ((e.afterSt w lo vs goes).stored.find? fun y => y.1 == n) = e.stored.find? fun y => y.1 == n := by
  have ht : ((e.tapped w lo vs).stored.find? fun y => y.1 == n) = e.stored.find? fun y => y.1 == n := by
    rw [(Entry.tapped_eq lo hq hlt).1]
    dsimp only
    unfold Entry.emitTap
    split
    · exact e.store_other 4 lo vs h4
    · rfl
  unfold Entry.afterSt
  split
  · rw [Entry.store_other _ _ _ _ hn, ht]
  · exact ht

/-- The stream's table, once its group has gone, and the emit unit's hold the values by logical index. -/
theorem Entry.afterSt_get {goes : Bool} (hd : w.dst.toNat < 4) {n : Nat} {c : Tab Val}
    (hn : n = w.dst.toNat ∧ goes = true ∨ n = 4 ∧ w.mod.getLsbD 1 = true ∧ e.emit.isSome = true)
    (hc : ((e.afterSt w lo vs goes).stored.find? fun y => y.1 == n) = some (n, c)) {p : Nat} (hp : p < vs.length)
    (h : ∀ q < vs.length, e.index (lo + p) = e.index (lo + q) → p = q) :
    Tab.get (fun _ => .fault) c (e.index (lo + p)) = vs.getD p .fault := by
  rcases hn with ⟨rfl, rfl⟩ | ⟨rfl, h1, he⟩
  · rw [Entry.afterSt, if_pos rfl, (Entry.tapped_eq lo hq hlt).1] at hc
    exact Entry.store_get _ _ _ _ hc hp h
  · have ht : ((e.tapped w lo vs).stored.find? fun y => y.1 == 4) = some (4, c) := by
      rw [← hc]
      unfold Entry.afterSt
      split
      · exact (Entry.store_other _ _ _ _ (by omega)).symm
      · rfl
    rw [(Entry.tapped_eq lo hq hlt).1, Entry.emitTap, h1, he] at ht
    exact Entry.store_get _ _ _ _ ht hp h

end

/-! ## The clause on ST -/

section
variable {s : State} {i : Issue} {x : Site} {g : Target}

theorem exec_st (h : s.issuesAt i x) (hg : x.target = some g) (hl : DOp.st.legal i.word = true)
    (hf : x.fits (DOp.st.fits i.word) = true) (hw : s.streamWaits i.anvil .st i.word x = false) :
    exec (.st i) s = .next (s.issueSt i.anvil i.word g) := by
  have hissue : s.issueD i.anvil .st i.word x = s.issueSt i.anvil i.word g := by
    unfold State.issueD
    rw [hg]
  exact hissue ▸ exec_d_runs h hl hf (fun _ => by rw [hg]; rfl) hw

/-- An ST without PAIRLO gives its values to the write-behind, which passes on what can go. -/
theorem State.issueSt_eq {vs : List Val} {m q : Nat} {tl : Tile} (ht : i.word.top = false)
    (ho : (g.e.outs.find? fun y => y.1 == i.word.dst.toNat) = some (m, tl))
    (hvs : vs = ((List.range g.act).map fun p => (s.anvil i.anvil).elem i.word.format i.word.srcA p))
    (hq : q = Tab.get (fun _ => 0) g.e.ssq 0 + (vs.map (squareUnits g.e.asc)).sum)
    (hlt : i.word.mod.getLsbD 0 = false ∨ q < 2 ^ 128) :
    s.issueSt i.anvil i.word g = ((s.setEntry g.run g.k (g.e.tapped i.word g.lo vs)).setAnvil i.anvil { s.anvil i.anvil with
      behind := (s.anvil i.anvil).behind ++ [⟨i.word.dst.toNat, g.k, g.lo, vs⟩] }).drainOut i.anvil := by
  have hvals : (s.anvil i.anvil).values i.word.format i.word.srcA.toNat g.act = vs := hvs.symm
  have hany : (g.e.outs.any fun o => o.1 == i.word.dst.toNat) = true := by
    rw [List.any_eq_true]
    exact ⟨_, List.mem_of_find?_eq_some ho, List.find?_some (p := fun y : Nat × Tile => y.1 == i.word.dst.toNat) ho⟩
  have htap := (Entry.tapped_eq g.lo hq hlt).2
  rw [Entry.emitTap] at htap
  simp only [State.issueSt, hvals, ht, htap, hany, State.satFlag_false, Bool.false_eq_true, if_false, if_true]

/-- The state after an ST whose stream's write-behind was empty. -/
theorem State.issueSt_state {vs : List Val} {m q : Nat} {tl : Tile} (h : s.issuesAt i x) (hg : x.target = some g)
    (ht : i.word.top = false) (ho : (g.e.outs.find? fun y => y.1 == i.word.dst.toNat) = some (m, tl))
    (hb : (s.anvil i.anvil).behind = [])
    (hvs : vs = ((List.range g.act).map fun p => (s.anvil i.anvil).elem i.word.format i.word.srcA p))
    (hq : q = Tab.get (fun _ => 0) g.e.ssq 0 + (vs.map (squareUnits g.e.asc)).sum)
    (hlt : i.word.mod.getLsbD 0 = false ∨ q < 2 ^ 128) {t : State} (hst : s.issueSt i.anvil i.word g = t) :
    t = { s with anv := t.anv } ∧ (∀ b, b ≠ i.anvil → t.anvil b = s.anvil b) ∧
      t.anvil i.anvil = { s.anvil i.anvil with
        behind := if s.groupGoes tl g.lo g.act then [] else [⟨i.word.dst.toNat, g.k, g.lo, vs⟩] } ∧
      t.anv.kernels = s.anv.kernels ∧
      t.anv.runs = (s.setEntry g.run g.k (g.e.afterSt i.word g.lo vs (s.groupGoes tl g.lo g.act))).anv.runs := by
  obtain ⟨w, hw, hr, he⟩ := State.slotSite_target h.2.2.2 hg
  have htap := (Entry.tapped_eq g.lo hq hlt).1
  have hlen : vs.length = g.act := by rw [hvs, List.length_map, List.length_range]
  rw [State.issueSt_eq ht ho hvs hq hlt, hb, List.nil_append] at hst
  generalize hu : (s.setEntry g.run g.k (g.e.tapped i.word g.lo vs)).setAnvil i.anvil _ = u at hst
  have huA : u.anvil i.anvil = { s.anvil i.anvil with behind := [⟨i.word.dst.toNat, g.k, g.lo, vs⟩] } := by
    rw [← hu, State.anvil_setAnvil_same]
  have huB : ∀ b, b ≠ i.anvil → u.anvil b = s.anvil b := fun b hb => by
    rw [← hu, State.anvil_setAnvil_other _ _ hb]
    rfl
  have huR : u.runOf w.drawer w.pos = some { g.run with entries := g.run.entries.set g.k (g.e.tapped i.word g.lo vs) } := by
    rw [← hu]
    exact State.runOf_setRun hr rfl rfl
  have huE : (g.run.entries.set g.k (g.e.tapped i.word g.lo vs))[g.k]? = some (g.e.tapped i.word g.lo vs) := by
    rw [List.getElem?_set_self (List.getElem?_eq_some_iff.mp he).1]
  have hgo : u.groupGoes tl g.lo vs.length = s.groupGoes tl g.lo g.act := by
    rw [← hu, hlen]
    rfl
  rw [State.drainOut_single (by rw [huA]; exact hw) (by rw [huA]) huR huE (by rw [htap]; exact ho), hgo] at hst
  subst hst
  cases hgoes : s.groupGoes tl g.lo g.act
  case false =>
    refine ⟨?_, huB, huA, ?_, ?_⟩ <;> rw [← hu] <;> rfl
  case true =>
    refine ⟨?_, fun b hb => ?_, ?_, ?_, ?_⟩
    · rw [← hu]; rfl
    · exact (State.anvil_setAnvil_other _ _ hb).trans (huB b hb)
    · rw [huA]
      exact State.anvil_setAnvil_same _ _
    · rw [← hu]; rfl
    · have hset : (g.run.entries.set g.k (g.e.tapped i.word g.lo vs)).set g.k ((g.e.tapped i.word g.lo vs).store i.word.dst.toNat
          g.lo vs) = g.run.entries.set g.k (g.e.afterSt i.word g.lo vs true) := List.set_set ..
      have hrun : (s.setRun { g.run with entries := g.run.entries.set g.k (g.e.tapped i.word g.lo vs) }).setRun
          { g.run with entries := g.run.entries.set g.k (g.e.afterSt i.word g.lo vs true) } =
          s.setEntry g.run g.k (g.e.afterSt i.word g.lo vs true) := State.setRun_setRun rfl rfl
      rw [← hrun, ← hset, ← hu]
      rfl

theorem st_stores {vs : List Val} {m q : Nat} {tl : Tile} (h : s.issuesAt i x) (hg : x.target = some g)
    (hl : DOp.st.legal i.word = true) (hf : x.fits (DOp.st.fits i.word) = true) (ht : i.word.top = false)
    (ho : (g.e.outs.find? fun y => y.1 == i.word.dst.toNat) = some (m, tl)) (hb : (s.anvil i.anvil).behind = [])
    (hw : s.streamWaits i.anvil .st i.word x = false)
    (hvs : vs = ((List.range g.act).map fun p => (s.anvil i.anvil).elem i.word.format i.word.srcA p))
    (hq : q = Tab.get (fun _ => 0) g.e.ssq 0 + (vs.map (squareUnits g.e.asc)).sum)
    (hlt : i.word.mod.getLsbD 0 = false ∨ q < 2 ^ 128) :
    ∃ t, exec (.st i) s = .next t ∧ t = { s with anv := t.anv } ∧ (∀ b, b ≠ i.anvil → t.anvil b = s.anvil b) ∧
      t.anvil i.anvil = { s.anvil i.anvil with
        behind := if s.groupGoes tl g.lo g.act then [] else [⟨i.word.dst.toNat, g.k, g.lo, vs⟩] } ∧
      t.anv.kernels = s.anv.kernels ∧ ∃ e, t.anv.runs = (s.setEntry g.run g.k e).anv.runs ∧
      e = { g.e with
        stored := e.stored
        ssq := e.ssq
        faultLanes := if i.word.mod.getLsbD 0 then Nat.min (g.e.faultLanes + (vs.filter (· == .fault)).length) (2 ^ 32 - 1)
          else g.e.faultLanes } ∧
      (∀ j, Tab.get (fun _ => 0) e.ssq j = if j = 0 ∧ i.word.mod.getLsbD 0 = true then q else Tab.get (fun _ => 0) g.e.ssq j) ∧
      (∀ n, n ≠ i.word.dst.toNat → n ≠ 4 → (e.stored.find? fun y => y.1 == n) = g.e.stored.find? fun y => y.1 == n) ∧
      ∀ n c, n = i.word.dst.toNat ∧ s.groupGoes tl g.lo g.act = true ∨ n = 4 ∧ i.word.mod.getLsbD 1 = true ∧ g.e.emit.isSome = true →
        (e.stored.find? fun y => y.1 == n) = some (n, c) →
        ∀ p < g.act, (∀ q < g.act, g.e.index (g.lo + p) = g.e.index (g.lo + q) → p = q) →
          Tab.get (fun _ => .fault) c (g.e.index (g.lo + p)) = vs.getD p .fault := by
  have hlen : vs.length = g.act := by rw [hvs, List.length_map, List.length_range]
  have hd : i.word.dst.toNat < 4 := by
    simp only [DOp.legal, Bool.and_eq_true, decide_eq_true_eq] at hl
    omega
  obtain ⟨h1, h2, h3, h4, h5⟩ := State.issueSt_state h hg ht ho hb hvs hq hlt rfl
  refine ⟨_, exec_st h hg hl hf hw, h1, h2, h3, h4, _, h5, Entry.afterSt_eq g.lo hq hlt _, Entry.afterSt_ssq g.lo hq hlt _,
    fun n => Entry.afterSt_other g.lo hq hlt _, fun n c hn hc p hp hinj => ?_⟩
  exact Entry.afterSt_get g.lo hq hlt hd hn hc (hlen ▸ hp) (hlen ▸ hinj)

end

end Sys2Proof.Machine
end

section
/-!
SUPPORT. Sectors that the home slices hold: reading them leaves them, the array and the address map as they were.
-/

namespace Sys2Proof.Machine

open Sys2Proof.Num

/-! ## The address map over a change of SB_HITS and MW_IRQ_CAUSE -/

/-- The offsets of the registers that counting a hit may write (R221, R327). -/
def HitRegs (o : Nat) : Prop := o = Reg.offset .SB_HITS 0 ∨ o = Reg.offset .MW_IRQ_CAUSE 0

section
variable {s t : State} (h : RegsBut s t HitRegs)
include h

theorem RegsBut.fld {f : Fld} {i : Nat} (hi : ¬HitRegs (f.reg.offset i)) : t.fld f i = s.fld f i :=
  congrArg (Fld.of f) (h (fun _ => f.reg.resetWord i) _ hi)

theorem RegsBut.tiers : t.tiers = s.tiers := by
  have hbit (k : Nat) : t.bit F.MW_CONFIG_SITES_POPULATED 0 k = s.bit F.MW_CONFIG_SITES_POPULATED 0 k := by
    rw [State.bit, State.bit, h.fld (by unfold HitRegs; decide)]
  have hcap : t.siteCap = s.siteCap := funext fun k => by
    rw [State.siteCap, State.siteCap, hbit, h.fld (by unfold HitRegs; decide)]
  rw [State.tiers, State.tiers, hcap]

end

/-- The tiers so far end where their sizes add up to, no higher than eight sites of their capacity reach. -/
structure TiersBounded (acc : List Tier × Nat × Nat) : Prop where
  sum : (acc.1.map Tier.size).sum = acc.2.1
  le : acc.2.1 ≤ acc.2.2 * 2 ^ 36
  top : acc.2.2 ≤ 15

theorem TiersBounded.step (s : State) {acc : List Tier × Nat × Nat} (h : TiersBounded acc) {c : Nat} (hc : acc.2.2 ≤ c) (h15 : c ≤ 15) :
    TiersBounded (s.tierStep acc c) := by
  obtain ⟨sum, le, -⟩ := h
  refine ⟨?_, ?_, h15⟩
  · simp only [State.tierStep, List.map_append, List.sum_append, sum, List.map_cons, List.map_nil, List.sum_cons, List.sum_nil,
      Nat.add_zero]
  · have hsites : (s.nextTier acc c).sites.length ≤ 8 := List.length_filter_le _ _
    have hsize : (s.nextTier acc c).size ≤ 8 * 65536 * ((c - acc.2.2) * 2 ^ 17) := by
      rw [State.nextTier_size]
      exact Nat.mul_le_mul_right _ (Nat.mul_le_mul_right _ hsites)
    change acc.2.1 + (s.nextTier acc c).size ≤ c * 2 ^ 36
    omega

theorem TiersBounded.foldl (s : State) (cs : List Nat) : ∀ acc : List Tier × Nat × Nat, TiersBounded acc → cs.Pairwise (· < ·) →
    (∀ c ∈ cs, acc.2.2 ≤ c ∧ c ≤ 15) → TiersBounded (cs.foldl s.tierStep acc) := by
  induction cs with
  | nil => exact fun _ h _ _ => h
  | cons c cs ih =>
    intro acc h hs hb
    obtain ⟨hlt, hs⟩ := List.pairwise_cons.mp hs
    obtain ⟨h1, h2⟩ := hb c List.mem_cons_self
    exact ih _ (h.step s h1 h2) hs fun x hx => ⟨(hlt x hx).le, (hb x (List.mem_cons_of_mem _ hx)).2⟩

/-- The tiers end by 960 GiB, so that each granule has a register of its own. -/
theorem State.windowEnd_le (s : State) : s.windowEnd ≤ 15 * 2 ^ 36 := by
  have h : TiersBounded (((List.range 16).filter fun c => c != 0 && (List.range 8).any fun t => s.siteCap t == c).foldl
      s.tierStep ([], 0, 0)) := by
    refine TiersBounded.foldl s _ _ ⟨rfl, Nat.zero_le _, Nat.zero_le _⟩ (List.pairwise_lt_range.filter _) fun c hc => ?_
    have := List.mem_range.mp (List.mem_of_mem_filter hc)
    exact ⟨Nat.zero_le _, by omega⟩
  obtain ⟨sum, le, top⟩ := h
  rw [State.windowEnd, ← List.sum_eq_foldl]
  exact (sum.trans_le le).trans (Nat.mul_le_mul_right _ top)

theorem State.locate_kept {s t : State} (h : RegsBut s t HitRegs) {a : Nat} {l : Loc} (hl : s.locate a = some l) :
    t.locate a = some l := by
  have htiers := h.tiers
  have hend : t.windowEnd = s.windowEnd := by rw [State.windowEnd, State.windowEnd, htiers]
  have hin : ¬s.windowEnd ≤ a := fun hle => by simp [State.locate, hle] at hl
  have hg : t.isMended a = s.isMended a := by
    have hlt := s.windowEnd_le
    have hgran : a / gib < 960 := by unfold gib; omega
    have hne : ¬HitRegs (Reg.offset .RG_GRAN (a / gib)) := by
      simp only [HitRegs, Reg.offset, Reg.base, Reg.stride]
      omega
    rw [State.isMended, State.isMended, State.granClass, State.granClass, h.fld hne]
  have hn : t.mendN = s.mendN := by rw [State.mendN, State.mendN, htiers]
  have hq : t.mendQ = s.mendQ := by rw [State.mendQ, State.mendQ, hn]
  have htop : t.mendEnd = s.mendEnd := by rw [State.mendEnd, State.mendEnd, htiers]
  have hstripe : t.stripe a = s.stripe a := by simp only [State.stripe, hn, hq, htop]
  have hloc : t.stripeLoc = s.stripeLoc := funext fun r => by
    simp only [State.stripeLoc, State.memberSite, State.mendSites, hn, htiers]
  have hplain : t.locPlain a = s.locPlain a := by simp only [State.locPlain, htiers]
  rw [← hl, State.locate, State.locate, hend, hg, hstripe, hloc, hplain]

/-! ## Slices -/

/-- A line taken to the front is found as before, and so are the others. -/
theorem Slice.find_touch (x : Slice) (k j : Nat) : (x.touch k).find j = x.find j := by
  unfold Slice.touch
  split
  case h_2 => rfl
  case h_1 y hy =>
    have hu : y.unit = k / 8 := by simpa using List.find?_some hy
    have hfind : ((y :: x.lines.filter fun z => z.unit != k / 8).find? fun z => z.unit == j / 8) =
        x.lines.find? fun z => z.unit == j / 8 := by
      by_cases hjk : j / 8 = k / 8
      · rw [List.find?_cons, hjk, hu, beq_self_eq_true, hy]
      · have hne : (y.unit == j / 8) = false := by simpa [hu] using Ne.symm hjk
        rw [List.find?_cons, hne]
        dsimp only
        rw [List.find?_filter]
        refine List.find?_congr fun z _ => ?_
        by_cases hz : z.unit = j / 8
        · simp [hz, hjk]
        · simp [hz]
    rw [Slice.find, Slice.find, hfind]

theorem Slice.store_touch (x : Slice) (k : Nat) : (x.touch k).store = x.store := by
  unfold Slice.touch
  split <;> rfl

theorem State.slice_setSlice (s : State) (n m : Nat) (v : Slice) : (s.setSlice n v).slice m = if m = n then v else s.slice m := by
  split
  case isTrue h => exact h ▸ Tab.get_set_same _ _ _ _
  case isFalse h => exact Tab.get_set_other _ _ _ _ _ h

theorem State.sliceHas_touch (s : State) (n k : Nat) (l : Loc) :
    (s.setSlice n ((s.slice n).touch k)).sliceHas l = s.sliceHas l := by
  have hsl : ((s.setSlice n ((s.slice n).touch k)).slice l.n).find l.k = (s.slice l.n).find l.k ∧
      ((s.setSlice n ((s.slice n).touch k)).slice l.n).store = (s.slice l.n).store := by
    rw [State.slice_setSlice]
    split
    case isTrue h => exact h ▸ ⟨Slice.find_touch .., Slice.store_touch ..⟩
    case isFalse => exact ⟨rfl, rfl⟩
  rw [State.sliceHas, State.sliceHas, hsl.1, hsl.2]

/-! ## What reading leaves -/

/-- From `s` to `t` only hits have been counted, energy charged, and lines used; the slices hold what they held. -/
structure State.HitsOnly (s t : State) : Prop where
  rest : t = { s with regs := t.regs, power := t.power, mem := { s.mem with slices := t.mem.slices } }
  regs : RegsBut s t HitRegs
  held : ∀ l, t.sliceHas l = s.sliceHas l

namespace State.HitsOnly

theorem refl (s : State) : s.HitsOnly s := ⟨rfl, RegsBut.refl _ _, fun _ => rfl⟩

theorem trans {s t u : State} (h : s.HitsOnly t) (g : t.HitsOnly u) : s.HitsOnly u where
  rest := g.rest.trans (by rw [h.rest])
  regs := h.regs.trans g.regs
  held l := (g.held l).trans (h.held l)

theorem charge (s : State) (part cls k : Nat) : s.HitsOnly (s.charge part cls k) := by
  unfold State.charge
  dsimp only
  split
  · exact refl s
  · exact ⟨rfl, RegsBut.refl _ _, fun _ => rfl⟩

theorem countHit (s : State) : s.HitsOnly (s.count F.SB_HITS_COUNT F.SB_HITS_OVF 0 1) where
  rest := (s.count_eq ..).trans (by rw [State.count_eq])
  held l := by
    rw [State.count_eq]
    rfl
  regs := by
    have hput (u : State) (f : Fld) (v : Nat) (hf : HitRegs (f.reg.offset 0)) : RegsBut u (u.put f 0 v) HitRegs :=
      (RegsBut.refl u _).setReg _ _ _ hf
    unfold State.count
    dsimp only
    split
    · exact hput _ _ _ (.inl rfl)
    · exact ((hput _ _ _ (.inl rfl)).trans (hput _ _ _ (.inl rfl))).trans (hput _ _ _ (.inr rfl))

/-- R221: an access that hits. -/
theorem countAccess (s : State) (part bytes : Nat) : s.HitsOnly (s.countAccess true part bytes) :=
  ((countHit s).trans (charge ..)).trans (charge ..)

theorem touch (s : State) (n k : Nat) : s.HitsOnly (s.setSlice n ((s.slice n).touch k)) :=
  ⟨rfl, RegsBut.refl _ _, s.sliceHas_touch n k⟩

section
variable {s t : State} (h : s.HitsOnly t)
include h

theorem anv : t.anv = s.anv := by rw [h.rest]
theorem ports : t.ports = s.ports := by rw [h.rest]
theorem draws : t.draws = s.draws := by rw [h.rest]

theorem arrayKept (p : Loc → Prop) : s.arrayKept t p := fun l _ => by
  rw [h.rest]
  exact ⟨rfl, rfl⟩

theorem cached {a : Nat} {ds : List SectorBits} (hc : s.cached a ds) : t.cached a ds := fun i hi => by
  obtain ⟨l, hl, hx⟩ := hc i hi
  exact ⟨l, State.locate_kept h.regs hl, by rw [h.held, hx]⟩

end

end State.HitsOnly

/-! ## Sectors of a stream that the slices hold (R60, R84, R221) -/

section
variable {s : State}

theorem State.reservedSec_none (hb : s.draws.buckets = []) (a : Nat) : s.reservedSec a = none := by
  simp [State.reservedSec, State.bucketAt, hb]

theorem State.cached_one {a : Nat} {d : SectorBits} (h : s.cached a [d]) :
    ∃ l x, s.locate a = some l ∧ s.sliceHas l = some x ∧ x.sec = mkSec d := by
  obtain ⟨l, hl, hx⟩ := h 0 Nat.zero_lt_one
  obtain ⟨x, hx, hd⟩ := Option.map_eq_some_iff.mp hx
  exact ⟨l, x, hl, hx, hd⟩

theorem State.atHand_cached {a : Nat} {d : SectorBits} (h : s.cached a [d]) : s.atHand a = true := by
  obtain ⟨l, x, hl, hx, -⟩ := State.cached_one h
  simp [State.atHand, hl, hx]

/-- A good sector that the slice holds is delivered, and its line is used. -/
theorem State.sliceRead_held {l : Loc} {x : Held} (hx : s.sliceHas l = some x) (hg : x.sec.good = true) (part : Nat) :
    s.sliceRead l part = (⟨x.sec, x.sec.status, false⟩, s.setSlice l.n ((s.slice l.n).touch l.k)) := by
  unfold State.sliceRead
  simp only [hx, hg, if_true]

theorem State.streamSec_cached (hb : s.draws.buckets = []) {a : Nat} {d : SectorBits} (h : s.cached a [d]) (part : Nat) :
    (s.streamSec a part).1.sec = mkSec d ∧ s.HitsOnly (s.streamSec a part).2 := by
  obtain ⟨l, x, hl, hx, hd⟩ := State.cached_one h
  have hgood : x.sec.good = true := by simp [hd, Sec.good, mkSec]
  simp only [State.streamSec, State.reservedSec_none hb, State.readQuiet, hl, State.sliceRead_held hx hgood]
  exact ⟨hd, .touch s l.n l.k⟩

/-- One sector more of those that a stream reads. -/
def readStep (part : Nat) (acc : Tab Sec × Status × State) (a : Nat) : Tab Sec × Status × State :=
  let g := acc.2.2.streamSec a part
  (Tab.set (fun _ => faultSec) acc.1 a g.1.sec, Status.worst acc.2.1 g.1.st, g.2)

theorem State.readEach_eq (as : List Nat) (part : Nat) : s.readEach as part = as.foldl (readStep part) ([], .ok, s) := rfl

variable {d : Nat → SectorBits} (hb : s.draws.buckets = [])
include hb

theorem foldl_readStep_cached (part : Nat) (as : List Nat) (hc : ∀ a ∈ as, s.cached a [d a]) (acc : Tab Sec × Status × State)
    (h : s.HitsOnly acc.2.2) : s.HitsOnly (as.foldl (readStep part) acc).2.2 ∧
      ∀ a, (Tab.get (fun _ => faultSec) acc.1 a = mkSec (d a) ∨ a ∈ as) →
        Tab.get (fun _ => faultSec) (as.foldl (readStep part) acc).1 a = mkSec (d a) := by
  induction as generalizing acc with
  | nil => exact ⟨h, fun a ha => ha.resolve_right List.not_mem_nil⟩
  | cons b as ih =>
    obtain ⟨hsec, hhits⟩ := State.streamSec_cached (h.draws ▸ hb) (h.cached (hc b List.mem_cons_self)) part
    obtain ⟨hr, hget⟩ := ih (fun a ha => hc a (List.mem_cons_of_mem _ ha)) (readStep part acc b) (h.trans hhits)
    refine ⟨hr, fun a ha => hget a ?_⟩
    by_cases hab : a = b
    · exact .inl (by rw [readStep, hab, Tab.get_set_same, hsec])
    · refine ha.imp (fun h0 => ?_) fun hm => (List.mem_cons.mp hm).resolve_left hab
      rw [readStep, Tab.get_set_other _ _ _ _ _ hab, h0]

theorem State.readEach_cached (part : Nat) (as : List Nat) {t : State} (h : s.HitsOnly t) (hc : ∀ a ∈ as, s.cached a [d a]) :
    s.HitsOnly (t.readEach as part).2.2 ∧ ∀ a ∈ as, Tab.get (fun _ => faultSec) (t.readEach as part).1 a = mkSec (d a) := by
  obtain ⟨hr, hget⟩ := foldl_readStep_cached hb part as hc ([], .ok, t) h
  exact ⟨hr, fun a ha => hget a (.inr ha)⟩

omit hb in
/-- Each segment of a group at hand counts as a hit. -/
theorem foldl_countSegment_cached (part : Nat) (secs bs : List Nat) (hc : ∀ a ∈ secs, s.cached a [d a]) {t : State} (h : s.HitsOnly t) :
    s.HitsOnly (bs.foldl (fun s b => s.countSegment (secs.filter fun a => a / 256 == b) part) t) := by
  induction bs generalizing t with
  | nil => exact h
  | cons b bs ih =>
    have hall : ((secs.filter fun a => a / 256 == b).all t.atHand) = true :=
      List.all_eq_true.mpr fun a ha => State.atHand_cached (h.cached (hc a (List.mem_of_mem_filter ha)))
    have hstep : t.HitsOnly (t.countSegment (secs.filter fun a => a / 256 == b) part) := by
      unfold State.countSegment
      rw [hall]
      exact .countAccess ..
    exact ih (h.trans hstep)

theorem State.countFillSecs_none (secs : List Nat) : s.countFillSecs secs = s := by
  simp [State.countFillSecs, hb]

end

/-! ## Groups of elements (R58, R60) -/

theorem Tile.group_eq {t : Tile} {lo n : Nat} (h : lo + n ≤ t.elems) : t.group lo n = (List.range n).map fun p => t.at_ (lo + p) := by
  rw [Tile.group, List.filter_eq_self.mpr]
  intro p hp
  have := List.mem_range.mp hp
  exact decide_eq_true (by omega)

/-- Without a scale mode the scale code plays no part. -/
theorem Tile.valueWith_unscaled {t : Tile} (h : t.scaleMode = 0) (code c : Nat) (w : Word) (fault : Bool) :
    t.valueWith code c w fault = t.valueWith 0 c w fault := by
  simp only [Tile.valueWith, h]

/-- The value of an element of an unscaled tile whose sectors hold `d`. -/
def Tile.heldValue (t : Tile) (d : Nat → SectorBits) (rc : Nat × Nat) : Val :=
  t.valueWith 0 rc.2 (sectorWord (d (t.wordAddr rc / 64 * 64)) (t.wordAddr rc % 64 / 8)) false

theorem State.readGroup_cached {s : State} {t : Tile} {lo n : Nat} {d : Nat → SectorBits} (hb : s.draws.buckets = [])
    (hm : t.scaleMode = 0) (hle : lo + n ≤ t.elems)
    (hc : ∀ p < n, ∀ a, a = t.wordAddr (t.at_ (lo + p)) / 64 * 64 → s.cached a [d a]) (part : Nat) :
    (s.readGroup t lo n part).1 = (List.range n).map (fun p => t.heldValue d (t.at_ (lo + p))) ∧ s.HitsOnly (s.readGroup t lo n part).2.2 := by
  have hsecs : ∀ a ∈ t.groupSecs (t.group lo n), s.cached a [d a] := fun a ha => by
    rw [Tile.groupSecs, List.mem_dedup, Tile.group_eq hle, List.map_map] at ha
    obtain ⟨p, hp, rfl⟩ := List.mem_map.mp ha
    exact hc p (List.mem_range.mp hp) _ rfl
  have hplane : t.groupPlane (t.group lo n) = [] := if_neg (by omega)
  have hseg := foldl_countSegment_cached part (t.groupSecs (t.group lo n)) ((t.groupSecs (t.group lo n)).map fun a => a / 256).dedup
    hsecs (.refl s)
  obtain ⟨hread, hget⟩ := State.readEach_cached hb part (t.groupSecs (t.group lo n)) hseg hsecs
  unfold State.readGroup
  dsimp only
  rw [State.countFillSecs_none (hseg.draws ▸ hb), hplane]
  have hvals : (List.range n).map (fun p => t.heldValue d (t.at_ (lo + p))) = (t.group lo n).map (t.heldValue d) := by
    rw [Tile.group_eq hle, List.map_map]
    rfl
  rw [hvals]
  refine ⟨List.map_congr_left fun rc hrc => ?_, hread⟩
  have hsec := hget _ (List.mem_dedup.mpr (List.mem_map_of_mem hrc))
  rw [hsec, Tile.valueWith_unscaled hm]
  rfl

end Sys2Proof.Machine
end

section
/-!
PROOF of O51, its part on LD, and O51 itself.
-/

namespace Sys2Proof.Machine

open Sys2Proof.Num

/-! ## What an LD puts on its way (R56, R60) -/

/-- The lane that an LD without PAIRLO gives to element `e` of a group. -/
def ldLane (f : Fmt) (ovf : Bool) (act : Nat) (vals : List Val) (e : Nat) : Nat :=
  if e < act then toLane f (encode f ovf .nearest (vals.getD e .fault)).code
  else toLane f (encode f false .nearest (.dy .zero)).code

/-- The entry of an iteration keeps the worst status of its reads. -/
def State.keepStatus (s : State) (g : Target) (st : Status) : State := match s.runOf g.run.drawer g.run.pos with
  | some run => s.setEntry run g.k { g.e with status := Status.worst g.e.status st }
  | none => s

theorem State.keepStatus_eq (s : State) (g : Target) (st : Status) :
    s.keepStatus g st = { s with anv := (s.keepStatus g st).anv } ∧ (s.keepStatus g st).anv.anvil = s.anv.anvil := by
  unfold State.keepStatus
  split <;> exact ⟨rfl, rfl⟩

/-- The register that an LD without PAIRLO puts on its way, one cycle after `cyc`, where its stream gives `vals`. -/
def ldLanding (cyc : Nat) (w : SlotWord) (ovf : Bool) (act : Nat) (vals : List Val) : Landing :=
  ⟨cyc + 1, false, w.dst.toNat, laneMask w.format.lane (2048 / w.format.lane) fun _ => true,
    lanes w.format.lane (2048 / w.format.lane) (ldLane w.format ovf act vals)⟩

theorem ldLanding_lane (cyc : Nat) (w : SlotWord) (ovf : Bool) (act : Nat) (vals : List Val) {e : Nat} (he : e < 2048 / w.format.lane) :
    laneOf w.format.lane (ldLanding cyc w ovf act vals).mask e = 2 ^ w.format.lane - 1 ∧
    laneOf w.format.lane (ldLanding cyc w ovf act vals).val e = ldLane w.format ovf act vals e % 2 ^ w.format.lane :=
  ⟨laneOf_laneMask (lane_mul_le _) _ he, laneOf_lanes (lane_mul_le _) _ he⟩

theorem ldLane_fetched (f : Fmt) (ovf : Bool) (act : Nat) (vals : List Val) (e : Nat) : ldLane f ovf act vals e =
    toLane f (encode f (e < act && ovf) .nearest (if e < act then vals.getD e .fault else .dy .zero)).code := by
  unfold ldLane
  split
  case isTrue h => rw [decide_eq_true h, Bool.true_and]
  case isFalse h => rw [decide_eq_false h, Bool.false_and]

theorem ldLane_map_range (f : Fmt) (ovf : Bool) (act : Nat) (val : Nat → Val) (e : Nat) :
    ldLane f ovf act ((List.range act).map val) e =
      if e < act then toLane f (encode f ovf .nearest (val e)).code else toLane f (encode f false .nearest (.dy .zero)).code := by
  unfold ldLane
  split
  case isTrue h => simp [List.getD, h]
  case isFalse => rfl

section
variable {s : State} {i : Issue} {x : Site} {g : Target} {m : Nat} {tl : Tile}

/-- An LD without PAIRLO: its stream gives the group, the register is on its way, and the entry keeps the worst status. -/
theorem State.issueLd_eq (ht : i.word.top = false) (hi : (g.e.ins.find? fun y => y.1 == i.word.srcA.toNat) = some (m, tl))
    {vals : List Val} {st : Status} {u : State} (hr : s.takeGroup i.anvil i.word.srcA.toNat tl g = (vals, st, u)) :
    s.issueLd i.anvil i.word g = (u.setAnvil i.anvil { u.anvil i.anvil with
      landing := (u.anvil i.anvil).landing ++ [ldLanding (u.anvil i.anvil).cyc i.word tl.ovf g.act vals] }).keepStatus g st := by
  have hget (vs : List Val) (e : Nat) : vs.toArray.getD e .fault = vs.getD e .fault := by simp [List.getD]
  simp only [State.issueLd, hi, ht, hr, hget, Bool.false_eq_true, if_false]
  rfl

/-- What an LD without PAIRLO leaves, and its register on the way. -/
theorem State.issueLd_landing (ht : i.word.top = false) (hi : (g.e.ins.find? fun y => y.1 == i.word.srcA.toNat) = some (m, tl))
    {vals : List Val} {st : Status} {u : State} {z : Anvil}
    (hr : s.takeGroup i.anvil i.word.srcA.toNat tl g = (vals, st, u.setAnvil i.anvil z)) :
    (∀ b, b ≠ i.anvil → (s.issueLd i.anvil i.word g).anvil b = u.anvil b) ∧
    s.issueLd i.anvil i.word g = { u with anv := (s.issueLd i.anvil i.word g).anv } ∧
    (s.issueLd i.anvil i.word g).anvil i.anvil = { z with landing := z.landing ++ [ldLanding z.cyc i.word tl.ovf g.act vals] } := by
  rw [State.issueLd_eq ht hi hr, State.anvil_setAnvil_same]
  generalize hv : State.setAnvil (u.setAnvil i.anvil z) i.anvil _ = v
  obtain ⟨hrest, hanv⟩ := v.keepStatus_eq g st
  have hanvil (b : Nat) : (v.keepStatus g st).anvil b = v.anvil b := by rw [State.anvil, hanv, State.anvil]
  refine ⟨fun b hb => ?_, ?_, ?_⟩
  · rw [hanvil, ← hv, State.anvil_setAnvil_other _ _ hb, State.anvil_setAnvil_other _ _ hb]
  · rw [hrest, ← hv]
    rfl
  · rw [hanvil, ← hv, State.anvil_setAnvil_same]

theorem exec_ld (h : s.issuesAt i x) (hg : x.target = some g) (hl : DOp.ld.legal i.word = true)
    (hf : x.fits (DOp.ld.fits i.word) = true) (hi : (g.e.ins.find? fun y => y.1 == i.word.srcA.toNat) = some (m, tl))
    (hw : (s.anvil i.anvil).fetchedAt i.word.srcA.toNat g.k g.lo ≠ none ∨ s.groupReady tl g.lo g.act = true) :
    exec (.ld i) s = .next (s.issueLd i.anvil i.word g) := by
  have hissue : s.issueD i.anvil .ld i.word x = s.issueLd i.anvil i.word g := by
    unfold State.issueD
    rw [hg]
  have hwait : s.streamWaits i.anvil .ld i.word x = false := by
    unfold State.streamWaits
    rw [hg]
    dsimp only
    rw [hi]
    rcases hw with hw | hw <;> simp [hw]
  exact hissue ▸ exec_d_runs h hl hf (fun _ => by rw [hg]; rfl) hwait

/-! ## The clauses on LD -/

theorem ld_fetched {y : Fetched} (h : s.issuesAt i x) (hg : x.target = some g) (hl : DOp.ld.legal i.word = true)
    (hf : x.fits (DOp.ld.fits i.word) = true) (ht : i.word.top = false)
    (hi : (g.e.ins.find? fun y => y.1 == i.word.srcA.toNat) = some (m, tl))
    (hy : (s.anvil i.anvil).fetchedAt i.word.srcA.toNat g.k g.lo = some y) :
    ∃ t, exec (.ld i) s = .next t ∧ (∀ b, b ≠ i.anvil → t.anvil b = s.anvil b) ∧ t = { s with anv := t.anv } ∧ ∃ l,
      t.anvil i.anvil = { s.anvil i.anvil with
        landing := (s.anvil i.anvil).landing ++ [l]
        fetched := (s.anvil i.anvil).fetched.erase y } ∧ l.at_ = (s.anvil i.anvil).cyc + 1 ∧
      l.toQ = false ∧ l.r = i.word.dst.toNat ∧ ∀ e < 2048 / i.word.format.lane,
        laneOf i.word.format.lane l.mask e = 2 ^ i.word.format.lane - 1 ∧
        laneOf i.word.format.lane l.val e = toLane i.word.format (encode i.word.format (e < g.act && tl.ovf) .nearest
          (if e < g.act then y.vals.getD e .fault else .dy .zero)).code % 2 ^ i.word.format.lane := by
  have htake : s.takeGroup i.anvil i.word.srcA.toNat tl g =
      (y.vals, y.st, s.setAnvil i.anvil { s.anvil i.anvil with fetched := (s.anvil i.anvil).fetched.erase y }) := by
    unfold State.takeGroup
    simp only [hy]
  obtain ⟨hother, hrest, hown⟩ := State.issueLd_landing ht hi htake
  refine ⟨_, exec_ld h hg hl hf hi (.inl (by simp [hy])), hother, hrest, _, hown, rfl, rfl, rfl, fun e he => ?_⟩
  rw [← ldLane_fetched]
  exact ldLanding_lane _ _ _ _ _ he

theorem ld_held {d : Nat → SectorBits} (h : s.issuesAt i x) (hg : x.target = some g) (hl : DOp.ld.legal i.word = true)
    (hf : x.fits (DOp.ld.fits i.word) = true) (ht : i.word.top = false)
    (hi : (g.e.ins.find? fun y => y.1 == i.word.srcA.toNat) = some (m, tl)) (hm : tl.scaleMode = 0) (hle : g.lo + g.act ≤ tl.elems)
    (hy : (s.anvil i.anvil).fetchedAt i.word.srcA.toNat g.k g.lo = none) (hr : s.groupReady tl g.lo g.act = true)
    (hb : s.draws.buckets = [])
    (hc : ∀ p < g.act, ∀ a, a = tl.wordAddr (tl.at_ (g.lo + p)) / 64 * 64 → s.cached a [d a]) :
    ∃ t, exec (.ld i) s = .next t ∧ (∀ b, b ≠ i.anvil → t.anvil b = s.anvil b) ∧ s.arrayKept t (fun _ => False) ∧ t.ports = s.ports ∧
      RegsBut s t HitRegs ∧ ∃ l,
      t.anvil i.anvil = { s.anvil i.anvil with
        landing := (s.anvil i.anvil).landing ++ [l]
        nextIn := (t.anvil i.anvil).nextIn } ∧ l.at_ = (s.anvil i.anvil).cyc + 1 ∧
      l.toQ = false ∧ l.r = i.word.dst.toNat ∧ ∀ e < 2048 / i.word.format.lane,
        laneOf i.word.format.lane l.mask e = 2 ^ i.word.format.lane - 1 ∧
        laneOf i.word.format.lane l.val e = (if e < g.act then
            toLane i.word.format (encode i.word.format tl.ovf .nearest (tl.heldValue d (tl.at_ (g.lo + e)))).code
          else toLane i.word.format (encode i.word.format false .nearest (.dy .zero)).code) % 2 ^ i.word.format.lane := by
  obtain ⟨hvals, hhits⟩ := State.readGroup_cached hb hm hle hc g.run.drawer
  obtain ⟨next, htake⟩ : ∃ next, s.takeGroup i.anvil i.word.srcA.toNat tl g =
      ((s.readGroup tl g.lo g.act g.run.drawer).1, (s.readGroup tl g.lo g.act g.run.drawer).2.1,
        (s.readGroup tl g.lo g.act g.run.drawer).2.2.setAnvil i.anvil { s.anvil i.anvil with nextIn := next }) := by
    have hanvil : (s.readGroup tl g.lo g.act g.run.drawer).2.2.anvil i.anvil = s.anvil i.anvil := by
      rw [State.anvil, hhits.anv, State.anvil]
    unfold State.takeGroup
    simp only [hy, hanvil]
    exact ⟨_, rfl⟩
  obtain ⟨hother, hrest, hown⟩ := State.issueLd_landing ht hi htake
  refine ⟨_, exec_ld h hg hl hf hi (.inr hr), fun b hb => ?_, ?_, ?_, ?_,
    ldLanding (s.anvil i.anvil).cyc i.word tl.ovf g.act (s.readGroup tl g.lo g.act g.run.drawer).1, ?_, rfl, rfl, rfl, fun e he => ?_⟩
  · rw [hother b hb, State.anvil, hhits.anv, State.anvil]
  · rw [hrest]
    exact hhits.arrayKept _
  · rw [hrest]
    exact hhits.ports
  · rw [hrest]
    exact hhits.regs
  · rw [hown]
  · rw [hvals, ← ldLane_map_range i.word.format tl.ovf g.act fun p => tl.heldValue d (tl.at_ (g.lo + p))]
    exact ldLanding_lane _ _ _ _ _ he

end

/-- Settles O51: what a slot D instruction computes lands lane by lane (`ld_fetched`, `cvt_lands`, `rnd_lands`), an LD without
a prefetch reads sectors that the slices hold (`ld_held`), and the measuring instructions change their entry's counts alone. -/
theorem streamAndMeasuringSlots : Obligations.StreamAndMeasuringSlots := by
  unfold Obligations.StreamAndMeasuringSlots
  refine ⟨⟨?_, ?_, ?_, ?_, ?_, ?_⟩, ?_, ?_, ?_, fun i s => ⟨exec_end i s, rfl⟩⟩
  · exact fun i x g m tl y s h hg hl hf ht hi hy => ld_fetched h hg hl hf ht hi hy
  · exact fun i x g m tl d s h hg hl hf ht hi hm hle hy hr hb _ hc => ld_held h hg hl hf ht hi hm hle hy hr hb hc
  · exact fun i x o s h hw => exec_d_waits h hw
  · exact fun i x g m q tl vs s h hg hl hf ht ho hb hw hvs hq hlt => st_stores h hg hl hf ht ho hb hw hvs hq hlt
  · exact fun i x n r s h hl hf hn hr => cvt_lands h hl hf hn hr
  · exact fun i x g n k s h hg hl hf hk hn => rnd_lands h hg hl hf hk hn
  · exact fun i x g k q vs s h hg hl hf hk hvs hq hlt => assay_sums h hg hl hf hk hvs hq hlt
  · exact fun i x g vs s h hg hl hf hvs hlt => hist_counts h hg hl hf hvs hlt
  · exact fun i x g k vs c s h hg hl hf hk hvs hc hnf hno => maxacc_captures h hg hl hf hk hvs hc hnf hno

end Sys2Proof.Machine
end

section
/-!
PROOF of O48: results that become visible, and the arithmetic slots.
-/

namespace Sys2Proof.Machine

open Sys2Proof.Num

/-! ## A result becomes visible (R51) -/

theorem Landing.getLsbD_into {n : Nat} (l : Landing) (old : BitVec n) {j : Nat} (hj : j < n) :
    (l.into old).getLsbD j = if l.mask.getLsbD j then l.val.getLsbD j else old.getLsbD j := by
  rw [Landing.into]
  cases hm : l.mask.getLsbD j <;> simp [hj, hm]

section
variable {x : Anvil} {l : Landing} (hx : x.landing = [l])
include hx

theorem Anvil.advance_early (h : x.cyc + 1 < l.at_) : x.advance = { x with cyc := x.cyc + 1 } := by
  have hn : decide (l.at_ ≤ x.cyc + 1) = false := decide_eq_false (by omega)
  simp [Anvil.advance, hx, hn]

theorem Anvil.advance_due (h : l.at_ ≤ x.cyc + 1) :
    x.advance = { { x with cyc := x.cyc + 1 }.land l with landing := [] } := by
  simp [Anvil.advance, hx, h]

/-- In the cycle in which a result becomes visible, registers and predicates are what its landing leaves. -/
theorem Anvil.advance_lands (h : l.at_ ≤ x.cyc + 1) : x.advance.landing = [] ∧ x.advance.cyc = x.cyc + 1 ∧ x.advance.work = x.work ∧
    (∀ r, x.advance.rd r = (x.land l).rd r) ∧ ∀ r, x.advance.pred r = (x.land l).pred r := by
  rw [Anvil.advance_due hx h]
  unfold Anvil.land
  split
  · split <;> exact ⟨rfl, rfl, rfl, fun _ => rfl, fun _ => rfl⟩
  · exact ⟨rfl, rfl, rfl, fun _ => rfl, fun _ => rfl⟩

end

section
variable (x : Anvil) {l : Landing}

theorem Anvil.land_register (h : l.toQ = false) : x.land l = { x with v := Tab.modify (fun _ => 0) x.v l.r l.into } := by
  simp [Anvil.land, h]

theorem Anvil.land_predicate (h : l.toQ = true) (h0 : l.r ≠ 0) :
    x.land l = { x with q := Tab.modify (fun _ => 0) x.q l.r l.into } := by
  simp [Anvil.land, h, h0]

theorem Anvil.land_ones (h : l.toQ = true) (h0 : l.r = 0) : x.land l = x := by
  simp [Anvil.land, h, h0]

theorem Anvil.rd_land_same (h : l.toQ = false) : (x.land l).rd l.r = l.into (x.rd l.r) := by
  rw [x.land_register h]
  exact Tab.get_set_same _ _ _ _

theorem Anvil.rd_land_other (h : l.toQ = false) {r : Nat} (hr : r ≠ l.r) : (x.land l).rd r = x.rd r := by
  rw [x.land_register h]
  exact Tab.get_set_other _ _ _ _ _ hr

theorem Anvil.pred_land_register (h : l.toQ = false) (r : Nat) : (x.land l).pred r = x.pred r := by
  rw [x.land_register h]
  rfl

theorem Anvil.rd_land_predicate (h : l.toQ = true) (r : Nat) : (x.land l).rd r = x.rd r := by
  by_cases h0 : l.r = 0
  · rw [x.land_ones h h0]
  · rw [x.land_predicate h h0]
    rfl

theorem Anvil.pred_land_same (h : l.toQ = true) (h0 : l.r ≠ 0) : (x.land l).pred l.r = l.into (x.pred l.r) := by
  rw [x.land_predicate h h0, Anvil.pred, if_neg h0, Anvil.pred, if_neg h0]
  exact Tab.get_set_same _ _ _ _

theorem Anvil.pred_land_other (h : l.toQ = true) {r : Nat} (hr : r ≠ l.r) : (x.land l).pred r = x.pred r := by
  by_cases h0 : l.r = 0
  · rw [x.land_ones h h0]
  · rw [x.land_predicate h h0, Anvil.pred, Anvil.pred]
    exact congrArg (ite (r = 0) _) (Tab.get_set_other _ _ _ _ _ hr)

end

/-! ## The results of slots A and B (Table 3-5) -/

section
variable {o : AbOp} (hc : o.isCmp = false) (hp : o.isPair = false)
include hc hp

/-- The value of an operation is its exact result rounded once, and Fault where it has none. -/
theorem AbOp.value_code (f : Fmt) (flt p : Bool) (a b c : Val) : (o.value f flt a b c p).code =
    match o.exact a b c p with
    | some u => (encode f flt .nearest (.dy u)).code
    | none => f.faultCode := by
  cases o with
  | mov | abs | neg => cases a <;> rfl
  | add | sub | mul | min | max | scale => cases a <;> cases b <;> rfl
  | fma | fms => cases a <;> cases b <;> cases c <;> rfl
  | sel => cases p <;> cases a <;> cases b <;> rfl
  | cmplt | cmpeq => cases hc
  | twosum | ftwosum => cases hp

theorem AbOp.latency_arith : o.latency = 2 := by
  cases o with
  | twosum => cases hp
  | _ => rfl

theorem issueAb_arith (s : State) (i : Issue) (x : Site) :
    (s.anvil i.anvil).issueAb o i.word (x.scal.getD []) = (s.anvil i.anvil).result o.latency false i.word.dst.toNat
      (laneMask i.word.format.lane (2048 / i.word.format.lane) (s.passes i i.word.format.lane))
      (lanes i.word.format.lane (2048 / i.word.format.lane) fun e => (o.value i.word.format i.word.flt (s.argA o i x e) (s.argB i x e)
        (s.argC i e) (predBit ((s.anvil i.anvil).pred (i.word.srcC.toNat % 8)) i.word.format.lane e)).code) := by
  cases o with
  | cmplt | cmpeq => cases hc
  | twosum | ftwosum => cases hp
  | mov =>
    unfold Anvil.issueAb State.argA
    cases i.word.sb <;> rfl
  | _ => rfl

end

/-- Settles O48: a landing changes the bits of its mask alone (`getLsbD_into`), and what an arithmetic slot puts on its way is
the exact result rounded once (`AbOp.value_code`). -/
theorem arithmeticSlotsLand : Obligations.ArithmeticSlotsLand := by
  unfold Obligations.ArithmeticSlotsLand
  refine ⟨fun x l hx => ⟨Anvil.advance_early hx, fun h => ?_⟩, fun o sl i x s h hc hp => ⟨_, exec_ab_runs sl h, ?_⟩⟩
  · obtain ⟨hland, hcyc, hwork, hrd, hpred⟩ := Anvil.advance_lands hx h
    refine ⟨hland, hcyc, hwork, fun hv => ⟨fun r => ?_, fun r hr => ?_, fun j hj => ?_⟩, fun hq => ⟨fun r => ?_, fun r hr => ?_,
      fun h0 j hj => ?_⟩⟩
    · exact (hpred r).trans (Anvil.pred_land_register _ hv r)
    · exact (hrd r).trans (Anvil.rd_land_other _ hv hr)
    · rw [hrd, Anvil.rd_land_same _ hv, l.getLsbD_into _ hj]
    · exact (hrd r).trans (Anvil.rd_land_predicate _ hq r)
    · exact (hpred r).trans (Anvil.pred_land_other _ hq hr)
    · rw [hpred, Anvil.pred_land_same _ hq h0, l.getLsbD_into _ hj]
  · rw [issueAb_arith hc hp, AbOp.latency_arith hc hp]
    simp only [AbOp.value_code hc hp]
    exact s.lanesLand_result i.anvil 2 i.word.dst.toNat _ _ (lane_mul_le _)

end Sys2Proof.Machine
end

section
/-!
PROOF of O50: slot C.
-/

namespace Sys2Proof.Machine

open Sys2Proof.Num

/-! ## Issue of slot C (R51, R55) -/

theorem exec_c (o : COp) (i : Issue) (s : State) : exec (o.instr i) s = .next (s.issueC i.anvil i.ctx o i.word) := by
  cases o <;> rfl

section
variable {s : State} {o : COp} {i : Issue} {x : Site}

theorem exec_c_runs (h : s.issuesAt i x) (hl : o.legal i.word = true) (hf : x.fits (o.fits i.word) = true) :
    exec (o.instr i) s = .next (s.setAnvil i.anvil ((s.anvil i.anvil).issueC o i.word)) := by
  rw [exec_c, State.issueC, h.2.2.2]
  simp only [h.mayIssue, hl, hf, Bool.and_true, if_true]

theorem issueC_eq (s : State) (o : COp) (i : Issue) :
    (s.anvil i.anvil).issueC o i.word = (s.anvil i.anvil).result o.latency false i.word.dst.toNat
      (laneMask (o.dst i.word).lane (2048 / Nat.max (o.src i.word).lane (o.dst i.word).lane)
        (s.passes i (Nat.max (o.src i.word).lane (o.dst i.word).lane)))
      (lanes (o.dst i.word).lane (2048 / Nat.max (o.src i.word).lane (o.dst i.word).lane) fun e =>
        (o.value i.word ((s.anvil i.anvil).elem (o.src i.word) i.word.srcA e)
          ((s.anvil i.anvil).elem (o.src i.word) i.word.srcB e)).code) := rfl

/-- LTOF and FTOL take as many elements as a register holds in the wider of their formats. -/
theorem COp.lanes_le (o : COp) (w : SlotWord) : (o.dst w).lane * (2048 / Nat.max (o.src w).lane (o.dst w).lane) ≤ 2048 :=
  (Nat.mul_le_mul_right _ (Nat.le_max_right _ _)).trans (lane_mul_le _)

end

/-! ## Special cases (R29, R67) -/

section
variable (w : SlotWord) (a b : Val)

theorem COp.value_fault {o : COp} (h : o ≠ .lmul) : (o.value w .fault b).code = (o.dst w).faultCode := by
  cases o with
  | lmul => exact absurd rfl h
  | _ => rfl

theorem lmul_value_fault : (COp.lmul.value w .fault b).code = w.format.faultCode ∧
    (COp.lmul.value w a .fault).code = w.format.faultCode :=
  ⟨rfl, by cases a <;> rfl⟩

variable {u : Dy}

theorem COp.value_zero (h : u.isZero = true) :
    COp.sqrt.value w (.dy u) b = ⟨0, false⟩ ∧ COp.rcp.value w (.dy u) b = Num.overflow .df32 w.flt false ∧
    COp.rsq.value w (.dy u) b = Num.overflow .df32 w.flt false ∧ COp.log2.value w (.dy u) b = Num.overflow .df32 w.flt true ∧
    COp.ftol.value w (.dy u) b = ⟨2 ^ (w.format.width - 2), false⟩ ∧ COp.ltof.value w (.dy u) b = ⟨0, false⟩ := by
  refine ⟨?sqrt, ?rcp, ?rsq, ?log2, ?ftol, rfl⟩ <;> exact if_pos h

theorem COp.value_negative (hz : u.isZero = false) (hn : u.isNeg = true) :
    (COp.rsq.value w (.dy u) b).code = Fmt.df32.faultCode ∧ (COp.sqrt.value w (.dy u) b).code = Fmt.df32.faultCode ∧
    (COp.log2.value w (.dy u) b).code = Fmt.df32.faultCode := by
  refine ⟨?rsq, ?sqrt, ?log2⟩
  case rsq => simp [COp.value, Num.rsq, hz, hn]
  case sqrt => simp [COp.value, sqrtDF, hz, hn]
  case log2 => simp [COp.value, log2DF, hz, hn]

/-- Below −150 the power lies under half the smallest subnormal. -/
theorem exp2_value_underflow (h : u.lt ⟨-150, 0⟩ = true) : COp.exp2.value w (.dy u) b = ⟨0, false⟩ := by
  have hle : ¬Dy.le ⟨(2 : Int) ^ 10, 0⟩ u = true := by
    have hu : ratOf u < -150 := by simpa [lt_eq, ratOf] using h
    have htop : ratOf ⟨(2 : Int) ^ 10, 0⟩ = 1024 := by norm_num [ratOf]
    rw [Dy.le, lt_eq, htop, decide_eq_true (by linarith)]
    exact Bool.false_ne_true
  exact (if_neg hle).trans (if_pos h)

end

/-- Settles O50: a slot C word puts its values on their way lane by lane (`issueC_eq`), and the special cases are branches of
`COp.value`. -/
theorem specialFunctionSlots : Obligations.SpecialFunctionSlots := by
  unfold Obligations.SpecialFunctionSlots
  refine ⟨fun o i x k s h hl hf hk => ⟨_, exec_c_runs h hl hf, ?_⟩, fun w a b => ⟨fun o ho => COp.value_fault w b ho,
    (lmul_value_fault w a b).1, (lmul_value_fault w a b).2, ?_⟩⟩
  · subst hk
    rw [issueC_eq]
    exact s.lanesLand_result i.anvil o.latency i.word.dst.toNat _ _ (o.lanes_le i.word)
  · rintro u rfl
    exact ⟨COp.value_zero w b, COp.value_negative w b, exp2_value_underflow w b⟩

end Sys2Proof.Machine
end

section
/-!
SUPPORT. Ranges that pass their checks, and whole ranges that the home slices hold.
-/

namespace Sys2Proof.Machine

/-! ## Checks of ranges (R125) -/

theorem mem_granulesOf_bounds {a len g : Nat} (h : g ∈ granulesOf a len) : a / gib ≤ g ∧ g ≤ (a + len - 1) / gib ∧ 0 < len := by
  unfold granulesOf at h
  split at h
  · cases h
  · obtain ⟨i, hi, rfl⟩ := List.mem_map.mp h
    have := List.mem_range.mp hi
    omega

theorem granulesOf_of_le {a m n g : Nat} (h : m ≤ n) (hg : g ∈ granulesOf a m) : g ∈ granulesOf a n := by
  obtain ⟨h1, h2, h3⟩ := mem_granulesOf_bounds hg
  have hle : (a + m - 1) / gib ≤ (a + n - 1) / gib := Nat.div_le_div_right (by omega)
  rw [granulesOf, if_neg (by omega), List.mem_map]
  exact ⟨g - a / gib, List.mem_range.mpr (by omega), by omega⟩

section
variable {s : State}

/-- Below an address that is not in a hole, its granule has none (R215). -/
theorem State.stripe_isSome_of_le {x y : Nat} (h : (s.stripe y).isSome = true) (hle : x ≤ y) (hg : x / gib = y / gib) :
    (s.stripe x).isSome = true := by
  unfold State.stripe at h ⊢
  dsimp only at h ⊢
  split at h
  · cases h
  · next hy =>
    rw [hg, if_neg]
    · rfl
    · rintro (hn | hd | he)
      · exact hy (.inl hn)
      · exact hy (.inr (.inl (hd.trans (Nat.sub_le_sub_right hle _))))
      · exact hy (.inr (.inr (he.trans hle)))

theorem State.badWindow_eq_false {a len : Nat} (h0 : 0 < len) : s.badWindow a len = false ↔ a + len ≤ s.windowEnd ∧
    ∀ g ∈ granulesOf a len, s.granClass g = 2 → (s.stripe (Nat.min (a + len) ((g + 1) * gib) - 1)).isSome = true ∧
      (s.stripe (Nat.max a (g * gib))).isSome = true := by
  have hlen : (len != 0) = true := bne_iff_ne.mpr h0.ne'
  rw [State.badWindow, hlen, Bool.true_and, Bool.or_eq_false_iff, decide_eq_false_iff_not, not_lt, List.any_eq_false]
  refine and_congr_right fun _ => forall₂_congr fun g _ => ?_
  cases hc : s.granClass g == 2
  · simp [beq_eq_false_iff_ne.mp hc]
  · simp [beq_iff_eq.mp hc, Option.isSome_iff_ne_none]

theorem State.badWindow_of_le {a m n : Nat} (h : m ≤ n) (hw : s.badWindow a n = false) : s.badWindow a m = false := by
  rcases Nat.eq_zero_or_pos m with rfl | hm
  · rfl
  · rw [State.badWindow_eq_false (hm.trans_le h)] at hw
    rw [State.badWindow_eq_false hm]
    obtain ⟨hend, hg⟩ := hw
    refine ⟨by omega, fun g hgm hc => ?_⟩
    obtain ⟨hhi, hlo⟩ := hg g (granulesOf_of_le h hgm) hc
    obtain ⟨h1, h2, -⟩ := mem_granulesOf_bounds hgm
    refine ⟨State.stripe_isSome_of_le hhi ?_ ?_, hlo⟩
    · simp only [gib, Nat.min_def] at *
      split <;> split <;> omega
    · simp only [gib, Nat.min_def] at *
      split <;> split <;> omega

theorem State.foreign_of_le {d a m n : Nat} (h : m ≤ n) (hf : s.foreign d a n = false) : s.foreign d a m = false := by
  rw [State.foreign, Bool.and_eq_false_iff, List.any_eq_false] at hf ⊢
  exact hf.imp_right fun hg g hgm => hg g (granulesOf_of_le h hgm)

theorem overlap_of_le {a m n b lb : Nat} (h : m ≤ n) (ho : overlap a m b lb = true) : overlap a n b lb = true := by
  simp only [overlap, Bool.and_eq_true, bne_iff_ne, decide_eq_true_eq] at ho ⊢
  omega

theorem State.rangeHeld_of_le {a m n : Nat} (h : m ≤ n) (hh : s.rangeHeld a n = false) : s.rangeHeld a m = false := by
  refine Bool.eq_false_iff.mpr fun hm => Bool.eq_false_iff.mp hh ?_
  simp only [State.rangeHeld, State.anyCmd, List.any_eq_true] at hm ⊢
  obtain ⟨x, hx, c, hc, r, hr, ho⟩ := hm
  exact ⟨x, hx, c, hc, r, hr, overlap_of_le h ho⟩

end

/-! ## Checks over a change of SB_HITS and MW_IRQ_CAUSE -/

section
variable {s t : State} (h : RegsBut s t HitRegs)
include h

theorem RegsBut.windowEnd : t.windowEnd = s.windowEnd := by rw [State.windowEnd, State.windowEnd, h.tiers]

theorem RegsBut.stripe : t.stripe = s.stripe := funext fun a => by
  have hn : t.mendN = s.mendN := by rw [State.mendN, State.mendN, h.tiers]
  have hq : t.mendQ = s.mendQ := by rw [State.mendQ, State.mendQ, hn]
  have htop : t.mendEnd = s.mendEnd := by rw [State.mendEnd, State.mendEnd, h.tiers]
  simp only [State.stripe, hn, hq, htop]

theorem RegsBut.gran_fld {f : Fld} (hf : f.reg = .RG_GRAN) {a len g : Nat} (he : a + len ≤ s.windowEnd) (hg : g ∈ granulesOf a len) :
    t.fld f g = s.fld f g := by
  have htop := s.windowEnd_le
  obtain ⟨-, h2, -⟩ := mem_granulesOf_bounds hg
  refine h.fld ?_
  rw [hf]
  simp only [gib, HitRegs, Reg.offset, Reg.base, Reg.stride] at *
  omega

theorem RegsBut.badWindow {a len : Nat} (hw : s.badWindow a len = false) : t.badWindow a len = false := by
  rcases Nat.eq_zero_or_pos len with rfl | h0
  · rfl
  · rw [State.badWindow_eq_false h0] at hw ⊢
    obtain ⟨hend, hg⟩ := hw
    rw [h.windowEnd, h.stripe]
    exact ⟨hend, fun g hm hc => hg g hm ((h.gran_fld rfl hend hm).symm.trans hc)⟩

theorem RegsBut.foreign {d a len : Nat} (he : a + len ≤ s.windowEnd) (hf : s.foreign d a len = false) : t.foreign d a len = false := by
  rw [State.foreign, Bool.and_eq_false_iff, List.any_eq_false] at hf ⊢
  refine hf.imp_right fun hg g hm => ?_
  rw [State.granOwner, h.gran_fld rfl he hm]
  exact hg g hm

theorem RegsBut.rangeChecks {d a len : Nat} (h0 : 0 < len) (hw : s.badWindow a len = false) (hf : s.foreign d a len = false) :
    firstFail (t.rangeChecks d [(a, len)]) = none := by
  have he := ((State.badWindow_eq_false h0).mp hw).1
  simp [State.rangeChecks, firstFail, h.badWindow hw, h.foreign he hf]

end

/-! ## Ranges that the slices hold (R221) -/

section
variable {s : State} {a : Nat} {ds : List SectorBits} (hc : s.cached a ds)
include hc

theorem State.readSec_cached {t : State} (h : s.HitsOnly t) {i : Nat} (hi : i < ds.length) (part : Nat) :
    ∃ u, t.readSec (a + 64 * i) part = (⟨mkSec (ds.getD i 0), .ok, false⟩, u) ∧ s.HitsOnly u := by
  obtain ⟨l, hl, hx⟩ := h.cached hc i hi
  obtain ⟨x, hx, hd⟩ := Option.map_eq_some_iff.mp hx
  have hcount := State.HitsOnly.countAccess t part 64
  have hgood : x.sec.good = true := by simp [hd, Sec.good, mkSec]
  refine ⟨_, ?_, (h.trans hcount).trans (.touch _ l.n l.k)⟩
  rw [State.readSec, hl]
  dsimp only
  rw [hx, Option.isSome_some, State.sliceRead_held ((hcount.held l).trans hx) hgood, hd]
  rfl

theorem State.readSecs_cached {t : State} (h : s.HitsOnly t) {n : Nat} (hn : n ≤ ds.length) (part : Nat) :
    ∃ u, t.readSecs a n part = ((ds.take n).map mkSec, .ok, u) ∧ s.HitsOnly u := by
  induction n with
  | zero => exact ⟨t, rfl, h⟩
  | succ n ih =>
    obtain ⟨u, hu, hhits⟩ := ih (by omega)
    obtain ⟨v, hv, hhits⟩ := State.readSec_cached hc hhits (show n < ds.length by omega) part
    refine ⟨v, ?_, hhits⟩
    rw [State.readSecs] at hu ⊢
    rw [List.range_succ, List.foldl_append, hu, List.foldl_cons, List.foldl_nil]
    dsimp only
    rw [hv, List.take_add_one, List.map_append, List.getElem?_eq_getElem (by omega), List.getD_eq_getElem _ _ (by omega)]
    rfl

variable (ha : a % 64 = 0) {n : Nat} (hn : (n + 63) / 64 ≤ ds.length)
include ha hn

theorem State.readMem_cached {t : State} (h : s.HitsOnly t) (part : Nat) :
    ∃ u, t.readMem a n part = ((ds.flatMap (bytesOf 64)).take n, .ok, u) ∧ s.HitsOnly u := by
  obtain ⟨u, hu, hhits⟩ := State.readSecs_cached hc h hn part
  refine ⟨u, ?_, hhits⟩
  have hbase : a / 64 * 64 = a := by omega
  have hbytes : (secBytes ((ds.take ((n + 63) / 64)).map mkSec)).take n = (ds.flatMap (bytesOf 64)).take n := by
    have hflat : secBytes ((ds.take ((n + 63) / 64)).map mkSec) = (ds.take ((n + 63) / 64)).flatMap (bytesOf 64) :=
      List.flatMap_map ..
    have hlen := length_flatMap_bytesOf (w := 512) 64 id (ds.take ((n + 63) / 64))
    rw [List.length_take, Nat.min_eq_left hn] at hlen
    conv_rhs => rw [← List.take_append_drop ((n + 63) / 64) ds, List.flatMap_append]
    rw [hflat, List.take_append_of_le_length]
    exact le_of_le_of_eq (by omega) hlen.symm
  rw [State.readMem, ha, hbase, Nat.zero_add, hu, List.drop_zero, hbytes]

/-- A range that the slices hold waits for no channel. -/
theorem State.rangeReady_cached : s.rangeReady a n = true := by
  have hbase : a / 64 * 64 = a := by omega
  rw [State.rangeReady, ha, hbase, Nat.zero_add, Bool.or_eq_true]
  refine .inr (List.all_eq_true.mpr fun i hi => ?_)
  obtain ⟨l, hl, hx⟩ := hc i ((List.mem_range.mp hi).trans_le hn)
  obtain ⟨x, hx, -⟩ := Option.map_eq_some_iff.mp hx
  simp [hl, State.mustWait, hx]

theorem State.rangesFree_cached (hh : s.rangeHeld a n = false) : s.rangesFree [(a, n)] = true := by
  simp [State.rangesFree, State.rangeReady_cached hc ha hn, hh]

end

/-! ## A command that ends after having read -/

theorem State.HitsOnly.now {s t : State} (h : s.HitsOnly t) (l : Loc) : t.now l = s.now l := by
  have hraw := (h.arrayKept (fun _ => False) l fun _ hx => hx.elim).1
  simp only [State.now, h.held, hraw]

section
variable {s u : State} {d pos : Nat} {c : Cmd} (hu : u.draws = s.draws)
include hu

theorem State.cmd_congr : u.cmd d pos = s.cmd d pos := by simp only [State.cmd, State.drawer, hu]

/-- A fresh command whose checks pass and read memory does its work on what they leave. -/
theorem State.fresh.runCmd_read {o : Op} (h : s.fresh d pos o c) {again : Bool} {check : State → Cmd → Option Status × State}
    (work : State → Cmd → State) (hk : check s c = (none, u)) : s.runCmd d pos o again check work = work u c := by
  obtain ⟨hc, hp, -, -, -, ha⟩ := id h
  have ha' : u.isArmed d pos = false := by
    rw [← ha]
    simp only [State.isArmed, State.drawer, hu]
  simp only [State.runCmd, h.due, hp, if_true, hk, ha', (State.cmd_congr hu).trans hc, Option.getD_some, Bool.false_eq_true, if_false]

/-- Of the commands only the one that ends has changed. -/
theorem State.onlyCmd_finish (h : s.cmd d pos = some c) (st : Status) (a b : Nat) :
    OnlyCmd s (u.finish d c st a b) d pos (c.ended st a b) := by
  have hpos := State.cmd_pos h
  have hdr (e : Nat) : u.drawer e = s.drawer e := by simp only [State.drawer, hu]
  have hown : (u.finish d c st a b).drawer d = { s.drawer d with
      cmds := (s.drawer d).cmds.map fun x => if x.pos = c.pos then c.ended st a b else x } :=
    hdr d ▸ Tab.get_set_same _ _ _ _
  refine ⟨State.cmd_finish ((State.cmd_congr hu).trans h) hpos st a b, fun p hp => ?_, fun e he => ?_, ?_⟩
  · have hfind : ((fun x : Cmd => x.pos == p) ∘ fun x => if x.pos = c.pos then c.ended st a b else x) = fun x => x.pos == p := by
      funext x
      by_cases hx : x.pos = c.pos
      · have hend : (c.ended st a b).pos = c.pos := rfl
        simp [hx, hend]
      · simp [hx]
    rw [State.cmd, State.cmd, hown, List.find?_map, hfind]
    cases hf : (s.drawer d).cmds.find? fun x => x.pos == p with
    | none => rfl
    | some x =>
      have hx : x.pos = p := by simpa using List.find?_some hf
      rw [Option.map_some, if_neg (by rw [hx, hpos]; exact hp)]
  · rw [State.drawer_finish_other _ _ _ _ _ he, hdr]
  · rw [hown]

end

end Sys2Proof.Machine
end

section
/-!
PROOF of O26: LOAD_KERNEL.
-/

namespace Sys2Proof.Machine

/-! ## The header is read first (R77) -/

theorem imageField_take (bs : List Byte) {m off k : Nat} (h : off + k ≤ m) : imageField (bs.take m) off k = imageField bs off k := by
  rw [imageField, List.drop_take, List.take_take, Nat.min_eq_left (by omega), imageField]

theorem headerOk_take (bs : List Byte) : headerOk (bs.take 64) = headerOk bs := by
  simp (disch := decide) only [headerOk, imageField_take]

theorem imageOk_header {bs : List Byte} (h : imageOk bs = true) : headerOk bs = true := by
  simp only [imageOk, Bool.and_eq_true, and_assoc] at h
  exact h.1

/-- R77 item 1: an image has at most 256 bundles. -/
theorem bundles_le {bs : List Byte} (h : headerOk bs = true) : (kernelOf bs).bundles.length ≤ 256 := by
  simp only [headerOk, Bool.and_eq_true, decide_eq_true_eq, and_assoc] at h
  obtain ⟨-, -, hk, -⟩ := h
  simpa [kernelOf] using hk

/-! ## AV_KSLOTn (Table 3-12) -/

/-- The fields of AV_KSLOTn for a kernel that is there. -/
def kslotFields (k : Kernel) (crc : Nat) : List (Fld × Nat) :=
  [(F.AV_KSLOT_KLEN, k.bundles.length), (F.AV_KSLOT_BODY_LEN, k.bodyLen), (F.AV_KSLOT_PRE_LEN, k.preLen),
    (F.AV_KSLOT_STAGES_M1, k.stages - 1), (F.AV_KSLOT_EFF_II, k.effII), (F.AV_KSLOT_KCRC, crc), (F.AV_KSLOT_LOADING, 1)]

/-- AV_KSLOTn shows a kernel. -/
def State.showKernel (s : State) (n : Nat) (k : Kernel) (crc : Nat) : State :=
  (kslotFields k crc).foldl (fun s e => s.put e.1 n e.2) s

section
variable (s : State) (n : Nat) (k : Kernel) (crc : Nat)

theorem State.showKernel_eq : s.showKernel n k crc = { s with regs := (s.showKernel n k crc).regs } :=
  foldl_keeps (P := fun t : State => t = { s with regs := t.regs })
    (fun _ e h => congrArg (fun t : State => t.put e.1 n e.2) h) _ s rfl

theorem State.showKernel_regs : RegsBut s (s.showKernel n k crc) fun o => o = Reg.offset .AV_KSLOT n := by
  simp only [State.showKernel, kslotFields, List.foldl_cons, List.foldl_nil]
  iterate 7 refine RegsBut.setReg ?_ _ _ _ rfl
  exact RegsBut.refl _ _

theorem State.showKernel_flds : (s.showKernel n k crc).fld F.AV_KSLOT_KLEN n = k.bundles.length % 2 ^ 9 ∧
    (s.showKernel n k crc).fld F.AV_KSLOT_KCRC n = crc % 2 ^ 16 ∧ (s.showKernel n k crc).fld F.AV_KSLOT_LOADING n = 1 := by
  simp (disch := decide) only [State.showKernel, kslotFields, List.foldl_cons, List.foldl_nil, fld_put_field, fld_put_same]
  exact ⟨rfl, rfl, rfl⟩

end

/-! ## The command -/

/-- A kernel stands in a slot, and the slot's register shows it. -/
def State.withKernel (v : State) (n : Nat) (bs : List Byte) : State :=
  (v.setKernel n (some (kernelOf bs))).showKernel n (kernelOf bs) (crc16 0 bs).toNat

theorem State.withKernel_eq (v : State) (n : Nat) (bs : List Byte) : v.withKernel n bs =
    { v with
      regs := (v.withKernel n bs).regs
      anv := { v.anv with kernels := (v.withKernel n bs).anv.kernels } } := by
  have h := State.showKernel_eq (v.setKernel n (some (kernelOf bs))) n (kernelOf bs) (crc16 0 bs).toNat
  rw [State.withKernel]
  generalize State.showKernel _ _ _ _ = w at h ⊢
  rw [h]
  rfl

theorem State.kernel_withKernel (v : State) (n : Nat) (bs : List Byte) (j : Nat) :
    (v.withKernel n bs).kernel j = if j = n then some (kernelOf bs) else v.kernel j := by
  have h : (v.withKernel n bs).anv.kernels = Tab.set (fun _ => none) v.anv.kernels n (some (kernelOf bs)) := by
    rw [State.withKernel, State.showKernel_eq]
    rfl
  rw [State.kernel, h]
  split
  case isTrue hj => exact hj ▸ Tab.get_set_same _ _ _ _
  case isFalse hj => exact Tab.get_set_other _ _ _ _ _ hj

theorem State.withKernel_regs (v : State) (n : Nat) (bs : List Byte) :
    RegsBut v (v.withKernel n bs) fun o => o = Reg.offset .AV_KSLOT n :=
  (v.setKernel n (some (kernelOf bs))).showKernel_regs n (kernelOf bs) _

theorem State.withKernel_flds (v : State) (n : Nat) {bs : List Byte} (h : headerOk bs = true) :
    (v.withKernel n bs).fld F.AV_KSLOT_KLEN n = (kernelOf bs).bundles.length % 1024 ∧
      (v.withKernel n bs).fld F.AV_KSLOT_KCRC n = (crc16 0 bs).toNat ∧ (v.withKernel n bs).fld F.AV_KSLOT_LOADING n = 1 := by
  obtain ⟨hklen, hkcrc, hload⟩ := (v.setKernel n (some (kernelOf bs))).showKernel_flds n (kernelOf bs) (crc16 0 bs).toNat
  have hle := bundles_le h
  refine ⟨hklen.trans ?_, hkcrc.trans (Nat.mod_eq_of_lt (crc16 0 bs).isLt), hload⟩
  omega

section
variable {d n : Nat} {c : Cmd} {ds : List SectorBits} {bs : List Byte} {s : State} (ha : c.arg 1 0 44 % 64 = 0)
  (hbs : bs = (ds.flatMap (bytesOf 64)).take n) (hds : ds.length = (n + 63) / 64) (hc : s.cached (c.arg 1 0 44) ds)
  (hlen : imageBytes (imageField bs 2 2) = n)
include hlen

theorem image_length : 320 ≤ n := by
  rw [← hlen, imageBytes]
  exact Nat.le_add_right _ _

theorem imageBytes_header : imageBytes (imageField (bs.take 64) 2 2) = n := by rw [imageField_take bs (by omega), hlen]

include ha hbs hds hc

/-! The header, which is read first, gives the image's length. -/

theorem readMem_header {t : State} (h : s.HitsOnly t) (part : Nat) :
    ∃ u, t.readMem (c.arg 1 0 44) 64 part = (bs.take 64, .ok, u) ∧ s.HitsOnly u := by
  have hn := image_length hlen
  obtain ⟨u, hu, hhits⟩ := State.readMem_cached hc ha (n := 64) (by omega) h part
  refine ⟨u, ?_, hhits⟩
  rw [hu, hbs, List.take_take, Nat.min_eq_left (by omega)]

theorem imageReady_cached (hh : s.rangeHeld (c.arg 1 0 44) n = false) : s.imageReady d (c.arg 1 0 44) = true := by
  have hn := image_length hlen
  obtain ⟨u, hu, -⟩ := readMem_header ha hbs hds hc hlen (.refl s) d
  rw [State.imageReady, hu, imageBytes_header hlen, State.rangesFree_cached hc ha (by omega) (State.rangeHeld_of_le (by omega) hh),
    State.rangesFree_cached hc ha hds.ge hh]
  rfl

theorem loadCheck_passes (hok : imageOk bs = true) (hw : s.badWindow (c.arg 1 0 44) n = false)
    (hf : s.foreign d (c.arg 1 0 44) n = false) : ∃ u, s.loadCheck d c = (none, u) ∧ s.HitsOnly u := by
  have hn := image_length hlen
  have hlow : 64 ≤ n := by omega
  obtain ⟨u, hu, hhits⟩ := readMem_header ha hbs hds hc hlen (.refl s) d
  obtain ⟨v, hv, hhits'⟩ := State.readMem_cached hc ha hds.ge hhits d
  rw [← hbs] at hv
  have hhead : headerOk (bs.take 64) = true := (headerOk_take bs).trans (imageOk_header hok)
  have hfirst := RegsBut.rangeChecks (d := d) (RegsBut.refl s HitRegs) (by omega) (State.badWindow_of_le hlow hw)
    (State.foreign_of_le hlow hf)
  have hwhole := RegsBut.rangeChecks (d := d) hhits.regs (by omega) hw hf
  refine ⟨v, ?_, hhits'⟩
  unfold State.loadCheck
  simp [ha, hfirst, hu, hhead, imageBytes_header hlen, hwhole, hv, hok]

theorem loadImage_withKernel {t : State} (h : s.HitsOnly t) : ∃ v, t.loadImage d c =
    (v.withKernel (c.arg 1 44 4) bs).finish d c .ok 0 (crc16 0 bs).toNat ∧ s.HitsOnly v := by
  obtain ⟨u, hu, -⟩ := readMem_header ha hbs hds hc hlen h d
  obtain ⟨v, hv, hhits⟩ := State.readMem_cached hc ha hds.ge h d
  rw [← hbs] at hv
  refine ⟨v, ?_, hhits⟩
  unfold State.loadImage
  simp only [hu, imageBytes_header hlen, hv]
  rfl

/-- The slot holds the image, and of the rest only what reading the image leaves has changed. -/
theorem exec_loadKernel_cached {pos : Nat} (hfresh : s.fresh d pos .loadKernel c) (hused : s.slotUsed c.order (c.arg 1 44 4) = false)
    (hloading : s.slotLoading c.order (c.arg 1 44 4) = false) (hok : imageOk bs = true)
    (hw : s.badWindow (c.arg 1 0 44) n = false) (hf : s.foreign d (c.arg 1 0 44) n = false) (hdrain : s.life.drain = none)
    (hh : s.rangeHeld (c.arg 1 0 44) n = false) : ∃ v, exec (.loadKernel d pos) s =
      .next ((v.withKernel (c.arg 1 44 4) bs).finish d c .ok 0 (crc16 0 bs).toNat) ∧ s.HitsOnly v := by
  obtain ⟨u, hcheck, hu⟩ := loadCheck_passes ha hbs hds hc hlen hok hw hf
  obtain ⟨v, hload, hv⟩ := loadImage_withKernel (d := d) ha hbs hds hc hlen hu
  refine ⟨v, ?_, hv⟩
  change execLoadKernel d pos s = _
  unfold execLoadKernel
  simp only [hfresh.due, hused, hloading, imageReady_cached (d := d) ha hbs hds hc hlen hh, hdrain, Bool.not_true, Option.isSome_none,
    Bool.or_self, Bool.false_eq_true, if_false]
  rw [hfresh.runCmd_read hu.draws _ hcheck, hload]

end

/-- Settles O26: reading an image that the slices hold counts hits alone (`readMem_cached`), so that the checks pass and the
image lands in its slot. -/
theorem kernelLoads : Obligations.KernelLoads := by
  unfold Obligations.KernelLoads
  rintro d pos _ _ n c ds bs s hfresh rfl rfl ha hbs hds hused hloading - hc hok hlen hw hf hdrain hh
  obtain ⟨v, hexec, hv⟩ := exec_loadKernel_cached ha hbs hds hc hlen hfresh hused hloading hok hw hf hdrain hh
  have hrest := v.withKernel_eq (c.arg 1 44 4) bs
  have hkernel := v.kernel_withKernel (c.arg 1 44 4) bs
  have hregs := v.withKernel_regs (c.arg 1 44 4) bs
  obtain ⟨hklen, hkcrc, hshown⟩ := v.withKernel_flds (c.arg 1 44 4) (imageOk_header hok)
  generalize v.withKernel (c.arg 1 44 4) bs = w at *
  have hdraws : w.draws = s.draws := by rw [hrest]; exact hv.draws
  have hfld (f : Fld) := State.fld_congr (w.finish_regs d c .ok 0 (crc16 0 bs).toNat) f (c.arg 1 44 4)
  refine ⟨_, hexec, State.onlyCmd_finish hdraws hfresh.1 _ _ _, ?_, fun j hj => ?_, (hfld _).trans hklen, (hfld _).trans hkcrc,
    (hfld _).trans hshown, RegsBut.congr (w.finish_regs ..) fun dflt o ho => ?_, ?_, fun l => ?_, ?_, ?_, ?_, ?_⟩
  · rw [State.kernel, State.finish_anv, ← State.kernel, hkernel, if_pos rfl]
  · rw [State.kernel, State.finish_anv, ← State.kernel, hkernel, if_neg hj, State.kernel, hv.anv, State.kernel]
  · obtain ⟨hslot, hhit⟩ := not_or.mp ho
    exact (hregs dflt o hslot).trans (hv.regs dflt o hhit)
  · rw [hrest]
    exact hv.arrayKept _
  · rw [hrest]
    exact hv.now l
  · rw [hrest, State.finish_anv, ← hv.anv]
  · rw [hrest, State.finish_anv, ← hv.anv]
  · rw [hrest]
    exact hv.ports
  · rw [hrest, State.finish_pl, hv.rest]

end Sys2Proof.Machine
end

section
/-!
PROOF of O27's negation: a tensor list whose read resets a channel.
-/

namespace Sys2Proof.Machine

namespace BadList

/-- A kernel without streams: each entry of its tensor lists is one sector. -/
def kernel : Kernel := ⟨0, 1, 1, 0, 0, [], []⟩

/-- An UPDATE of Drawer 0 with kernel slot 0: a list of one entry and one scalar set, both at address 0. -/
def update : Cmd :=
  { pos := 9, words := [0x20, BitVec.ofNat 64 (2 ^ 44), BitVec.ofNat 64 (2 ^ 44), 0], phase := .started, status := .ok, detail := 0,
    result := 0, late := false, order := 5, seed := 0, armedClose := false, lostEntry := false, holds := [], portStatus := none,
    soft := .ok, grants := Fld.into F.PA_CFG_KGRANT 0 1, gone := false, lostRing := false, queuedOn := [] }

/-- One stack with channel 0 in service, where the list lies.  Two bits of the list's first word are in error, and a Planisher unit of the
channel shows the error flag of R140. -/
def state : State :=
  { State.reset with
    regs := [(Reg.offset .MW_CONFIG 0, 0x3000001), (Reg.offset .CE_STATE 0, 0)]
    mem := { Mem.reset with dram := [(0, 3)] }
    draws := { Draws.reset with drawer := [(0, { Drawer.empty with cmds := [update] })] }
    anv := { Anvs.reset with kernels := [(0, some kernel)] }
    pl := [(0, { PUnit.empty with err := true })] }

theorem fresh : state.fresh 0 9 .update update := by
  unfold State.fresh
  decide +kernel

theorem listReady : state.listReady .update update = true := by decide +kernel

theorem refused : (state.smithCheck 0 .update update).1 = .refused .dataFault 0 := by decide +kernel

/-- The reset of the channel (R240) has cleared the unit. -/
theorem units_cleared : (state.startUpdate 0 9 .update).pl = [] := by decide +kernel

end BadList

/-- Refutes O27 in its clause on a refused command: reading a list with an uncorrectable word resets the channel (R239), and the reset
clears the channel's Planisher units, while the clause says that the units are as they were. -/
theorem not_runsAndEntriesStart : ¬ Obligations.RunsAndEntriesStart := by
  unfold Obligations.RunsAndEntriesStart
  rintro ⟨⟨-, hrefused⟩, -⟩
  obtain ⟨t, ht, -, -, -, hpl⟩ := hrefused .update (.update 0 9) 0 9 0 .dataFault BadList.update BadList.state (.inl ⟨rfl, rfl⟩)
    BadList.fresh (by decide +kernel) BadList.listReady BadList.refused
  have hnext : t = BadList.state.startUpdate 0 9 .update := (Host.Outcome.next.inj ht).symm
  rw [hnext, BadList.units_cleared] at hpl
  cases hpl

end Sys2Proof.Machine
end

section
/-!
SUPPORT. The Drawers' commands after one of them has changed.
-/

namespace Sys2Proof.Machine

section
variable (s : State) (d : Nat) (x : Cmd)

theorem State.drawer_setCmd_same : (s.setCmd d x).drawer d =
    { s.drawer d with cmds := (s.drawer d).cmds.map fun c => if c.pos = x.pos then x else c } := Tab.get_set_same _ _ _ _

theorem State.cmd_setCmd_eq (e p : Nat) :
    (s.setCmd d x).cmd e p = if e = d ∧ p = x.pos then (s.cmd e p).map fun _ => x else s.cmd e p := by
  by_cases he : e = d
  · subst he
    have hfind : ((fun c : Cmd => c.pos == p) ∘ fun c => if c.pos = x.pos then x else c) = fun c => c.pos == p := by
      funext c
      by_cases hc : c.pos = x.pos <;> simp [hc]
    rw [State.cmd, State.drawer_setCmd_same, List.find?_map, hfind]
    change (s.cmd e p).map _ = _
    cases hf : s.cmd e p with
    | none => simp
    | some c =>
      rw [Option.map_some, State.cmd_pos hf]
      by_cases hp : p = x.pos <;> simp [hp]
  · rw [if_neg fun h => he h.1, State.cmd, State.drawer_setCmd_other _ _ he, State.cmd]

theorem State.cmd_finish_eq (st : Status) (a b e p : Nat) : (s.finish d x st a b).cmd e p =
    if e = d ∧ p = x.pos then (s.cmd e p).map fun _ => x.ended st a b else s.cmd e p := s.cmd_setCmd_eq d (x.ended st a b) e p

end

/-- Where nothing else in the Drawers has changed, a command that takes new contents is the only one that has changed. -/
theorem State.onlyCmd_setCmd {s u : State} {d pos : Nat} {c x : Cmd} (hu : u.draws.drawer = s.draws.drawer) (h : s.cmd d pos = some c)
    (hx : x.pos = pos) : OnlyCmd s (u.setCmd d x) d pos x := by
  have hdrawer (e : Nat) : u.drawer e = s.drawer e := by simp only [State.drawer, hu]
  have hcmd (e p : Nat) : u.cmd e p = s.cmd e p := by simp only [State.cmd, hdrawer]
  refine ⟨?_, fun p hp => ?_, fun e he => ?_, ?_⟩
  · rw [State.cmd_setCmd_eq, if_pos ⟨rfl, hx.symm⟩, hcmd, h, Option.map_some]
  · rw [State.cmd_setCmd_eq, if_neg fun hp' => hp (hp'.2.trans hx), hcmd]
  · rw [State.drawer_setCmd_other _ _ he, hdrawer]
  · rw [State.drawer_setCmd_same, hdrawer]

theorem State.onlyCmd_ended {s u : State} {d pos : Nat} {c : Cmd} (hu : u.draws.drawer = s.draws.drawer) (h : s.cmd d pos = some c)
    (st : Status) (a b : Nat) : OnlyCmd s (u.finish d c st a b) d pos (c.ended st a b) :=
  State.onlyCmd_setCmd (x := c.ended st a b) hu h (show c.pos = pos from State.cmd_pos h)

/-- The command that waits for something ends, if it is still there. -/
def State.endCmd (s : State) (who : Option (Nat × Nat)) (st : Status) (result : Nat) : State := match who with
  | some (d, pos) => match s.cmd d pos with
    | some c => s.finish d c st 0 result
    | none => s
  | none => s

section
variable (s : State) (who : Option (Nat × Nat)) (st : Status) (result : Nat)

theorem State.endCmd_eq : s.endCmd who st result =
    { s with draws := { s.draws with drawer := (s.endCmd who st result).draws.drawer } } := by
  unfold State.endCmd
  split
  · split <;> rfl
  · rfl

theorem State.cmd_endCmd (d p : Nat) : (s.endCmd who st result).cmd d p =
    if who = some (d, p) then (s.cmd d p).map fun c => c.ended st 0 result else s.cmd d p := by
  unfold State.endCmd
  split
  case h_2 => simp
  case h_1 e q =>
    split
    case h_2 hnone =>
      split
      · next h => cases h; simp [hnone]
      · rfl
    case h_1 c hc =>
      have hq := State.cmd_pos hc
      rw [State.cmd_finish_eq, hq]
      by_cases h : d = e ∧ p = q
      · obtain ⟨rfl, rfl⟩ := h
        simp [hc]
      · rw [if_neg h, if_neg]
        rintro ⟨⟩
        exact h ⟨rfl, rfl⟩

end

end Sys2Proof.Machine
end

section
/-!
PROOF of O25: buckets.
-/

namespace Sys2Proof.Machine

theorem pureCheck_passes {f : State → Cmd → List (Bool × Status)} {s : State} {c : Cmd} (h : ∀ e ∈ f s c, e.1 = false) :
    pureCheck f s c = (none, s) := by rw [pureCheck, firstFail_eq_none.mpr h]

/-! ## BUCKET_OPEN (R83, R91) -/

theorem exec_bucketOpen {d pos : Nat} {c : Cmd} {s : State} (h : s.fresh d pos .bucketOpen c) (hk : ∀ e ∈ s.openChecks d c, e.1 = false)
    (hl : s.linesToSpill (c.arg 1 0 44) (openBucket c d 0 []).lines = []) : exec (.bucketOpen d pos) s = .next (
      ({ s.put F.AV_BKT_SEQ_NEXT_SEQ 0 (s.fld F.AV_BKT_SEQ_NEXT_SEQ 0 + 1) with draws := { s.draws with
        buckets := s.draws.buckets ++ [openBucket c d (s.fld F.AV_BKT_SEQ_NEXT_SEQ 0) []] } } : State).finish d c .ok 0
          (s.fld F.AV_BKT_SEQ_NEXT_SEQ 0)) := by
  change execBucketOpen d pos s = _
  rw [execBucketOpen, h.runCmd _ (pureCheck_passes hk)]
  simp only [hl]
  rfl

/-! ## Finding a bucket -/

theorem State.bucketBase_base {s : State} {a : Nat} {b : Bucket} (h : s.bucketBase a = some b) : b.base = a :=
  beq_iff_eq.mp (List.find?_some (p := fun b : Bucket => b.base == a) h)

theorem State.bucketBase_setBucket (s : State) (b : Bucket) (a : Nat) :
    (s.setBucket b).bucketBase a = if a = b.base then (s.bucketBase a).map fun _ => b else s.bucketBase a := by
  have hfind : ((fun x : Bucket => x.base == a) ∘ fun x => if x.base = b.base then b else x) = fun x => x.base == a := by
    funext x
    by_cases hx : x.base = b.base <;> simp [hx]
  have hmap : (s.setBucket b).bucketBase a = (s.bucketBase a).map fun x => if x.base = b.base then b else x := by
    change (s.draws.buckets.map _).find? _ = _
    rw [List.find?_map, hfind]
    rfl
  rw [hmap]
  cases hf : s.bucketBase a with
  | none => simp
  | some x =>
    rw [Option.map_some, State.bucketBase_base hf]
    split <;> rfl

theorem State.bucketBase_setBucket_same {s : State} {a : Nat} {b b' : Bucket} (h : s.bucketBase a = some b) (hb : b'.base = a) :
    (s.setBucket b').bucketBase a = some b' := by
  rw [State.bucketBase_setBucket, if_pos hb.symm, h, Option.map_some]

/-! ## BUCKET_CLOSE and BUCKET_DISCARD (R84, R93) -/

/-- R93: what a close does to a bucket that no close waits for. -/
def State.closeBucket (s : State) (d pos : Nat) (c : Cmd) (b : Bucket) : State := match b.st with
  | .opened =>
    if c.argBit 1 44 then (s.running d c).setBucket
      { b with closer := some (d, pos), st := .complete, sweeping := true, short := decide (b.arrived < b.full) }
    else (s.setCmd d { c with phase := .running, armedClose := true }).setBucket { b with closer := some (d, pos) }
  | .complete => (s.running d c).setBucket { b with closer := some (d, pos), sweeping := true }
  | .closed | .inUse => s.finish d c .ok 0 b.arrived

section
variable {d pos : Nat} {c : Cmd} {b : Bucket} {s : State} (hb : s.bucketBase (c.arg 1 0 44) = some b) (ho : d = 0 ∨ b.owner = d)
include hb ho

/-- A bucket that the Drawer owns passes the first checks. -/
theorem bucketChecks_pass {bad : Bool} (hbad : bad = false) : ∀ e ∈ s.bucketChecks d (c.arg 1 0 44) ++ [(bad, .badArg)], e.1 = false := by
  rw [State.bucketChecks, hb]
  rcases ho with h | h <;> simp [h, hbad]

section
variable (h : s.fresh d pos .bucketClose c) (hn : b.closer = none)
include h hn

theorem exec_bucketClose : exec (.bucketClose d pos) s = .next (s.closeBucket d pos c b) := by
  change execBucketClose d pos s = _
  have hcloser : (match s.bucketBase (c.arg 1 0 44) with
      | some b => b.closer.isSome
      | none => false) = false := by rw [hb]; simp [hn]
  rw [execBucketClose, h.runCmd _ (pureCheck_passes (bucketChecks_pass hb ho hcloser)), hb]
  rfl

omit ho hn in
/-- The command takes new contents and the bucket too. -/
theorem bucketClose_waits {x : Cmd} {b' : Bucket} (hx : x.pos = c.pos) (hb' : b'.base = b.base)
    (he : exec (.bucketClose d pos) s = .next ((s.setCmd d x).setBucket b')) : ∃ t, exec (.bucketClose d pos) s = .next t ∧
      OnlyCmd s t d pos x ∧ t.bucketBase (c.arg 1 0 44) = some b' :=
  ⟨_, he, State.onlyCmd_setCmd rfl h.1 (hx.trans (State.cmd_pos h.1)),
    State.bucketBase_setBucket_same (s := s.setCmd d x) hb (hb'.trans (State.bucketBase_base hb))⟩

end

theorem exec_bucketDiscard (h : s.fresh d pos .bucketDiscard c) (hu : b.st ≠ .inUse) : exec (.bucketDiscard d pos) s =
    .next (((s.endCmd b.closer .badArg 0).freeBucket b.base).finish d c .ok 0 0) := by
  change execBucketDiscard d pos s = _
  have huse : (match s.bucketBase (c.arg 1 0 44) with
      | some b => b.st == .inUse
      | none => false) = false := by rw [hb]; simpa using hu
  rw [execBucketDiscard, h.runCmd _ (pureCheck_passes (bucketChecks_pass hb ho huse)), hb]
  rfl

/-- The close that waits for a discarded bucket ends with BAD_ARG (log 45), the discard with OK, and no other command changes. -/
theorem bucketDiscard_frees (h : s.fresh d pos .bucketDiscard c) (hu : b.st ≠ .inUse) :
    ∃ t, exec (.bucketDiscard d pos) s = .next t ∧ t.cmd d pos = some (c.ended .ok 0 0) ∧
      (b.closer ≠ some (d, pos) → (b.closer.bind fun e => t.cmd e.1 e.2) =
        b.closer.bind fun e => (s.cmd e.1 e.2).map fun x => x.ended .badArg 0 0) ∧
      (∀ e p, (e, p) ≠ (d, pos) → b.closer ≠ some (e, p) → t.cmd e p = s.cmd e p) ∧
      t.draws.buckets = s.draws.buckets.filter (fun x => x.base != c.arg 1 0 44) ∧
      t = { s with draws := { s.draws with drawer := t.draws.drawer, buckets := t.draws.buckets } } := by
  have hcmd (e p : Nat) : (((s.endCmd b.closer .badArg 0).freeBucket b.base).finish d c .ok 0 0).cmd e p =
      if e = d ∧ p = pos then ((s.endCmd b.closer .badArg 0).cmd e p).map fun _ => c.ended .ok 0 0
      else if b.closer = some (e, p) then (s.cmd e p).map fun x => x.ended .badArg 0 0 else s.cmd e p := by
    rw [State.cmd_finish_eq, State.cmd_pos h.1, ← State.cmd_endCmd]
    rfl
  refine ⟨_, exec_bucketDiscard hb ho h hu, ?_, fun hne => ?_, fun e p hep hne => ?_, ?_, ?_⟩
  · rw [hcmd, if_pos ⟨rfl, rfl⟩, State.cmd_endCmd, h.1]
    split <;> rfl
  · cases hw : b.closer with
    | none => rfl
    | some e =>
      rw [hw] at hne hcmd
      change State.cmd _ e.1 e.2 = _
      rw [hcmd, if_neg fun h => hne (congrArg some (Prod.ext h.1 h.2)), if_pos rfl]
      rfl
  · rw [hcmd, if_neg fun h => hep (Prod.ext h.1 h.2), if_neg hne]
  · rw [State.finish_buckets, ← State.bucketBase_base hb, State.freeBucket, State.endCmd_eq]
  · rw [State.freeBucket, State.endCmd_eq]
    rfl

end

/-! ## BUCKET_CLOSE_SWEEP_DONE (R94, R95) -/

section
variable {b : Bucket} {s : State} (hsp : b.spilled = [])
include hsp

theorem State.bucketElem_reserved (i : Nat) : (s.bucketElem b i).2 = (.ok, s) := by
  simp only [State.bucketElem, hsp]
  split <;> rfl

/-- A sweep of reserved lines reads nothing from memory and meets no lost word. -/
theorem State.sweep_reserved (hall : ∀ x ∈ s.draws.buckets, x.spilled = []) :
    (s.sweep b).2 = s ∧ (s.sweep b).1.lost = false ∧ (s.sweep b).1.corrected = false := by
  have hfills : s.countFills b.base b.extent = s := by
    rw [State.countFills, if_pos (List.all_eq_true.mpr fun x hx => by simp [hall x hx])]
  rw [State.sweep, hfills]
  refine foldl_keeps (P := fun acc : Sweep × State => acc.2 = s ∧ acc.1.lost = false ∧ acc.1.corrected = false)
    (fun acc i ⟨hs, hl, hc⟩ => ?_) _ _ ⟨rfl, rfl, rfl⟩
  obtain ⟨hst, hu⟩ := Prod.ext_iff.mp (State.bucketElem_reserved (s := acc.2) hsp i)
  refine ⟨hu.trans hs, ?_, ?_⟩
  · simpa [sweepElem, hst] using hl
  · simpa [sweepElem, hst] using hc

end

/-- What the end of a sweep shows in AV_ASSAY_STAT where a sum of squares has saturated. -/
def State.ssqSat (s : State) (sat : Bool) : State := s.when sat fun s => (s.put F.AV_ASSAY_STAT_SSQ_SAT 0 1).raise .assaySat

section
variable (s : State) (sat : Bool)

theorem State.ssqSat_eq : s.ssqSat sat = { s with regs := (s.ssqSat sat).regs } := by cases sat <;> rfl

theorem State.ssqSat_regs : RegsBut s (s.ssqSat sat) fun o => o = Reg.offset .AV_ASSAY_STAT 0 ∨ o = Reg.offset .MW_IRQ_CAUSE 0 := by
  cases sat
  · exact RegsBut.refl _ _
  · exact ((RegsBut.refl _ _).setReg _ _ _ (.inl rfl)).setReg _ _ _ (.inr rfl)

end

/-- The bucket at the end of its sweep. -/
def Bucket.swept (b : Bucket) : Bucket := { b with st := .closed, sweeping := false, closer := none }

section
variable {b : Bucket} {s : State} (hsp : b.spilled = []) (hres : b.result = 0) (hall : ∀ x ∈ s.draws.buckets, x.spilled = [])
include hsp hres hall

theorem State.closeSweep_reserved : s.closeSweep b = (b.swept, (s.ssqSat (s.sweep b).1.sat).setBucket b.swept) := by
  obtain ⟨hs, hl, hc⟩ := State.sweep_reserved hsp hall
  simp only [State.closeSweep, Bucket.swept, hs, hl, hc, hres, if_true, Bool.or_false]
  rfl

variable {base : Nat} (hb : s.bucketBase base = some b) (hsw : b.sweeping = true)
include hb hsw

theorem exec_bucketCloseSweepDone : exec (.bucketCloseSweepDone base) s =
    .next (((s.ssqSat (s.sweep b).1.sat).setBucket b.swept).endCmd b.closer b.status b.arrived) := by
  change execBucketCloseSweepDone base s = _
  have hready : s.spilledReady b 0 b.lines = true := by rw [State.spilledReady, hsp]; rfl
  unfold execBucketCloseSweepDone
  simp only [hb, hsw, hready, State.closeSweep_reserved hsp hres hall]
  rfl

theorem bucketCloseSweepDone_closes : ∃ t, exec (.bucketCloseSweepDone base) s = .next t ∧ t.bucketBase base = some b.swept ∧
    (∀ x, x ≠ base → t.bucketBase x = s.bucketBase x) ∧
    (b.closer.bind fun e => t.cmd e.1 e.2) = (b.closer.bind fun e => (s.cmd e.1 e.2).map fun c => c.ended b.status 0 b.arrived) ∧
    (∀ d p, b.closer ≠ some (d, p) → t.cmd d p = s.cmd d p) ∧
    t.mem = s.mem ∧ t.ports = s.ports ∧ t.anv = s.anv ∧ t.pl = s.pl ∧ t.power = s.power ∧
    RegsBut s t (fun o => o = Reg.offset .AV_ASSAY_STAT 0 ∨ o = Reg.offset .MW_IRQ_CAUSE 0) := by
  have hbase : b.swept.base = base := show b.base = base from State.bucketBase_base hb
  have hexec := exec_bucketCloseSweepDone hsp hres hall hb hsw
  have hsat := s.ssqSat_eq (s.sweep b).1.sat
  have hregs := s.ssqSat_regs (s.sweep b).1.sat
  generalize s.ssqSat (s.sweep b).1.sat = u at *
  have hrest := (u.setBucket b.swept).endCmd_eq b.closer b.status b.arrived
  have hended := (u.setBucket b.swept).cmd_endCmd b.closer b.status b.arrived
  generalize (u.setBucket b.swept).endCmd b.closer b.status b.arrived = t at *
  have hbucket (x : Nat) : t.bucketBase x = (s.setBucket b.swept).bucketBase x := by
    rw [hrest, hsat]
    rfl
  have hcmd (d p : Nat) : t.cmd d p = if b.closer = some (d, p) then (s.cmd d p).map fun c => c.ended b.status 0 b.arrived
      else s.cmd d p := by
    rw [hended, hsat]
    rfl
  have hkept : t = { s with
      regs := u.regs
      draws := { s.draws with drawer := t.draws.drawer, buckets := (s.setBucket b.swept).draws.buckets } } :=
    hrest.trans (by rw [hsat]; rfl)
  refine ⟨t, hexec, ?_, fun x hx => ?_, ?_, fun d p hne => ?_, ?_⟩
  · rw [hbucket, State.bucketBase_setBucket_same hb hbase]
  · rw [hbucket, State.bucketBase_setBucket, if_neg fun h => hx (h.trans hbase)]
  · cases hw : b.closer with
    | none => rfl
    | some e =>
      change t.cmd e.1 e.2 = _
      rw [hcmd, if_pos hw]
      rfl
  · rw [hcmd, if_neg hne]
  · rw [hkept]
    exact ⟨rfl, rfl, rfl, rfl, rfl, hregs.congr rfl⟩

end

/-- Settles O25, clause by clause.  FORCE shows COMPLETE while its sweep runs (log 44), and the close of a discarded bucket ends with
BAD_ARG (log 45). -/
theorem bucketsOpenAndClose : Obligations.BucketsOpenAndClose := by
  unfold Obligations.BucketsOpenAndClose
  refine ⟨⟨?opens, ?closes, fun d pos c b s h hb ho hu => bucketDiscard_frees hb ho h hu⟩,
    fun base b s hb _ hsw hsp hres hall => bucketCloseSweepDone_closes hsp hres hall hb hsw⟩
  case opens =>
    intro d pos c s h hk hl
    exact ⟨_, exec_bucketOpen h hk hl, State.onlyCmd_ended rfl h.1 _ _ _, rfl, reg_put_same _ F.AV_BKT_SEQ_NEXT_SEQ _ _,
      rfl, (RegsBut.refl s _).setReg _ _ _ rfl⟩
  case closes =>
    intro d pos c b s h hb ho hn
    have hexec := exec_bucketClose hb ho h hn
    refine ⟨fun hst hforce => ?_, fun hst hforce => ?_, fun hst => ?_, fun hst => ?_⟩
    · exact bucketClose_waits hb h rfl rfl (by simp only [hexec, State.closeBucket, hst, hforce]; rfl)
    · exact bucketClose_waits hb h rfl rfl (by simp only [hexec, State.closeBucket, hst, hforce]; rfl)
    · exact bucketClose_waits hb h rfl rfl (by rw [hexec, State.closeBucket, hst]; rfl)
    · have hdone : exec (.bucketClose d pos) s = .next (s.finish d c .ok 0 b.arrived) := by
        rcases hst with hst | hst <;> rw [hexec, State.closeBucket, hst]
      exact ⟨_, hdone, State.onlyCmd_ended rfl h.1 _ _ _, rfl⟩

end Sys2Proof.Machine
end

section
/-!
SUPPORT. What reads through the home slices leave alone, whatever the channels and the array hold: the Drawers, the queues of the ports,
the Anvils and GTC.
-/

namespace Sys2Proof.Machine

/-! ## Addresses are below 64 TiB (R210, R211, R215) -/

/-- The tiers so far begin below 1 TiB and have at most eight sites. -/
structure TiersLow (acc : List Tier × Nat × Nat) : Prop where
  bounded : TiersBounded acc
  each : ∀ t ∈ acc.1, t.base ≤ 2 ^ 40 ∧ t.sites.length ≤ 8

theorem TiersLow.step (s : State) {acc : List Tier × Nat × Nat} (h : TiersLow acc) {c : Nat} (hc : acc.2.2 ≤ c) (h15 : c ≤ 15) :
    TiersLow (s.tierStep acc c) := by
  obtain ⟨bounded, each⟩ := h
  refine ⟨bounded.step s hc h15, fun t ht => ?_⟩
  obtain ht | ht := List.mem_append.mp ht
  · exact each t ht
  · rw [List.mem_singleton.mp ht]
    refine ⟨?_, List.length_filter_le _ _⟩
    have hle := bounded.le
    change acc.2.1 ≤ 2 ^ 40
    omega

theorem TiersLow.foldl (s : State) (cs : List Nat) : ∀ acc : List Tier × Nat × Nat, TiersLow acc → cs.Pairwise (· < ·) →
    (∀ c ∈ cs, acc.2.2 ≤ c ∧ c ≤ 15) → TiersLow (cs.foldl s.tierStep acc) := by
  induction cs with
  | nil => exact fun _ h _ _ => h
  | cons c cs ih =>
    intro acc h hs hb
    obtain ⟨hlt, hs⟩ := List.pairwise_cons.mp hs
    obtain ⟨h1, h2⟩ := hb c List.mem_cons_self
    exact ih _ (h.step s h1 h2) hs fun x hx => ⟨(hlt x hx).le, (hb x (List.mem_cons_of_mem _ hx)).2⟩

theorem State.tiers_low (s : State) : ∀ t ∈ s.tiers, t.base ≤ 2 ^ 40 ∧ t.sites.length ≤ 8 := by
  have h : TiersLow (((List.range 16).filter fun c => c != 0 && (List.range 8).any fun t => s.siteCap t == c).foldl
      s.tierStep ([], 0, 0)) := by
    refine TiersLow.foldl s _ _ ⟨⟨rfl, Nat.zero_le _, Nat.zero_le _⟩, fun t ht => nomatch ht⟩ (List.pairwise_lt_range.filter _) fun c hc => ?_
    have := List.mem_range.mp (List.mem_of_mem_filter hc)
    exact ⟨Nat.zero_le _, by omega⟩
  exact h.each

theorem State.mendN_le (s : State) : s.mendN ≤ 8 := by
  unfold State.mendN
  split
  · next t ts ht => exact (s.tiers_low t (ht ▸ List.mem_cons_self)).2
  · exact Nat.zero_le _

/-- A sector that R211 gives an address lies at one of the positions of the largest stack, and its address is below 4 TiB. -/
theorem State.addrPlain_lt {s : State} {l : Loc} {a : Nat} (h : s.addrPlain l = some a) : l.m < 2 ^ 21 ∧ a < 2 ^ 42 := by
  obtain ⟨t, ht, h⟩ := List.exists_of_findSome?_eq_some h
  dsimp only at h
  split at h
  case h_2 => cases h
  case h_1 i hi =>
    split at h
    case isFalse => cases h
    case isTrue hm =>
      obtain ⟨hbase, hsites⟩ := s.tiers_low t ht
      have htop := (s.tiers_sane.1 t ht).top
      have hidx : i < t.sites.length := (List.findIdx?_eq_some_iff_findIdx_eq.mp hi).1
      obtain ⟨-, hm⟩ := hm
      change l.m < t.top at hm
      cases h
      have hrow : (l.m - t.low) * (32 * t.sites.length) ≤ 2 ^ 21 * (32 * 8) := Nat.mul_le_mul (by omega) (by omega)
      have hcol : l.n % 32 * t.sites.length ≤ 31 * 8 := Nat.mul_le_mul (by omega) hsites
      have hsec : l.sector < 32 := Nat.mod_lt _ (by decide)
      omega

theorem State.mendSites_length (s : State) : s.mendSites.length = s.mendN := by
  unfold State.mendSites State.mendN
  split <;> rfl

/-- R214: a unit of Mended granules has a size of at most 8 GiB and takes at least 2,048 positions. -/
theorem State.mendQ_bounds {s : State} (h : 0 < s.mendN) : s.mendQ ≤ 8 ∧ 2048 ≤ s.mendQ * 16384 / s.mendN := by
  have hn := s.mendN_le
  have hq : s.mendQ = s.mendN / Nat.gcd s.mendN 16384 := if_neg h.ne'
  have hle : s.mendQ ≤ s.mendN := hq ▸ Nat.div_le_self _ _
  have hpos : 0 < s.mendQ := hq ▸ Nat.div_pos (Nat.gcd_le_left _ h) (Nat.gcd_pos_of_pos_left _ h)
  exact ⟨hle.trans hn, (Nat.le_div_iff_mul_le h).mpr (by omega)⟩

theorem State.addrOf_lt {s : State} {l : Loc} {a : Nat} (h : s.addrOf l = some a) : a < 2 ^ 46 := by
  unfold State.addrOf at h
  split at h
  case isFalse =>
    have := (State.addrPlain_lt h).2
    omega
  case isTrue hmended =>
    have hpos : l.m < 2 ^ 21 := by
      unfold State.locMended at hmended
      split at hmended
      · next x hx => exact (State.addrPlain_lt hx).1
      · cases hmended
    have hn := s.mendN_le
    dsimp only at h
    split at h
    case h_1 => cases h
    case h_2 i hi =>
      split at h
      case isTrue => cases h
      case isFalse =>
        cases h
        have hidx : i < s.mendSites.length := (List.findIdx?_eq_some_iff_findIdx_eq.mp hi).1
        rw [State.mendSites_length] at hidx
        have h0 : 0 < s.mendN := by omega
        obtain ⟨hq, hunit⟩ := State.mendQ_bounds h0
        have hu : l.m / (s.mendQ * 16384 / s.mendN) ≤ 2 ^ 10 := (Nat.div_le_div_left hunit (by decide)).trans (by omega)
        have hd := Nat.mod_lt (i + s.mendN - (s.parityIdx (l.n % 32) l.m + 1) % s.mendN) h0
        have hsec : l.sector < 32 := Nat.mod_lt _ (by decide)
        generalize l.m / (s.mendQ * 16384 / s.mendN) = u at *
        generalize (i + s.mendN - (s.parityIdx (l.n % 32) l.m + 1) % s.mendN) % s.mendN = m at *
        have hstart : u * s.mendQ * gib ≤ 2 ^ 10 * 8 * 2 ^ 30 := Nat.mul_le_mul_right _ (Nat.mul_le_mul hu hq)
        have hm : l.m - u * s.mendQ * 16384 / s.mendN ≤ l.m := Nat.sub_le _ _
        have hrow : ((l.m - u * s.mendQ * 16384 / s.mendN) * 32 + l.n % 32) * (s.mendN - 1) ≤ 2 ^ 26 * 8 :=
          Nat.mul_le_mul (by omega) (by omega)
        omega

/-- The registers of a channel engine have offsets of their own. -/
theorem offset_ne_time {r : Reg} (h : 0xC0000 < r.base) (i : Nat) : r.offset i ≠ Reg.offset .GT_TIME 0 := by
  have e : Reg.offset .GT_TIME 0 = 0xC0000 := rfl
  rw [e, Reg.offset]
  omega

theorem gran_offset_ne_time {s : State} {l : Loc} {a : Nat} (h : s.addrOf l = some a) :
    Reg.offset .RG_GRAN (a / gib) ≠ Reg.offset .GT_TIME 0 := by
  have ha := State.addrOf_lt h
  have e : Reg.offset .GT_TIME 0 = 0xC0000 := rfl
  have e' : Reg.offset .RG_GRAN (a / gib) = 0x40000 + 8 * (a / gib) := rfl
  rw [e, e', gib]
  omega

/-! ## The frame -/

/-- From `s` to `t` only memory, the units, the energy and registers other than GT_TIME have moved. -/
structure State.MemMoved (s t : State) : Prop where
  draws : t.draws = s.draws
  port : t.ports.port = s.ports.port
  anv : t.anv = s.anv
  time : t.reg .GT_TIME 0 = s.reg .GT_TIME 0

namespace State.MemMoved

theorem refl (s : State) : s.MemMoved s := ⟨rfl, rfl, rfl, rfl⟩

variable {s t : State}

theorem ite {p : Prop} [Decidable p] {u : State} (ht : s.MemMoved t) (hu : s.MemMoved u) : s.MemMoved (if p then t else u) := by
  split
  · exact ht
  · exact hu

variable (h : s.MemMoved t)
include h

theorem gtc : t.gtc = s.gtc := congrArg (Fld.of F.GT_TIME_GTC) h.time

theorem when {b : Bool} {f : State → State} (hf : s.MemMoved (f t)) : s.MemMoved (t.when b f) := ite hf h

theorem foldl {α : Type} {f : State → α → State} (l : List α) (hf : ∀ t x, s.MemMoved t → s.MemMoved (f t x)) :
    s.MemMoved (l.foldl f t) := foldl_keeps hf l t h

/-! Parts of the state that memory consists of -/

theorem setSlice (n : Nat) (v : Slice) : s.MemMoved (t.setSlice n v) := ⟨h.draws, h.port, h.anv, h.time⟩
theorem setChan (n : Nat) (v : Chan) : s.MemMoved (t.setChan n v) := ⟨h.draws, h.port, h.anv, h.time⟩
theorem setMend (n : Nat) (v : Mend) : s.MemMoved (t.setMend n v) := ⟨h.draws, h.port, h.anv, h.time⟩
theorem setUnit (n : Nat) (v : PUnit) : s.MemMoved (t.setUnit n v) := ⟨h.draws, h.port, h.anv, h.time⟩
theorem writeRaw (l : Loc) (d : SectorBits) (cs : List Byte) : s.MemMoved (t.writeRaw l d cs) := ⟨h.draws, h.port, h.anv, h.time⟩

/-! Registers, counters and the log -/

theorem setReg {r : Reg} {i : Nat} (v : Word) (ho : r.offset i ≠ Reg.offset .GT_TIME 0) : s.MemMoved (t.setReg r i v) :=
  ⟨h.draws, h.port, h.anv, (reg_setReg_other _ _ _ _ _ _ ho.symm).trans h.time⟩

theorem put {f : Fld} {i : Nat} (v : Nat) (ho : f.reg.offset i ≠ Reg.offset .GT_TIME 0) : s.MemMoved (t.put f i v) := h.setReg _ ho

theorem raise (c : Cause) : s.MemMoved (t.raise c) := h.put _ (by decide)

theorem count {cnt ovf : Fld} {i : Nat} (n : Nat) (hc : cnt.reg.offset i ≠ Reg.offset .GT_TIME 0)
    (ho : ovf.reg.offset i ≠ Reg.offset .GT_TIME 0) : s.MemMoved (t.count cnt ovf i n) :=
  ite (h.put _ hc) (((h.put _ hc).put _ ho).raise _)

theorem countSat {cnt : Fld} {i : Nat} (n : Nat) (hc : cnt.reg.offset i ≠ Reg.offset .GT_TIME 0) : s.MemMoved (t.countSat cnt i n) :=
  h.put _ hc

theorem charge (part cls k : Nat) : s.MemMoved (t.charge part cls k) := ite h ⟨h.draws, h.port, h.anv, h.time⟩

theorem chargeBurst (part cls : Nat) : s.MemMoved (t.chargeBurst part cls) := by
  have hfirst := h.charge part cls 1
  have hdrawn : s.MemMoved { t.charge part cls 1 with freeCtr := t.freeCtr + 1 } :=
    ⟨hfirst.draws, hfirst.port, hfirst.anv, hfirst.time⟩
  exact hdrawn.charge _ _ _

theorem chargeRead (part : Nat) : s.MemMoved (t.chargeRead part) := h.chargeBurst _ _
theorem chargeWrite (part : Nat) : s.MemMoved (t.chargeWrite part) := h.chargeBurst _ _

theorem spend (part bytes : Nat) : s.MemMoved (t.spend part bytes) := ite h ⟨h.draws, h.port, h.anv, h.time⟩

theorem inStat {f : Option Fld} (hf : ∀ g, f = some g → g.reg = .IN_STAT) : s.MemMoved (t.inStat f) := by
  unfold State.inStat
  split
  · next g => exact (h.put _ (by rw [hf g rfl]; decide)).raise _
  · exact h

theorem logAppend (c : LogClass) (i : Info) (merged : Nat) : s.MemMoved (t.logAppend c i merged) := by
  have hentry (k : Nat) (hk : k < 4) : Reg.offset .IN_LOG (4 * (t.fld F.IN_LOG_PTR_HEAD 0 % 1024) + k) ≠ Reg.offset .GT_TIME 0 := by
    simp only [Reg.offset, Reg.base, Reg.stride]
    omega
  unfold State.logAppend
  dsimp only [each, logWords, List.zipIdx, List.foldl]
  refine when ?_ (inStat (count ?_ _ (by decide) (by decide)) fun g hg => by cases hg; rfl)
  all_goals
    exact ((((h.setReg _ (hentry 0 (by decide))).setReg _ (hentry 1 (by decide))).setReg _ (hentry 2 (by decide))).setReg _
      (hentry 3 (by decide))).put _ (by decide)

theorem log (c : LogClass) (i : Info) : s.MemMoved (t.log c i) := by
  have hstat : s.MemMoved (t.inStat c.stat) := h.inStat fun g hg => by cases c <;> cases hg <;> rfl
  unfold State.log
  dsimp only
  split
  case h_4 => exact hstat.logAppend _ _ _
  all_goals exact ite hstat (ite ((hstat.logAppend _ _ _).setChan _ _) (hstat.setChan _ _))

/-! The array -/

theorem writeNew (l : Loc) (d : SectorBits) (cs : List Byte) : s.MemMoved (t.writeNew l d cs) :=
  (ite (h.setChan _ _) h).writeRaw _ _ _

theorem writePoison (l : Loc) : s.MemMoved (t.writePoison l) := h.writeNew _ _ _
theorem writeEncoded (l : Loc) (d : SectorBits) : s.MemMoved (t.writeEncoded l d) := h.writeNew _ _ _

/-! Mend and the channel reset (R239, R240, R246) -/

theorem markLost (l : Loc) : s.MemMoved (t.markLost l) := by
  unfold State.markLost
  split
  · next a ha => exact h.put _ (gran_offset_ne_time ha)
  · exact h

theorem rowsLost (c : Nat) (sites rows : List Nat) : s.MemMoved (t.rowsLost c sites rows) :=
  ite h ((h.foldl _ fun _ l ht => ht.markLost l).inStat fun g hg => by cases hg; rfl)

theorem mendLeave (n : Nat) : s.MemMoved (t.mendLeave n) :=
  ite h (ite (h.setMend _ _) ((h.setMend _ _).foldl _ fun _ _ ht => ht.rowsLost _ _ _))

theorem channelReset (n : Nat) (cause : Option Nat) : s.MemMoved (t.channelReset n cause) := by
  have hce {r : Reg} (hr : 0xC0000 < r.base) := offset_ne_time hr n
  unfold State.channelReset
  refine ite h (mendLeave (setChan (foldl ?_ _ fun _ _ ht => ht.setUnit _ _) _ _) _)
  exact ((h.put _ (hce (by decide))).countSat _ (hce (by decide))).put _ (hce (by decide))

theorem queueRow (n row : Nat) : s.MemMoved (t.queueRow n row) := ite h (ite (h.countSat _ (by decide)) (h.setChan _ _))

/-! Judging a read (R230 to R232, R236, R237) -/

theorem corrected (l : Loc) (d : SectorBits) (k : Nat) (i : Info) : s.MemMoved (t.corrected l d k i) := by
  have hce {r : Reg} (hr : 0xC0000 < r.base) := offset_ne_time hr l.n
  have hlog := (h.count (cnt := F.CE_CORR_COUNT) (ovf := F.CE_CORR_OVF) k (hce (by decide)) (hce (by decide))).log .ce i
  unfold State.corrected
  dsimp only
  exact (hlog.setChan _ _).when ((hlog.setChan _ _).queueRow _ _)

theorem passGap (l : Loc) (g : Gap) (d : SectorBits) : s.MemMoved (t.passGap l g d).2 := by
  unfold State.passGap
  split
  · exact ⟨h.draws, h.port, h.anv, h.time⟩
  · exact h

theorem deliver (l : Loc) (d : SectorBits) (st : Status) (i : Info) : s.MemMoved (t.deliver l d st i).2 := by
  have hgap := h.passGap l .err d
  unfold State.deliver
  split
  · next hd =>
    rw [hd] at hgap
    exact hgap
  · next hd =>
    rw [hd] at hgap
    dsimp only at hgap ⊢
    exact (hgap.countSat _ (by decide)).log _ _

/-- An uncorrectable verdict (R230). -/
theorem uncorrectable (l : Loc) (bad : Nat) (i : Info) (f : State → State) (hf : ∀ u, s.MemMoved u → s.MemMoved (f u)) (b : Bool) :
    s.MemMoved (((t.count F.CE_UNCORR_COUNT F.CE_UNCORR_OVF l.n bad).log .ue i).when b f) := by
  have hce {r : Reg} (hr : 0xC0000 < r.base) := offset_ne_time hr l.n
  have hlog := (h.count (cnt := F.CE_UNCORR_COUNT) (ovf := F.CE_UNCORR_OVF) bad (hce (by decide)) (hce (by decide))).log .ue i
  exact hlog.when (hf _ hlog)

theorem judge (l : Loc) (part : Option Nat) (reset : Bool) : s.MemMoved (t.judge l part reset).2 := by
  unfold State.judge
  dsimp only
  split
  · dsimp only
    exact h.log _ _
  · split
    · exact h.deliver _ _ _ _
    · split
      · exact h.uncorrectable _ _ _ _ (fun _ hu => (hu.when (hu.queueRow _ _)).channelReset _ _) _
      · split
        · exact h.deliver _ _ _ _
        · exact (h.corrected _ _ _ _).deliver _ _ _ _

theorem countAccess (hit : Bool) (part bytes : Nat) : s.MemMoved (t.countAccess hit part bytes) :=
  ((ite (h.count _ (by decide) (by decide)) (h.count _ (by decide) (by decide))).charge _ _ _).charge _ _ _

theorem rebuild (l : Loc) (part : Option Nat) : s.MemMoved (t.rebuild l part).2.2 := by
  have hcount {u : State} (hu : s.MemMoved u) (b hit : Bool) (p n : Nat) : s.MemMoved (u.when b (·.countAccess hit p n)) :=
    hu.when (hu.countAccess _ _ _)
  refine foldl_keeps (P := fun acc : Option SectorBits × Status × State => s.MemMoved acc.2.2) (fun acc x hacc => ?_) _ _ h
  dsimp only
  split
  · exact hacc
  · dsimp only
    exact ((hcount hacc _ _ _ _).chargeRead _).judge _ _ _

theorem mendRead (l : Loc) (part : Option Nat) : s.MemMoved (t.mendRead l part).2 := by
  have hlog {u : State} (hu : s.MemMoved u) (b : Bool) (i : Info) : s.MemMoved (u.when b (·.log .rebuilt i)) := hu.when (hu.log _ _)
  unfold State.mendRead
  dsimp only
  split
  · exact h
  · split
    · split
      · exact h.rebuild _ _
      · exact h.rebuild _ _
    · split
      · refine hlog ?_ _ _
        split
        · exact (h.judge _ _ _).rebuild _ _
        · exact (h.judge _ _ _).rebuild _ _
      · exact h.judge _ _ _

theorem fetch (l : Loc) (part : Option Nat) : s.MemMoved (t.fetch l part).2 := by
  unfold State.fetch
  split
  · exact h.mendRead _ _
  · split
    · exact h
    · exact h.judge _ _ _

/-! Lines that leave their slice (R220 to R223, R234) -/

theorem hmInt (i : Info) : s.MemMoved (t.hmInt i) := (h.countSat _ (by decide)).log _ _

theorem writeDram (l : Loc) (x : Sec) (part : Option Nat) : s.MemMoved (t.writeDram l x part) := by
  have hgap := (when (b := !x.good) (f := fun s => s.hmInt (t.info l part)) h (h.hmInt _)).passGap l .ewr x.data
  unfold State.writeDram
  dsimp only
  split
  · next hd =>
    rw [hd] at hgap
    exact ite (hgap.writePoison _) (hgap.writeEncoded _ _)
  · next hd =>
    rw [hd] at hgap
    exact ((hgap.countSat (cnt := F.IN_INTCNT_PAR_GAP) 1 (by decide)).log _ _).writePoison _

theorem spillOps (n : Nat) (units : List Nat) : s.MemMoved (t.spillOps n units) := by
  refine h.foldl _ fun t u ht => ?_
  split
  · split
    · exact (ht.count _ (by decide) (by decide)).spend _ _
    · exact ht
  · exact ht

theorem writeBackBurst (n m part : Nat) : s.MemMoved (t.writeBackBurst n m part) := by
  unfold State.writeBackBurst
  dsimp only
  refine ite h (setSlice (ite h ?_) _ _)
  exact ((h.foldl _ fun _ _ ht => ht.writeDram _ _ _).chargeWrite _).spillOps _ _

theorem makeRoom {n unit part : Nat} {u : State} (hu : t.makeRoom n unit part = some u) : s.MemMoved u := by
  unfold State.makeRoom at hu
  dsimp only at hu
  split at hu
  · cases hu
    exact h
  · split at hu
    · cases hu
    · split at hu
      · cases hu
        exact h.setSlice _ _
      · split at hu
        · split at hu
          · cases hu
            exact (h.setSlice _ _).setSlice _ _
          · split at hu
            · cases hu
              exact h.setSlice _ _
            · cases hu
        · split at hu
          · obtain ⟨c, -, rfl⟩ := Option.map_eq_some_iff.mp hu
            exact h.setSlice _ _
          · cases hu
            exact (h.writeBackBurst _ _ _).setSlice _ _

theorem slicePut {l : Loc} {x : Held} {part : Nat} {u : State} (hu : t.slicePut l x part = some u) : s.MemMoved u := by
  unfold State.slicePut at hu
  dsimp only at hu
  split at hu
  · next v hv =>
    cases hu
    refine setSlice ?_ _ _
    split at hv
    · cases hv
      exact h
    · obtain ⟨w, hw, rfl⟩ := Option.map_eq_some_iff.mp hv
      exact (h.makeRoom hw).setSlice _ _
  · split at hu
    · cases hu
      exact h.setSlice _ _
    · cases hu

theorem slicePut_getD (l : Loc) (x : Held) (part : Nat) : s.MemMoved ((t.slicePut l x part).getD t) := by
  cases hu : t.slicePut l x part with
  | none => exact h
  | some u => exact h.slicePut hu

theorem sliceRead (l : Loc) (part : Nat) : s.MemMoved (t.sliceRead l part).2 := by
  have hmiss {u : State} (hu : s.MemMoved u) (near : Bool) := (ite (p := near = true) hu (hu.chargeRead part)).fetch l (some part)
  unfold State.sliceRead
  dsimp only
  split
  · exact ite ((hmiss h _).slicePut_getD _ _ _) (hmiss h _)
  · split
    · exact h.setSlice _ _
    · have hdrop := (h.hmInt (t.info l (some part))).setSlice l.n (((t.hmInt (t.info l (some part))).slice l.n).putSec l.k none)
      split
      · exact (hdrop.setSlice _ _).writePoison _
      · exact ite ((hmiss hdrop _).slicePut_getD _ _ _) (hmiss hdrop _)

theorem readSec (a part : Nat) : s.MemMoved (t.readSec a part).2 := by
  unfold State.readSec
  split
  · exact (h.countAccess _ _ _).sliceRead _ _
  · exact h

theorem readSecs (a n part : Nat) : s.MemMoved (t.readSecs a n part).2.2 :=
  foldl_keeps (P := fun acc : List Sec × Status × State => s.MemMoved acc.2.2) (fun _ _ hacc => hacc.readSec _ _) _ _ h

end State.MemMoved

end Sys2Proof.Machine
end

section
/-!
PROOF of O23: Chest extents.
-/

namespace Sys2Proof.Machine

/-! ## First fit (R126) -/

/-- Does an extent of `n` bytes at `a` lie in the pool and clear of every live extent? -/
def Chest.Free (ch : Chest) (n a : Nat) : Prop :=
  ch.base ≤ a ∧ a + n ≤ ch.base + ch.size ∧ ∀ e ∈ ch.live, a + n ≤ e.addr ∨ e.addr + e.size ≤ a

/-- The places that first fit tries: the beginning of the pool and the end of every live extent. -/
def Chest.starts (ch : Chest) : List Nat := (ch.base :: ch.live.map fun e => e.addr + e.size).insertionSort (· ≤ ·)

/-- Does first fit take a place that it tries? -/
def Chest.takes (ch : Chest) (n a : Nat) : Bool :=
  decide (a + n ≤ ch.base + ch.size) && ch.live.all fun e => !overlap a n e.addr e.size

section
variable {ch : Chest} {n a : Nat} (hn : 0 < n) (hlive : ∀ e ∈ ch.live, ch.base ≤ e.addr ∧ 0 < e.size)

theorem Chest.fit_eq : ch.fit n = ch.starts.find? (ch.takes n) := rfl

theorem Chest.mem_starts : a ∈ ch.starts ↔ a = ch.base ∨ ∃ e ∈ ch.live, e.addr + e.size = a := by
  rw [Chest.starts, List.mem_insertionSort, List.mem_cons, List.mem_map]

include hlive

theorem Chest.base_le_of_mem_starts (h : a ∈ ch.starts) : ch.base ≤ a := by
  obtain rfl | ⟨e, he, rfl⟩ := Chest.mem_starts.mp h
  · exact le_rfl
  · exact (hlive e he).1.trans (Nat.le_add_right _ _)

include hn

theorem Chest.takes_iff (hb : ch.base ≤ a) : ch.takes n a = true ↔ ch.Free n a := by
  have hclear (e : Extent) (he : e ∈ ch.live) : (!overlap a n e.addr e.size) = true ↔ a + n ≤ e.addr ∨ e.addr + e.size ≤ a := by
    have := (hlive e he).2
    simp only [overlap, Bool.not_eq_true', Bool.and_eq_false_iff, bne_eq_false_iff_eq, decide_eq_false_iff_not]
    omega
  rw [Chest.takes, Bool.and_eq_true, decide_eq_true_iff, List.all_eq_true, Chest.Free]
  exact ⟨fun ⟨h1, h2⟩ => ⟨hb, h1, fun e he => (hclear e he).mp (h2 e he)⟩,
    fun ⟨_, h1, h2⟩ => ⟨h1, fun e he => (hclear e he).mpr (h2 e he)⟩⟩

variable (hfree : ch.Free n a) (hlow : ∀ b, ch.Free n b → a ≤ b)
include hfree hlow

omit hn hlive in
/-- The lowest free address is one of the places that first fit tries: something ends where it begins. -/
theorem Chest.lowest_mem_starts : a ∈ ch.starts := by
  obtain ⟨hb, hend, hclear⟩ := hfree
  refine Chest.mem_starts.mpr (or_iff_not_imp_left.mpr fun hne => ?_)
  by_contra hno
  refine absurd (hlow (a - 1) ⟨by omega, by omega, fun e he => ?_⟩) (by omega)
  have hends : e.addr + e.size ≠ a := fun h => hno ⟨e, he, h⟩
  have := hclear e he
  omega

/-- First fit finds the lowest free address. -/
theorem Chest.fit_lowest : ch.fit n = some a := by
  have hmem := Chest.lowest_mem_starts hfree hlow
  have htakes := (Chest.takes_iff hn hlive hfree.1).mpr hfree
  rw [Chest.fit_eq]
  cases hfind : ch.starts.find? (ch.takes n) with
  | none => exact absurd htakes (List.find?_eq_none.mp hfind a hmem)
  | some b =>
    obtain ⟨hb, as, bs, hsplit, hskip⟩ := List.find?_eq_some_iff_append.mp hfind
    have hle : a ≤ b := hlow b ((Chest.takes_iff hn hlive
      (Chest.base_le_of_mem_starts hlive (List.mem_of_find?_eq_some hfind))).mp hb)
    have hsorted : (as ++ b :: bs).Pairwise (· ≤ ·) := hsplit ▸ List.pairwise_insertionSort (· ≤ ·) _
    rw [hsplit, List.mem_append, List.mem_cons] at hmem
    obtain has | rfl | hbs := hmem
    · have := hskip a has
      simp [htakes] at this
    · rfl
    · exact congrArg some (((List.pairwise_cons.mp (List.pairwise_append.mp hsorted).2.1).1 a hbs).antisymm hle)

end

/-! ## Chests -/

section
variable (s : State) (p q : Nat) (ch : Chest)

@[simp] theorem State.chest_setChest_same : (s.setChest p ch).chest p = ch := Tab.get_set_same _ _ _ _

theorem State.chest_setChest_other (h : q ≠ p) : (s.setChest p ch).chest q = s.chest q := Tab.get_set_other _ _ _ _ _ h

end

/-- A Drawer's Chest has changed and a command of the Drawer has ended. -/
theorem State.setChest_ended {s : State} {d pos : Nat} {c : Cmd} (hc : s.cmd d pos = some c) (ch : Chest) (st : Status) (a b : Nat) :
    OnlyCmd s ((s.setChest d ch).finish d c st a b) d pos (c.ended st a b) ∧ ((s.setChest d ch).finish d c st a b).chest d = ch ∧
      (∀ q, q ≠ d → ((s.setChest d ch).finish d c st a b).chest q = s.chest q) ∧
      (s.setChest d ch).finish d c st a b = { s with draws := { s.draws with
        drawer := ((s.setChest d ch).finish d c st a b).draws.drawer,
        chests := ((s.setChest d ch).finish d c st a b).draws.chests } } :=
  ⟨State.onlyCmd_ended rfl hc _ _ _, s.chest_setChest_same d ch, fun q hq => s.chest_setChest_other d q ch hq, rfl⟩

/-! ## OFFLOAD_ACT and RECALL_ACT (R109, R110) -/

theorem exec_offloadAct {d pos a : Nat} {c : Cmd} {s : State} (h : s.fresh d pos .offloadAct c) (hn : c.arg 2 0 24 ≠ 0)
    (hg : c.granted F.PA_CFG_ACT_FIXED = 0) (hfit : (s.chest d).fit (c.arg 2 0 24 * 2048) = some a) :
    exec (.offloadAct d pos) s = .next ((s.setChest d { s.chest d with
      live := (s.chest d).live ++ [⟨a, c.arg 2 0 24 * 2048, c.arg 1 0 4, c.arg 1 4 32⟩] }).finish d c .ok (c.arg 1 0 4) a) := by
  change execOffloadAct d pos s = _
  rw [execOffloadAct, h.runCmd _ (pureCheck_passes (by simp [hn, hg, hfit]))]
  simp only [hfit]

section
variable {d pos : Nat} {c : Cmd} {e : Extent} {s : State} (h : s.fresh d pos .recallAct c) (hg : c.granted F.PA_CFG_ACT_FIXED = 0)
  (he : e ∈ (s.chest d).live) (ha : e.addr = c.arg 1 0 44)
include h hg he ha

theorem exec_recallAct_noSend (hns : c.argBit 1 50 = true) (hf : c.argBit 1 49 = true) : exec (.recallAct d pos) s =
    .next ((s.setChest d { s.chest d with live := (s.chest d).live.filter fun x => x.addr != c.arg 1 0 44 }).finish d c .ok 0 0) := by
  change execRecallAct d pos s = _
  have hany : ((s.chest d).live.any fun x => x.addr == c.arg 1 0 44) = true := List.any_eq_true.mpr ⟨e, he, by simp [ha]⟩
  rw [execRecallAct, h.runCmd _ (pureCheck_passes (by simp [hf, hg, hany])), if_pos hns]

theorem exec_recallAct_waits (hns : c.argBit 1 50 = false) (hat : s.gtc ≤ (c.w 3).toNat) :
    exec (.recallAct d pos) s = .next (s.running d c) := by
  change execRecallAct d pos s = _
  have hany : ((s.chest d).live.any fun x => x.addr == c.arg 1 0 44) = true := List.any_eq_true.mpr ⟨e, he, by simp [ha]⟩
  rw [execRecallAct, h.runCmd _ (pureCheck_passes (by simp [hns, hg, hany])), if_neg (by simp [hns]), if_neg (by omega)]

end

/-! ## The block writes of a recalled extent (R109, R177) -/

theorem State.readSecs_length (s : State) (a n part : Nat) : (s.readSecs a n part).1.length = n := by
  induction n with
  | zero => rfl
  | succ n ih =>
    rw [State.readSecs] at ih ⊢
    rw [List.range_succ, List.foldl_append]
    simpa using ih

section
variable {d pos og dest b : Nat} {secs : List Sec} {final : Bool} {w : OutWrite}

/-- A burst's write is the command's own and stays within the burst. -/
theorem burstWrite_within (hd : dest % 64 = 0) (h : burstWrite d pos og dest secs final b = some w) :
    w.drawer = d ∧ w.pos = pos ∧ w.part = d ∧ w.secs ≠ [] ∧ w.addr / 2048 = (w.addr + 64 * w.secs.length - 1) / 2048 := by
  obtain ⟨hlt, hw⟩ := Option.ite_none_right_eq_some.mp h
  have hlo : Nat.max (b * 32) (dest / 64) = max (b * 32) (dest / 64) := rfl
  have hhi : Nat.min ((b + 1) * 32) (dest / 64 + secs.length) = min ((b + 1) * 32) (dest / 64 + secs.length) := rfl
  rw [hlo, hhi] at hlt hw
  cases hw
  have hlen : ((secs.take (min ((b + 1) * 32) (dest / 64 + secs.length) - dest / 64)).drop (max (b * 32) (dest / 64) - dest / 64)).length =
      min ((b + 1) * 32) (dest / 64 + secs.length) - dest / 64 - (max (b * 32) (dest / 64) - dest / 64) := by
    rw [List.length_drop, List.length_take]
    omega
  refine ⟨rfl, rfl, rfl, List.ne_nil_of_length_pos (by rw [hlen]; omega), ?_⟩
  dsimp only
  rw [hlen]
  omega

/-- The last burst's write ends with the last sector. -/
theorem burstWrite_last (h : 0 < secs.length) (hb : b = (dest / 64 * 64 + 64 * secs.length - 1) / 2048) :
    ∃ w, burstWrite d pos og dest secs final b = some w ∧ w.final = final := by
  have hlo : Nat.max (b * 32) (dest / 64) = max (b * 32) (dest / 64) := rfl
  have hhi : Nat.min ((b + 1) * 32) (dest / 64 + secs.length) - dest / 64 = secs.length := by
    change min _ _ - _ = _
    omega
  refine ⟨_, if_pos (by omega), ?_⟩
  simp [hhi]

end

section
variable (d pos og dest : Nat) (secs : List Sec) (final : Bool)

/-- The block writes that carry sectors to `dest` on. -/
def blockWrites : List OutWrite :=
  (burstsOf (dest / 64 * 64) (64 * secs.length)).filterMap (burstWrite d pos og dest secs final)

theorem blockWrites_within (hd : dest % 64 = 0) : ∀ w ∈ blockWrites d pos og dest secs final,
    w.drawer = d ∧ w.pos = pos ∧ w.part = d ∧ w.secs ≠ [] ∧ w.addr / 2048 = (w.addr + 64 * w.secs.length - 1) / 2048 := by
  intro w hw
  obtain ⟨b, -, hb⟩ := List.mem_filterMap.mp hw
  exact burstWrite_within hd hb

theorem blockWrites_length : ((blockWrites d pos og dest secs final).map fun w => w.secs.length).sum = secs.length := by
  rw [← List.length_flatMap, blockWrites, burstWrite_secs]

theorem blockWrites_getLast (h : 0 < secs.length) : ∀ w, (blockWrites d pos og dest secs final).getLast? = some w → w.final = final := by
  intro w hw
  obtain ⟨k, hk⟩ : ∃ k, (dest / 64 * 64 + 64 * secs.length - 1) / 2048 + 1 - dest / 64 * 64 / 2048 = k + 1 :=
    ⟨(dest / 64 * 64 + 64 * secs.length - 1) / 2048 - dest / 64 * 64 / 2048, by omega⟩
  obtain ⟨x, hx, hfinal⟩ := burstWrite_last (d := d) (pos := pos) (og := og) (dest := dest) (final := final)
    (b := dest / 64 * 64 / 2048 + k) h (by omega)
  rw [blockWrites, burstsOf, if_neg (by omega), hk, List.range_succ, List.map_append, List.filterMap_append, List.map_singleton,
    List.filterMap_cons_some hx, List.filterMap_nil, List.getLast?_concat] at hw
  cases hw
  exact hfinal

end

/-! ## RECALL_SEND (R109) -/

section
variable (s : State) (d : Nat) (c : Cmd) (e : Extent)

/-- The state that has read the extent and queued its writes. -/
def State.extentQueued : State :=
  (s.readSecs e.addr (e.size / 64) d).2.2.queueWrites (c.arg 1 44 5) d c.pos (c.arg 1 51 8) (c.arg 2 0 44)
    (s.readSecs e.addr (e.size / 64) d).1 true

/-- And freed it where FREE says so. -/
def State.extentSent : State :=
  (s.extentQueued d c e).when (c.argBit 1 49) fun u => u.setChest d { s.chest d with live := (s.chest d).live.erase e }

/-- The writes that were queued. -/
def State.extentWrites : List OutWrite :=
  blockWrites d c.pos (c.arg 1 51 8) (c.arg 2 0 44) (s.readSecs e.addr (e.size / 64) d).1 true

theorem State.extentSent_outq : ((s.extentSent d c e).port (c.arg 1 44 5)).outq =
    (s.port (c.arg 1 44 5)).outq ++ s.extentWrites d c e := by
  have hport : (s.readSecs e.addr (e.size / 64) d).2.2.port (c.arg 1 44 5) = s.port (c.arg 1 44 5) := by
    rw [State.port, ((State.MemMoved.refl s).readSecs ..).port, State.port]
  have hsent : (s.extentSent d c e).port (c.arg 1 44 5) = (s.extentQueued d c e).port (c.arg 1 44 5) := by
    unfold State.extentSent State.when
    split <;> rfl
  rw [hsent, State.extentQueued, State.queueWrites_eq, State.port_setPort_same, hport]
  rfl

theorem State.extentSent_chest : (s.extentSent d c e).chest d =
    if c.argBit 1 49 then { s.chest d with live := (s.chest d).live.erase e } else s.chest d := by
  unfold State.extentSent State.when
  split
  · exact State.chest_setChest_same _ _ _
  · change State.chest (s.readSecs e.addr (e.size / 64) d).2.2 d = _
    rw [State.chest, ((State.MemMoved.refl s).readSecs ..).draws, State.chest]

theorem State.extentSent_drawer : (s.extentSent d c e).draws.drawer = s.draws.drawer := by
  have hread : (s.extentSent d c e).draws.drawer = (s.readSecs e.addr (e.size / 64) d).2.2.draws.drawer := by
    unfold State.extentSent State.when
    split <;> rfl
  rw [hread, ((State.MemMoved.refl s).readSecs ..).draws]

theorem State.extentSent_gtc : (s.extentSent d c e).gtc = s.gtc := by
  have hread : (s.extentSent d c e).gtc = (s.readSecs e.addr (e.size / 64) d).2.2.gtc := by
    unfold State.extentSent State.when
    split <;> rfl
  rw [hread, ((State.MemMoved.refl s).readSecs ..).gtc]

theorem State.recallSend_found {s : State} {d : Nat} {c : Cmd} {e : Extent}
    (hfind : ((s.chest d).live.find? fun x => x.addr == c.arg 1 0 44) = some e) (hfree : s.rangesFree [(e.addr, e.size)] = true) :
    s.recallSend d c c.late = (s.extentSent d c e).finish d c (s.readSecs e.addr (e.size / 64) d).2.1 0 s.gtc := by
  rw [← s.extentSent_gtc d c e]
  simp only [State.recallSend, hfind, hfree]
  rfl

end

theorem exec_recallSend {d pos : Nat} {c : Cmd} {s : State} (hc : s.cmd d pos = some c) (hp : c.phase = .running)
    (ho : c.opcode = Op.recallAct.code) (hat : (c.w 3).toNat ≤ s.gtc) (hs : s.stalled = false) :
    exec (.recallSend d pos) s = .next (s.recallSend d c c.late) := by
  change execRecallSend d pos s = _
  simp [execRecallSend, hc, hp, ho, hat, hs]

/-- Settles O23: first fit finds the lowest free address, since something ends where the lowest one begins; and reading an extent moves
neither the Chests nor the ports, so what stands in the port's queue after it are the block writes of its sectors. -/
theorem chestExtents : Obligations.ChestExtents := by
  unfold Obligations.ChestExtents
  refine ⟨?_, ?_, ?_, ?_⟩
  · intro d pos a c s h hn hg hlive hb hend hclear hlow
    have hfit := Chest.fit_lowest (by omega) hlive ⟨hb, hend, hclear⟩ fun b ⟨h1, h2, h3⟩ => hlow b h1 h2 h3
    exact ⟨_, exec_offloadAct h hn hg hfit, State.setChest_ended h.1 _ _ _ _⟩
  · intro d pos c e s h hg he ha hns hf
    exact ⟨_, exec_recallAct_noSend h hg he ha hns hf, State.setChest_ended h.1 _ _ _ _⟩
  · intro d pos c e s h hg he ha hns hat
    exact ⟨_, exec_recallAct_waits h hg he ha hns hat, State.onlyCmd_setCmd rfl h.1 (show c.pos = pos from State.cmd_pos h.1), rfl⟩
  · intro d pos c e s hc hp ho hat hs hfind hmod hpos hdest hready hheld
    have hfree : s.rangesFree [(e.addr, e.size)] = true := by simp [State.rangesFree, hready, hheld]
    have hended := State.onlyCmd_ended (s.extentSent_drawer d c e) hc (s.readSecs e.addr (e.size / 64) d).2.1 0 s.gtc
    refine ⟨_, (exec_recallSend hc hp ho hat hs).trans (congrArg _ (State.recallSend_found hfind hfree)), ⟨_, hended.1⟩,
      s.extentSent_chest d c e, ?_⟩
    have hlen : (s.readSecs e.addr (e.size / 64) d).1.length = e.size / 64 := s.readSecs_length _ _ _
    have hout : (((s.extentSent d c e).finish d c (s.readSecs e.addr (e.size / 64) d).2.1 0 s.gtc).port (c.arg 1 44 5)).outq =
        (s.port (c.arg 1 44 5)).outq ++ s.extentWrites d c e := s.extentSent_outq d c e
    rw [hout, List.drop_left, List.take_left]
    refine ⟨blockWrites_getLast _ _ _ _ _ _ (by omega), ?_, rfl, ?_⟩
    · exact (blockWrites_length _ _ _ _ _ _).trans hlen
    · rw [← State.cmd_pos hc]
      exact blockWrites_within _ _ _ _ _ _ hdest

end Sys2Proof.Machine
end

section
/-!
PROOF of O18: NOP and FENCE, and commands whose checks fail.
-/

namespace Sys2Proof.Machine

/-! ## A command whose check fails (R122, R125) -/

/-- The first check that fails gives the status. -/
theorem firstFail_cons_true (st : Status) (l : List (Bool × Status)) : firstFail ((true, st) :: l) = some st := rfl

theorem State.drawersOnly_setCmd (s : State) (d : Nat) (c : Cmd) : DrawersOnly s (s.setCmd d c) := rfl

section
variable {s : State} {d pos : Nat} {o : Op} {c : Cmd} (h : s.fresh d pos o c)
include h

/-- A fresh command whose checks fail ends with their status. -/
theorem State.fresh.runCmd_fails {again : Bool} {check : State → Cmd → Option Status × State} {work : State → Cmd → State} {st : Status}
    (hk : check s c = (some st, s)) : s.runCmd d pos o again check work = s.finish d c st 0 0 := by
  obtain ⟨hc, hp, -, -, -, -⟩ := id h
  simp only [State.runCmd, h.due, hp, if_true, hk, hc, Option.getD_some]

/-- A command that ends where it stands changes its own record alone. -/
theorem State.fresh.ends {i : Instr} {st : Status} (he : exec i s = .next (s.finish d c st 0 0)) :
    ∃ t, exec i s = .next t ∧ OnlyCmd s t d pos (c.ended st 0 0) ∧ DrawersOnly s t :=
  ⟨_, he, State.onlyCmd_ended rfl h.1 _ _ _, s.drawersOnly_setCmd _ _⟩

/-- A command whose first check fails ends with its status. -/
theorem State.fresh.refused {i : Instr} {again : Bool} {check : State → Cmd → List (Bool × Status)} {work : State → Cmd → State}
    {st : Status} (he : exec i s = .next (s.runCmd d pos o again (pureCheck check) work)) (hk : firstFail (check s c) = some st) :
    ∃ t, exec i s = .next t ∧ OnlyCmd s t d pos (c.ended st 0 0) ∧ DrawersOnly s t :=
  h.ends (he.trans (congrArg _ (h.runCmd_fails (by rw [pureCheck, hk]))))

/-- A command that goes on takes the phase of one. -/
theorem State.fresh.goesOn {i : Instr} (he : exec i s = .next (s.running d c)) :
    ∃ t, exec i s = .next t ∧ OnlyCmd s t d pos { c with phase := .running } ∧ DrawersOnly s t :=
  ⟨_, he, State.onlyCmd_setCmd rfl h.1 (show c.pos = pos from State.cmd_pos h.1), s.drawersOnly_setCmd _ _⟩

end

/-! ## FENCE (R126) -/

theorem State.earlierRuns_eq_true {s : State} {d : Nat} {c : Cmd} {all : Bool} : s.earlierRuns d c all = true ↔
    ∃ e < 64, (all = true ∨ e = d) ∧ ∃ x ∈ (s.drawer e).cmds, x.order < c.order := by
  simp only [State.earlierRuns, State.anyCmd, List.any_eq_true, List.mem_range, Bool.and_eq_true, Bool.or_eq_true, beq_iff_eq,
    decide_eq_true_eq]
  constructor
  · rintro ⟨e, he, x, hx, hd, ho⟩
    exact ⟨e, he, hd, x, hx, ho⟩
  · rintro ⟨e, he, hd, x, hx, ho⟩
    exact ⟨e, he, x, hx, hd, ho⟩

section
variable {s : State} {d pos : Nat} {c : Cmd} (h : s.fresh d pos .fence c) (hd : d = 0 ∨ c.argBit 1 0 = false)
include h hd

theorem exec_fence : exec (.fence d pos) s =
    .next (if s.earlierRuns d c (c.argBit 1 0) then s.running d c else s.finish d c .ok 0 0) := by
  refine congrArg _ (h.runCmd _ (pureCheck_passes ?_))
  rcases hd with rfl | hd
  · simp
  · simp [hd]

theorem fence_ends (hrest : ∀ e < 64, c.argBit 1 0 = true ∨ e = d → ∀ x ∈ (s.drawer e).cmds, c.order ≤ x.order) :
    ∃ t, exec (.fence d pos) s = .next t ∧ OnlyCmd s t d pos (c.ended .ok 0 0) ∧ DrawersOnly s t := by
  have hnone : ¬s.earlierRuns d c (c.argBit 1 0) = true := fun hrun => by
    obtain ⟨e, he, hd, x, hx, ho⟩ := State.earlierRuns_eq_true.mp hrun
    exact absurd ho (Nat.not_lt.mpr (hrest e he hd x hx))
  exact h.ends ((exec_fence h hd).trans (by rw [if_neg hnone]))

theorem fence_waits (hrun : ∃ x ∈ (s.drawer d).cmds, x.order < c.order) :
    ∃ t, exec (.fence d pos) s = .next t ∧ OnlyCmd s t d pos { c with phase := .running } ∧ DrawersOnly s t := by
  obtain ⟨-, -, -, hlt, -⟩ := id h
  exact h.goesOn ((exec_fence h hd).trans (by rw [if_pos (State.earlierRuns_eq_true.mpr ⟨d, hlt, .inr rfl, hrun⟩)]))

end

/-- Settles O18: NOP's check list is empty, FENCE ends where no earlier command is left, and each refused command fails its first check. -/
theorem fencesEndAndChecksReport : Obligations.FencesEndAndChecksReport := by
  unfold Obligations.FencesEndAndChecksReport
  refine ⟨⟨?nop, ?_, ?_⟩, ?fenceAll, ?launchAt, ?powerCap, ?query, ?offloadAct, ?recallAct, ?partition, ?region⟩
  case nop =>
    intro d pos c s h
    exact h.ends (congrArg _ (h.runCmd _ (pureCheck_passes (by simp))))
  · intro d pos c s h hd hrest
    exact fence_ends h hd hrest
  · intro d pos c s h hd hrun
    exact fence_waits h hd hrun
  case fenceAll =>
    intro d pos c s h hd ha
    exact h.refused rfl (by simp [firstFail, hd, ha])
  case launchAt =>
    intro d pos c s h hl ht
    have he : exec (.launchAt d pos) s = _ := if_neg (show ¬(s.drawer d).launch.isSome = true by simp [hl])
    exact h.refused he (by simp only [decide_eq_true ht, firstFail_cons_true])
  case powerCap =>
    intro d pos c s h hr
    exact h.refused rfl (by simp only [decide_eq_true hr, Bool.true_or, firstFail_cons_true])
  case query =>
    intro d pos c s h hk
    have hbad : (c.arg 3 0 44 % 64 != 0 || c.arg 1 0 8 == 0 || decide (5 < c.arg 1 0 8)) = true := by simpa [or_assoc] using hk
    exact h.refused rfl (by simp only [hbad, firstFail_cons_true])
  case offloadAct =>
    intro d pos c s h hz
    exact h.refused rfl (by simp [firstFail, hz])
  case recallAct =>
    intro d pos c s h hn hf
    exact h.refused rfl (by simp [firstFail, hn, hf])
  case partition =>
    intro d pos c s h hw
    exact h.refused rfl (by simp [firstFail, hw])
  case region =>
    intro d pos c s h hr
    exact h.refused rfl (by rcases hr with hr | hr <;> simp [firstFail, hr])

end Sys2Proof.Machine
end

section
/-!
PROOF of O19: the gates of LAUNCH_AT and BARRIER.
-/

namespace Sys2Proof.Machine

/-! ## A Drawer that takes new contents -/

section
variable (s : State) (d : Nat) (v : Drawer)

@[simp] theorem State.drawer_setDrawer_same : (s.setDrawer d v).drawer d = v := Tab.get_set_same _ _ _ _

theorem State.drawer_setDrawer_other {e : Nat} (h : e ≠ d) : (s.setDrawer d v).drawer e = s.drawer e := Tab.get_set_other _ _ _ _ _ h

variable {s d v}

/-- A Drawer whose commands stay keeps each of them. -/
theorem State.cmd_setDrawer (h : v.cmds = (s.drawer d).cmds) (e p : Nat) : (s.setDrawer d v).cmd e p = s.cmd e p := by
  rw [State.cmd, State.cmd]
  by_cases he : e = d
  · rw [he, State.drawer_setDrawer_same, h]
  · rw [State.drawer_setDrawer_other _ _ _ he]

theorem DrawersOnly.trans {s t u : State} (h : DrawersOnly s t) (g : DrawersOnly t u) : DrawersOnly s u := by
  unfold DrawersOnly at h g ⊢
  rw [g, h]

end

/-- A Drawer's LAUNCH_AT gate takes new contents. -/
def State.withLaunch (s : State) (d : Nat) (l : Option Launch) : State := s.setDrawer d { s.drawer d with launch := l }

/-- A Drawer's BARRIER takes new contents. -/
def State.withBarrier (s : State) (d : Nat) (b : Option Barrier) : State := s.setDrawer d { s.drawer d with barrier := b }

section
variable (s : State) (d : Nat)

theorem State.drawer_withLaunch (l : Option Launch) : (s.withLaunch d l).drawer d = { s.drawer d with launch := l } :=
  s.drawer_setDrawer_same d _

theorem State.drawer_withLaunch_other (l : Option Launch) {e : Nat} (h : e ≠ d) : (s.withLaunch d l).drawer e = s.drawer e :=
  s.drawer_setDrawer_other d _ h

theorem State.cmd_withLaunch (l : Option Launch) (e p : Nat) : (s.withLaunch d l).cmd e p = s.cmd e p :=
  State.cmd_setDrawer (v := { s.drawer d with launch := l }) rfl e p

theorem State.drawersOnly_withLaunch (l : Option Launch) : DrawersOnly s (s.withLaunch d l) := rfl

theorem State.drawer_withBarrier (b : Option Barrier) : (s.withBarrier d b).drawer d = { s.drawer d with barrier := b } :=
  s.drawer_setDrawer_same d _

theorem State.drawer_withBarrier_other (b : Option Barrier) {e : Nat} (h : e ≠ d) : (s.withBarrier d b).drawer e = s.drawer e :=
  s.drawer_setDrawer_other d _ h

theorem State.cmd_withBarrier (b : Option Barrier) (e p : Nat) : (s.withBarrier d b).cmd e p = s.cmd e p :=
  State.cmd_setDrawer (v := { s.drawer d with barrier := b }) rfl e p

theorem State.drawersOnly_withBarrier (b : Option Barrier) : DrawersOnly s (s.withBarrier d b) := rfl

end

/-! ## LAUNCH_AT (R129) -/

section
variable {s : State} {d : Nat} {l : Launch} {x : Cmd} (hx : s.cmd d l.pos = some x) (late bad : Bool)
include hx

theorem State.launchDone_eq : s.launchDone d l late bad =
    (s.finish d { x with late := late } .ok (if bad then 1 else 0) (l.opened.getD 0)).withLaunch d none := by
  rw [State.launchDone, hx]
  rfl

theorem State.launch_launchDone : ((s.launchDone d l late bad).drawer d).launch = none := by
  rw [State.launchDone_eq hx, State.drawer_withLaunch]

theorem State.cmd_launchDone_same : (s.launchDone d l late bad).cmd d l.pos =
    some ({ x with late := late }.ended .ok (if bad then 1 else 0) (l.opened.getD 0)) := by
  rw [State.launchDone_eq hx, State.cmd_withLaunch]
  exact State.cmd_finish (e := { x with late := late }) hx (show x.pos = l.pos from State.cmd_pos hx) _ _ _

theorem State.cmd_launchDone_other {p : Nat} (hp : p ≠ l.pos) : (s.launchDone d l late bad).cmd d p = s.cmd d p := by
  rw [State.launchDone_eq hx, State.cmd_withLaunch, State.cmd_finish_eq]
  exact if_neg fun h => hp (h.2.trans (show x.pos = l.pos from State.cmd_pos hx))

theorem State.drawer_launchDone_other {e : Nat} (he : e ≠ d) : (s.launchDone d l late bad).drawer e = s.drawer e := by
  rw [State.launchDone_eq hx, State.drawer_withLaunch_other _ _ _ he, State.drawer_finish_other _ _ _ _ _ he]

theorem State.drawersOnly_launchDone : DrawersOnly s (s.launchDone d l late bad) := by
  rw [State.launchDone_eq hx]
  exact (s.drawersOnly_setCmd _ _).trans (State.drawersOnly_withLaunch _ _ _)

end

/-- The LAUNCH_AT of a Drawer as its gate opens. -/
def State.openedNow (s : State) (l : Launch) : Launch :=
  { l with opened := some s.gtc, openCycle := s.power.cycles, openTick := s.tick, late := l.late || s.flag F.PW_COOL_STOPPED 0 }

section
variable {s : State} {d : Nat} {l : Launch} (hl : (s.drawer d).launch = some l) (hopen : l.opened = none) (harm : l.arm = false)
include hl hopen harm

/-- A gate without an armed command ends its LAUNCH_AT as it opens. -/
theorem State.launchOpen_unarmed : s.launchOpen d false =
    (s.withLaunch d (some (s.openedNow l))).launchDone d (s.openedNow l) (s.openedNow l).late false := by
  simp [State.launchOpen, hl, hopen, harm, State.openedNow, State.withLaunch]

variable {x : Cmd} (hx : s.cmd d l.pos = some x)
include hx

theorem State.launchOpen_ends : ((s.launchOpen d false).drawer d).launch = none ∧
    (s.launchOpen d false).cmd d l.pos = some ({ x with late := l.late || s.flag F.PW_COOL_STOPPED 0 }.ended .ok 0 s.gtc) ∧
    (∀ p, p ≠ l.pos → (s.launchOpen d false).cmd d p = s.cmd d p) ∧
    (∀ e, e ≠ d → (s.launchOpen d false).drawer e = s.drawer e) ∧ DrawersOnly s (s.launchOpen d false) := by
  rw [State.launchOpen_unarmed hl hopen harm]
  have hcmd := s.cmd_withLaunch d (some (s.openedNow l))
  have hx' := (hcmd d l.pos).trans hx
  refine ⟨State.launch_launchDone (l := s.openedNow l) hx' _ _, State.cmd_launchDone_same (l := s.openedNow l) hx' _ _,
    fun p hp => ?_, fun e he => ?_, (s.drawersOnly_withLaunch _ _).trans (State.drawersOnly_launchDone (l := s.openedNow l) hx' _ _)⟩
  · exact (State.cmd_launchDone_other (l := s.openedNow l) hx' _ _ hp).trans (hcmd d p)
  · exact (State.drawer_launchDone_other (l := s.openedNow l) hx' _ _ he).trans (s.drawer_withLaunch_other _ _ he)

end

section
variable {d pos : Nat} {c : Cmd} {s : State} (h : s.fresh d pos .launchAt c) (hl : (s.drawer d).launch = none)

/-- The state in which the gate of a LAUNCH_AT has been closed. -/
def State.launchShut (s : State) (d pos : Nat) (c : Cmd) : State :=
  (s.running d c).withLaunch d (some ⟨pos, (c.w 1).toNat, c.argBit 2 0, decide ((c.w 1).toNat < s.gtc), none, 0, 0, none⟩)

include h

theorem State.cmd_launchShut : (s.launchShut d pos c).cmd d pos = some { c with phase := .running } ∧
    ∀ p, p ≠ pos → (s.launchShut d pos c).cmd d p = s.cmd d p := by
  obtain ⟨hc, -⟩ := h
  obtain ⟨hcmd, hother, -⟩ := State.onlyCmd_setCmd (x := { c with phase := .running }) (rfl : s.draws.drawer = _) hc
    (show c.pos = pos from State.cmd_pos hc)
  exact ⟨(State.cmd_withLaunch _ _ _ d pos).trans hcmd, fun p hp => (State.cmd_withLaunch _ _ _ d p).trans (hother p hp)⟩

include hl

theorem exec_launchAt (ht : (c.w 1).toNat ≤ s.gtc + 2 ^ 40) : exec (.launchAt d pos) s =
    .next (if (c.w 1).toNat ≤ s.gtc then (s.launchShut d pos c).launchOpen d false else s.launchShut d pos c) := by
  have he : exec (.launchAt d pos) s = _ := if_neg (show ¬(s.drawer d).launch.isSome = true by simp [hl])
  exact he.trans (congrArg _ (h.runCmd _ (pureCheck_passes (by simpa using ht))))

theorem launchAt_waits (h1 : s.gtc < (c.w 1).toNat) (h2 : (c.w 1).toNat ≤ s.gtc + 2 ^ 40) :
    ∃ t, exec (.launchAt d pos) s = .next t ∧
      (t.drawer d).launch = some ⟨pos, (c.w 1).toNat, c.argBit 2 0, false, none, 0, 0, none⟩ ∧
      (t.drawer d).gated = true ∧ t.cmd d pos = some { c with phase := .running } ∧
      (∀ p, p ≠ pos → t.cmd d p = s.cmd d p) ∧ (∀ e, e ≠ d → t.drawer e = s.drawer e) ∧ DrawersOnly s t := by
  obtain ⟨hcmd, hother⟩ := State.cmd_launchShut h
  have hgate : ((s.launchShut d pos c).drawer d).launch = some ⟨pos, (c.w 1).toNat, c.argBit 2 0, false, none, 0, 0, none⟩ := by
    rw [State.launchShut, State.drawer_withLaunch, decide_eq_false (by omega)]
  refine ⟨s.launchShut d pos c, (exec_launchAt h hl h2).trans (by rw [if_neg (by omega)]), hgate, ?_, hcmd, hother, fun e he => ?_,
    (s.drawersOnly_setCmd _ _).trans (State.drawersOnly_withLaunch _ _ _)⟩
  · simp [Drawer.gated, hgate]
  · exact (State.drawer_withLaunch_other _ _ _ he).trans (s.drawer_setCmd_other _ he)

theorem launchAt_passed (h1 : (c.w 1).toNat ≤ s.gtc) (harm : c.argBit 2 0 = false) : ∃ t, exec (.launchAt d pos) s = .next t ∧
    (t.drawer d).launch = none ∧
    t.cmd d pos = some ({ c with
      late := decide ((c.w 1).toNat < s.gtc) || s.flag F.PW_COOL_STOPPED 0 }.ended .ok 0 s.gtc) ∧ DrawersOnly s t := by
  obtain ⟨hcmd, -⟩ := State.cmd_launchShut h
  have hgate := congrArg Drawer.launch ((s.running d c).drawer_withLaunch d
    (some ⟨pos, (c.w 1).toNat, c.argBit 2 0, decide ((c.w 1).toNat < s.gtc), none, 0, 0, none⟩))
  obtain ⟨hnone, hend, -, -, honly⟩ := State.launchOpen_ends hgate rfl harm hcmd
  exact ⟨_, (exec_launchAt h hl (by omega)).trans (by rw [if_pos h1]; rfl), hnone, hend,
    ((s.drawersOnly_setCmd _ _).trans (State.drawersOnly_withLaunch _ _ _)).trans honly⟩

end

/-! ## ARMED_FIRST_ACTION (R129) -/

section
variable {d p g : Nat} {l : Launch} {c x : Cmd} {s : State} (hl : (s.drawer d).launch = some l) (harm : l.armed = some p)
  (hopen : l.opened = some g) (hc : s.cmd d p = some c)
include hl harm hopen hc

theorem exec_armedFirstAction (hcyc : l.openCycle + 32 ≤ s.power.cycles) (hs : s.stalled = false) :
    exec (.armedFirstAction d) s = .next (if c.phase = .armed then s.setCmd d { c with phase := .checked }
      else if c.phase = .done then s.launchDone d l l.late false else s) := by
  have hdue : (l.opened.isNone || decide (s.power.cycles < l.openCycle + 32)) = false := by simp [hopen, hcyc]
  have he : exec (.armedFirstAction d) s = .next (if s.stalled then s else s.armedAct d) := rfl
  rw [he, hs, if_neg (by simp), State.armedAct, hl]
  simp only [harm, hdue, hc, Bool.false_eq_true, if_false]

variable (hx : s.cmd d l.pos = some x) (hne : l.pos ≠ p)
include hx hne

theorem armedFirstAction_failed (hcyc : l.openCycle + 32 ≤ s.power.cycles) (hs : s.stalled = false) (hp : c.phase = .done) :
    ∃ t, exec (.armedFirstAction d) s = .next t ∧
      (t.drawer d).launch = none ∧ t.cmd d p = some c ∧ t.cmd d l.pos = some ({ x with late := l.late }.ended .ok 0 g) ∧
      (∀ e, e ≠ d → t.drawer e = s.drawer e) ∧ DrawersOnly s t := by
  refine ⟨_, (exec_armedFirstAction hl harm hopen hc hcyc hs).trans (by rw [hp, if_neg (by simp), if_pos rfl]),
    State.launch_launchDone hx _ _, (State.cmd_launchDone_other hx _ _ hne.symm).trans hc, ?_,
    fun e he => State.drawer_launchDone_other hx _ _ he, State.drawersOnly_launchDone hx _ _⟩
  rw [State.cmd_launchDone_same hx, hopen]
  rfl

theorem firstAction_ends : ((s.firstAction d p).drawer d).launch = none ∧ (s.firstAction d p).cmd d p = some c ∧
    (s.firstAction d p).cmd d l.pos = some ({ x with late := l.late || decide (l.openTick + 32 < s.tick) }.ended .ok 0 g) := by
  have he : s.firstAction d p = s.launchDone d l (l.late || decide (l.openTick + 32 < s.tick)) false := by
    rw [State.firstAction, hl]
    exact if_pos ⟨harm, by rw [hopen]; rfl⟩
  rw [he]
  refine ⟨State.launch_launchDone hx _ _, (State.cmd_launchDone_other hx _ _ hne.symm).trans hc, ?_⟩
  rw [State.cmd_launchDone_same hx, hopen]
  rfl

end

theorem armedFirstAction_early {d : Nat} {l : Launch} {s : State} (hl : (s.drawer d).launch = some l)
    (h : l.opened = none ∨ s.power.cycles < l.openCycle + 32 ∨ s.stalled = true ∨ l.armed = none) :
    exec (.armedFirstAction d) s = .next s := by
  have he : exec (.armedFirstAction d) s = .next (if s.stalled then s else s.armedAct d) := rfl
  have hstays (hw : (l.opened.isNone || decide (s.power.cycles < l.openCycle + 32)) = true ∨ l.armed = none) : s.armedAct d = s := by
    rw [State.armedAct, hl]
    cases ha : l.armed with
    | none => simp only [ha]
    | some p => simp only [ha, hw.resolve_right (by simp [ha]), if_true]
  rw [he]
  rcases h with h | h | h | h
  · rw [hstays (.inl (by simp [h])), ite_self]
  · rw [hstays (.inl (by simp [h])), ite_self]
  · rw [h, if_pos rfl]
  · rw [hstays (.inr h), ite_self]

/-! ## BARRIER (R130) -/

section
variable {s : State} {d : Nat} {b : Barrier} {c : Cmd} (hc : s.cmd d b.pos = some c) (st : Status) (detail result : Nat)
include hc

theorem State.barrierDone_eq : s.barrierDone d b st detail result = (s.finish d c st detail result).withBarrier d none := by
  rw [State.barrierDone, hc]
  rfl

/-- A BARRIER that is over leaves its gate open, and its command has ended. -/
theorem State.barrierDone_ends : ((s.barrierDone d b st detail result).drawer d).barrier = none ∧
    (s.barrierDone d b st detail result).cmd d b.pos = some (c.ended st detail result) ∧
    (∀ e, e ≠ d → (s.barrierDone d b st detail result).drawer e = s.drawer e) ∧
    DrawersOnly s (s.barrierDone d b st detail result) := by
  rw [State.barrierDone_eq hc]
  refine ⟨by rw [State.drawer_withBarrier], (State.cmd_withBarrier _ _ _ _ _).trans (State.cmd_finish hc (State.cmd_pos hc) _ _ _),
    fun e he => ?_, (s.drawersOnly_setCmd _ _).trans (State.drawersOnly_withBarrier _ _ _)⟩
  rw [State.drawer_withBarrier_other _ _ _ he, State.drawer_finish_other _ _ _ _ _ he]

end

/-- What a frame of the block's own changes: nothing but what has been sent. -/
theorem State.sendSync_eq (s : State) (k : BitVec 4) (n : Nat) : s.sendSync k n = { s with
    sent := if s.fld F.GT_CTL_SYNC_EN 0 = 0 then s.sent else .sync k (syncFrame k (BitVec.ofNat 72 n)) :: s.sent } := by
  unfold State.sendSync State.flag
  by_cases h : s.fld F.GT_CTL_SYNC_EN 0 = 0
  · simp [h]
  · simp [h, State.emit]

section
variable {d pos : Nat} {c : Cmd} {s : State} (h : s.fresh d pos .barrier c)
  (hid : ∀ e < 64, ∀ b, (s.drawer e).barrier = some b → b.id ≠ c.arg 1 0 4)
include h

/-- The BARRIER that a command puts before its Drawer. -/
def State.newBarrier (s : State) (pos : Nat) (c : Cmd) : Barrier :=
  ⟨pos, c.arg 1 0 4, c.arg 1 4 6, if c.arg 2 0 32 = 0 then none else some (s.tick + c.arg 2 0 32 * ticksPerUs), none⟩

include hid

theorem exec_barrier : exec (.barrier d pos) s = .next
    (((s.running d c).withBarrier d (some (s.newBarrier pos c))).sendSync syncArrive (s.barPayload (s.newBarrier pos c))) := by
  refine congrArg _ (h.runCmd _ (pureCheck_passes ?_))
  have hfree : ∀ e < 64, (match (s.drawer e).barrier with
      | some b => b.id == c.arg 1 0 4
      | none => false) = false := fun e he => by
    split
    · next b hb => simpa using hid e he b hb
    · rfl
  intro x hx
  rw [List.mem_singleton.mp hx]
  exact List.any_eq_false.mpr fun e he => Bool.eq_false_iff.mp (hfree e (List.mem_range.mp he))

theorem barrier_shuts : ∃ t, exec (.barrier d pos) s = .next t ∧
      (t.drawer d).barrier = some ⟨pos, c.arg 1 0 4, c.arg 1 4 6,
        if c.arg 2 0 32 = 0 then none else some (s.tick + c.arg 2 0 32 * 1600), none⟩ ∧
      (t.drawer d).gated = true ∧ t.cmd d pos = some { c with phase := .running } ∧
      (∀ e, e ≠ d → t.drawer e = s.drawer e) ∧
      t.sent = (if s.fld F.GT_CTL_SYNC_EN 0 = 0 then s.sent else
        .sync 2 (syncFrame 2 (BitVec.ofNat 72
          (c.arg 1 0 4 + s.fld F.PT_MGT_ID_BLOCK_ID 0 * 16 + c.arg 1 4 6 * 1024))) :: s.sent) ∧
      t = { s with
        sent := t.sent
        draws := { s.draws with drawer := t.draws.drawer } } := by
  have hd := (s.running d c).drawer_withBarrier d (some (s.newBarrier pos c))
  refine ⟨_, (exec_barrier h hid).trans (congrArg _ (State.sendSync_eq _ _ _)), congrArg Drawer.barrier hd, ?_, ?_, fun e he => ?_, rfl, rfl⟩
  · exact (congrArg Drawer.gated hd).trans (by simp [Drawer.gated])
  · exact (State.cmd_withBarrier _ _ _ d pos).trans (State.cmd_setCmd h.1 (show c.pos = pos from State.cmd_pos h.1))
  · exact (State.drawer_withBarrier_other _ _ _ he).trans (s.drawer_setCmd_other _ he)

end

section
variable {d : Nat} {b : Barrier} {c : Cmd} {s : State} (hb : (s.drawer d).barrier = some b) (hc : s.cmd d b.pos = some c)
include hb

theorem exec_barrierGateOpen {r : Nat} (hr : b.release = some r) :
    exec (.barrierGateOpen d) s = .next (if s.gtc < r then s else s.barrierDone d b .ok 0 r) := by
  have he : exec (.barrierGateOpen d) s = .next (s.barrierOpen d) := rfl
  rw [he, State.barrierOpen, hb]
  simp only [hr]

theorem exec_barrierTimeout {x : Nat} (hr : b.release = none) (ht : b.timeout = some x) (hx : x ≤ s.tick) :
    exec (.barrierTimeout d) s = .next ((({ s with freeCtr := s.freeCtr + 1 } : State).sendSync syncWithdraw
      (s.barPayload b)).barrierDone d b .degraded 1 (Config.freeWord s.freeCtr).toNat) := by
  have he : exec (.barrierTimeout d) s = execBarrierTimeout d s := rfl
  rw [he, execBarrierTimeout, hb]
  simp only [hr, ht, if_neg (Nat.not_lt.mpr hx)]
  rfl

include hc

theorem barrierTimeout_withdraws {x : Nat} (hr : b.release = none) (ht : b.timeout = some x) (hx : x ≤ s.tick) :
    ∃ t, exec (.barrierTimeout d) s = .next t ∧
      (t.drawer d).barrier = none ∧ (∃ r, t.cmd d b.pos = some (c.ended .degraded 1 r)) ∧
      (s.fld F.GT_CTL_SYNC_EN 0 = 1 → t.sent = .sync 4 (syncFrame 4 (BitVec.ofNat 72
        (b.id + s.fld F.PT_MGT_ID_BLOCK_ID 0 * 16 + b.nblk * 1024))) :: s.sent) ∧
      t = { s with
        sent := t.sent
        freeCtr := s.freeCtr + 1
        draws := { s.draws with drawer := t.draws.drawer } } := by
  refine ⟨_, (exec_barrierTimeout hb hr ht hx).trans (by rw [State.sendSync_eq]), ?_⟩
  generalize hu : ({ ({ s with freeCtr := s.freeCtr + 1 } : State) with sent := _ } : State) = u
  have hcu : u.cmd d b.pos = some c := by rw [← hu]; exact hc
  obtain ⟨hnone, hend, -, honly⟩ := State.barrierDone_ends hcu .degraded 1 (Config.freeWord s.freeCtr).toNat
  refine ⟨hnone, ⟨_, hend⟩, fun h1 => ?_, ?_⟩
  · rw [honly, ← hu]
    exact if_neg (by rw [show ({ s with freeCtr := s.freeCtr + 1 } : State).fld F.GT_CTL_SYNC_EN 0 = _ from h1]; decide)
  · rw [honly, ← hu]

end

/-- Settles O19: the end of a LAUNCH_AT or of a BARRIER opens the gate and ends the command that closed it (`launchOpen_ends`,
`barrierDone_ends`); what else a gate does is to wait. -/
theorem gatesOpenAtTheirTime : Obligations.GatesOpenAtTheirTime := by
  unfold Obligations.GatesOpenAtTheirTime
  refine ⟨⟨?waits, ?passed, ?gateOpen, ?firstAction, ?early⟩, ?barrier, ?barrierOpen, ?timeout⟩
  case waits =>
    intro d pos c s h hl h1 h2
    exact launchAt_waits h hl h1 h2
  case passed =>
    intro d pos c s h hl h1 harm
    exact launchAt_passed h hl h1 harm
  case gateOpen =>
    intro d l c s hl hopen ht harm hc
    have he : exec (.launchGateOpen d) s = execLaunchGateOpen d s := rfl
    exact ⟨_, he.trans (by simp only [execLaunchGateOpen, hl, if_pos ht]), State.launchOpen_ends hl hopen harm hc⟩
  case firstAction =>
    intro d l p g c x s hl harm hopen hc hx hne
    refine ⟨fun hcyc hs hp => ?_, fun hcyc hs hp => armedFirstAction_failed hl harm hopen hc hx hne hcyc hs hp,
      firstAction_ends hl harm hopen hc hx hne⟩
    exact ⟨_, (exec_armedFirstAction hl harm hopen hc hcyc hs).trans (by rw [if_pos hp]),
      State.onlyCmd_setCmd rfl hc (show c.pos = p from State.cmd_pos hc), s.drawersOnly_setCmd _ _⟩
  case early =>
    intro d l s hl h
    exact armedFirstAction_early hl h
  case barrier =>
    intro d pos c s h hid
    exact barrier_shuts h hid
  case barrierOpen =>
    intro d r b c s hb hr hc
    have he := exec_barrierGateOpen hb hr
    exact ⟨fun hle => ⟨_, he.trans (by rw [if_neg (Nat.not_lt.mpr hle)]), State.barrierDone_ends hc _ _ _⟩,
      fun hlt => he.trans (by rw [if_pos hlt])⟩
  case timeout =>
    intro d x b c s hb hr ht hx hc
    exact barrierTimeout_withdraws hb hc hr ht hx

end Sys2Proof.Machine
end

section
/-!
PROOF of O28's negation: a FILL for whose line a clean one gives way.
-/

namespace Sys2Proof.Machine

namespace CleanLine

/-- A FILL of the first sector of memory with zero by Drawer 0. -/
def fill : Cmd :=
  { pos := 9, words := [0x31, 0, 64, 0], phase := .started, status := .ok, detail := 0,
    result := 0, late := false, order := 5, seed := 0, armedClose := false, lostEntry := false, holds := [], portStatus := none,
    soft := .ok, grants := 0, gone := false, lostRing := false, queuedOn := [] }

/-- Slice 0 holds the first sector of line 64, clean, with the value 1. -/
def slice : Slice := { Slice.empty with lines := [⟨64, [(0, some ⟨mkSec 1, false⟩)]⟩] }

/-- One stack with channel 0 in service, one way of each set that is not reserved, and nothing in DRAM. -/
def state : State :=
  { State.reset with
    regs := [(Reg.offset .MW_CONFIG 0, 0x3000001), (Reg.offset .SB_CTL 0, 15), (Reg.offset .CE_STATE 0, 0)]
    mem := { Mem.reset with slices := [(0, slice)] }
    draws := { Draws.reset with drawer := [(0, { Drawer.empty with cmds := [fill] })] } }

theorem fresh : state.fresh 0 9 .fill fill := by
  unfold State.fresh
  decide +kernel

theorem allServed : state.allServed := by
  unfold State.allServed
  decide +kernel

theorem slice_eq (n : Nat) : state.slice n = if n = 0 then slice else .empty := rfl

theorem sound : state.sound := by
  refine ⟨fun n => ?_, fun n => ?_, fun n => ?_, rfl⟩ <;> rw [slice_eq] <;> split
  case refine_1.isTrue h => exact ⟨by decide, by rw [h]; decide⟩
  case refine_2.isTrue => decide +kernel
  case refine_3.isTrue => exact ⟨rfl, rfl⟩
  case refine_1.isFalse => simp [Slice.empty]
  case refine_2.isFalse => simp [Slice.empty]
  case refine_3.isFalse => exact ⟨rfl, rfl⟩

/-- What the block holds of the sector of the clean line in the next state. -/
def nextNow : Host.Outcome State Fault Refusal → Option SectorBits
  | .next t => some (t.now ⟨0, 512⟩)
  | _ => none

/-- What the block held of the sector, and what it holds once its line has given way. -/
theorem now_before : state.now ⟨0, 512⟩ = 1 := by decide +kernel

theorem now_after : nextNow (exec (.fillCmd 0 9) state) = some 0 := by decide +kernel

/-- The filled range is one sector, another than this. -/
theorem apart : ∀ i < 1, state.locate (0 + 64 * i) ≠ some ⟨0, 512⟩ := by decide +kernel

end CleanLine

/-- Refutes O28 in its clause on FILL: the line of a filled sector takes the only way of its set from a clean line (R220), whose data the
slice held and DRAM does not hold; `State.sound` does not say that a clean sector agrees with DRAM. -/
theorem not_fillAndCopyWriteRanges : ¬ Obligations.FillAndCopyWriteRanges := by
  unfold Obligations.FillAndCopyWriteRanges
  rintro ⟨hfill, -⟩
  obtain ⟨t, ht, -, -, hkept, -⟩ := hfill 0 9 0 1 CleanLine.fill CleanLine.state CleanLine.fresh (by decide +kernel) (by decide +kernel)
    rfl (by decide +kernel) (by decide +kernel) rfl (by decide +kernel) (by decide +kernel) (by decide +kernel) rfl
    CleanLine.allServed CleanLine.sound (by simp [CleanLine.state, Draws.reset]) (by decide +kernel)
  have hafter := CleanLine.now_after
  rw [ht, CleanLine.nextNow, hkept ⟨0, 512⟩ (by decide) CleanLine.apart, CleanLine.now_before] at hafter
  exact absurd (Option.some.inj hafter) (by decide +kernel)

end Sys2Proof.Machine
end

section
/-!
PROOF of O24's negation: a record whose line makes a dirty one go to DRAM.
-/

namespace Sys2Proof.Machine

namespace DirtyLine

/-- A NOP of Drawer 0 that has ended. -/
def nop : Cmd :=
  { pos := 9, words := [0x01], phase := .done, status := .ok, detail := 0,
    result := 0, late := false, order := 5, seed := 0, armedClose := false, lostEntry := false, holds := [], portStatus := none,
    soft := .ok, grants := 0, gone := false, lostRing := false, queuedOn := [] }

/-- Slice 0 has the sector of the completion ring in its write-back store, and the first sector of line 64, dirty, with the value 1. -/
def slice : Slice := { Slice.empty with lines := [⟨64, [(0, some ⟨mkSec 1, true⟩)]⟩], store := [(0, some (mkSec 0))] }

/-- One stack with channel 0 in service, one way of each set that is not reserved, nothing in DRAM, and the rings of Drawer 0 at address 0. -/
def state : State :=
  { State.reset with
    regs := [(Reg.offset .MW_CONFIG 0, 0x3000001), (Reg.offset .DR_CTL 0, 1), (Reg.offset .SB_CTL 0, 15), (Reg.offset .CE_STATE 0, 0)]
    mem := { Mem.reset with slices := [(0, slice)] }
    draws := { Draws.reset with drawer := [(0, { Drawer.empty with cmds := [nop] })] } }

theorem cached : state.cached 0 [0] := fun i hi =>
  ⟨⟨0, 0⟩, by
    obtain rfl : i = 0 := by simpa using hi
    decide +kernel⟩

theorem noRequests : state.noRequests := ⟨rfl, fun _ => rfl⟩

/-- What the array holds of the sector of the dirty line in the next state. -/
def nextRaw : Host.Outcome State Fault Refusal → Option SectorBits
  | .next t => some (t.rawSector ⟨0, 512⟩)
  | _ => none

theorem raw_before : state.rawSector ⟨0, 512⟩ = 0 := by decide +kernel

theorem raw_after : nextRaw (exec (.commandComplete 0 9) state) = some 1 := by decide +kernel

end DirtyLine

/-- Refutes O24 in its clause on COMMAND_COMPLETE: the ring's sector is in the write-back store and not in a line, so that its write takes
a line (R223), and the dirty line that gives way is written to DRAM, while the clause says that the array is as it was. -/
theorem not_commandsStartAndComplete : ¬ Obligations.CommandsStartAndComplete := by
  unfold Obligations.CommandsStartAndComplete
  rintro ⟨-, hcomplete⟩
  obtain ⟨t, ht, -, -, -, -, -, -, -, -, -, hkept, -⟩ := hcomplete 0 9 0 1 DirtyLine.nop 0 ⟨0, 0⟩ _ DirtyLine.state
    (by decide +kernel) rfl (by decide) (by decide +kernel) (by decide +kernel) (by decide +kernel) (by decide +kernel) (by decide +kernel)
    rfl (.inl (by decide +kernel)) (by decide +kernel) (by decide +kernel) (by decide +kernel) (by decide +kernel) (by decide +kernel)
    DirtyLine.cached (by decide +kernel) DirtyLine.noRequests (by simp [DirtyLine.state, Draws.reset]) (by decide +kernel) rfl
  have hafter := DirtyLine.raw_after
  rw [ht, DirtyLine.nextRaw, (hkept ⟨0, 512⟩ fun _ h => h.elim).1, DirtyLine.raw_before] at hafter
  exact absurd (Option.some.inj hafter) (by decide +kernel)

end Sys2Proof.Machine
end

section
/-!
PROOF of O8's negation: an Anvil that the block does not have, whose status register would lie on GT_TIME.
-/

namespace Sys2Proof.Machine

/-! ## Settling with no requests -/

/-- Where no request waits, settling changes nothing. -/
theorem State.settle_noRequests {s : State} (h : s.noRequests) : s.settle = s := by
  obtain ⟨hwaits, hretry⟩ := h
  have hbuffers : ∀ l : List Nat, (l.foldl (fun s n =>
      if (s.chan n).retry.isEmpty then s else State.cascade n (s.chan n).retry [] s) s) = s := by
    intro l
    induction l with
    | nil => rfl
    | cons n l ih => simpa [hretry n] using ih
  have hheld : s.setWaits [] = s := by rw [← hwaits]; rfl
  unfold State.settle
  rw [hbuffers]
  simp only [State.settleWaits, hwaits, State.settleFrom, List.reverse_nil, hheld]

theorem State.noRequests_of {s t : State} (hc : t.mem.chans = s.mem.chans) (hw : t.ports.waits = s.ports.waits) (h : s.noRequests) :
    t.noRequests :=
  ⟨hw.trans h.1, fun n => by
    have : t.chan n = s.chan n := by simp only [State.chan, hc]
    rw [this, h.2 n]⟩

/-! ## What the steps of a discard leave -/

/-- From `s` to `t` GTC, the Anvils, the channels and the held requests have stood. -/
structure State.Stood (s t : State) : Prop where
  gtc : t.gtc = s.gtc
  anv : t.anv = s.anv
  chans : t.mem.chans = s.mem.chans
  waits : t.ports.waits = s.ports.waits

namespace State.Stood

theorem refl (s : State) : s.Stood s := ⟨rfl, rfl, rfl, rfl⟩

variable {s t u : State}

theorem trans (ht : s.Stood t) (hu : t.Stood u) : s.Stood u :=
  ⟨hu.gtc.trans ht.gtc, hu.anv.trans ht.anv, hu.chans.trans ht.chans, hu.waits.trans ht.waits⟩

theorem setReg (ht : s.Stood t) {r : Reg} {i : Nat} {w : Word} (h : Reg.offset .GT_TIME 0 ≠ r.offset i) : s.Stood (t.setReg r i w) :=
  ht.trans ⟨fld_setReg_other t r F.GT_TIME_GTC i 0 w h, rfl, rfl, rfl⟩

theorem put (ht : s.Stood t) {f : Fld} {i v : Nat} (h : Reg.offset .GT_TIME 0 ≠ f.reg.offset i) : s.Stood (t.put f i v) := ht.setReg h

theorem setMend (ht : s.Stood t) (c : Nat) (m : Mend) : s.Stood (t.setMend c m) := ht.trans ⟨rfl, rfl, rfl, rfl⟩

theorem setPort (ht : s.Stood t) (p : Nat) (x : Port) : s.Stood (t.setPort p x) := ht.trans ⟨rfl, rfl, rfl, rfl⟩

/-- A fold over numbers below `m` keeps what each of its steps keeps. -/
theorem fold {f : State → Nat → State} {l : List Nat} (hf : ∀ t, s.Stood t → ∀ i ∈ l, s.Stood (f t i)) (ht : s.Stood t) :
    s.Stood (l.foldl f t) := List.foldlRecOn l f ht hf

end State.Stood

/-- The first steps of a discard: the Drawers, their interrupt and the kernel slots. -/
def State.discardDrawers (s : State) : State :=
  let s := (List.range 64).foldl (fun s d =>
    ((((((s.put F.DR_CTL_ENABLE d 0).setSqHead d 0).setCqTail d 0).setSqTail d 0).setCqHead d 0).put F.DR_STAT_RING_LOST d 0)) s
  let s := s.put F.MW_IRQ_DRAWER_PENDING 0 0
  (List.range 16).foldl (fun s k => s.setReg .AV_KSLOT k 0) s

/-- The Anvils' status registers in a discard. -/
def State.discardAnvils (s : State) : State :=
  s.anvilsHeld.foldl (fun s a => (s.put F.AV_ENG_BUSY a 0).put F.AV_ENG_ITER_LEFT a 0) s

/-- The granules, channels, Mend units and ports in a discard. -/
def State.discardMemory (s : State) : State :=
  let s := s.setBusy ((List.range 768).filter fun g => s.flag F.RG_GRAN_BUSY g) 0
  let s := ((List.range 256).filter fun n => s.flag F.CE_STATE_REBUILDING n).foldl
    (fun s n => s.put F.CE_STATE_REBUILDING n 0) s
  let s := s.dropPartial
  (Tab.keys s.ports.port).foldl (fun s p => s.setPort p { s.port p with outq := [] }) s

theorem State.discardAll_eq (s : State) : s.discardAll =
    State.settle { s.discardDrawers.discardAnvils.discardMemory with draws := .reset, anv := .reset } := rfl

theorem State.discardDrawers_stood (s : State) : s.Stood s.discardDrawers := by
  refine .fold (fun t ht k hk => ht.setReg ?_) (.put (.fold (fun t ht d hd => ?_) (.refl s)) (by decide))
  · have := List.mem_range.mp hk
    simp only [Reg.offset, Reg.base, Reg.stride]
    omega
  · have := List.mem_range.mp hd
    have hctl : Reg.offset .GT_TIME 0 ≠ Reg.offset .DR_CTL d := by simp only [Reg.offset, Reg.base, Reg.stride]; omega
    have hstat : Reg.offset .GT_TIME 0 ≠ Reg.offset .DR_STAT d := by simp only [Reg.offset, Reg.base, Reg.stride]; omega
    have hdb : Reg.offset .GT_TIME 0 ≠ Reg.offset .DR_DB d := by simp only [Reg.offset, Reg.base, Reg.stride]; omega
    exact ((((((((((ht.put hctl).put hstat).put hstat).put hstat).put hstat).put hdb).put hdb).put hdb).put hdb).put hstat)

theorem State.discardAnvils_requests (s : State) :
    s.discardAnvils.mem.chans = s.mem.chans ∧ s.discardAnvils.ports.waits = s.ports.waits :=
  List.foldlRecOn (motive := fun t : State => t.mem.chans = s.mem.chans ∧ t.ports.waits = s.ports.waits) _ _ ⟨rfl, rfl⟩
    fun _ ht _ _ => ht

theorem State.discardMemory_stood (s : State) : s.Stood s.discardMemory := by
  refine .fold (fun t ht p _ => ht.setPort _ _) (.fold (fun t ht c _ => ht.setMend _ _) (.fold (fun t ht n hn => ht.put ?_)
    (.fold (fun t ht g hg => ht.put ?_) (.refl s))))
  · have := List.mem_range.mp (List.mem_of_mem_filter hn)
    simp only [F.CE_STATE_REBUILDING, Reg.offset, Reg.base, Reg.stride]
    omega
  · have := List.mem_range.mp (List.mem_of_mem_filter hg)
    simp only [F.RG_GRAN_BUSY, Reg.offset, Reg.base, Reg.stride]
    omega

/-- A fall that starts a drain. -/
theorem exec_wrstNFall_acts {s : State} (hw : s.life.wrstN = true) (h : s.wrstActs = true) : exec .wrstNFall s =
    .next ((s.setLife { s.life with wrstN := false }).startDrain .wrst none).discardAll := by
  show execWrstNFall s = _
  simp [execWrstNFall, hw, h]

namespace StrayAnvil

/-- The number of an Anvil whose AV_ENG would have the offset of GT_TIME. -/
def stray : Nat := 48640

theorem offset_stray : Reg.offset .GT_TIME 0 = Reg.offset .AV_ENG stray := by decide

/-- A block that is not released, its clocks running and GTC 2, and whose Anvils are the stray one. -/
def state : State :=
  { State.reset with
    life := { State.reset.life with wrstN := true, porstN := true }
    regs := [(Reg.offset .PW_CLK_STAT 0, 0xFFFFFFFFFFFFFFFF), (Reg.offset .GT_TIME 0, 2)]
    anv := { State.reset.anv with anvil := [(stray, .empty)] } }

/-- The state in which the drain that the fall starts discards what there is. -/
def draining : State := (state.setLife { state.life with wrstN := false }).startDrain .wrst none

theorem noRequests : state.noRequests := ⟨rfl, fun _ => rfl⟩

theorem gtc_before : state.gtc = 2 := by decide +kernel

/-- Clearing BUSY of the stray Anvil clears bit 1 of GTC. -/
theorem gtc_discardAnvils {s : State} (hanv : s.anv = state.anv) (hgtc : s.gtc = 2) : s.discardAnvils.gtc = 0 := by
  have hword : s.reg .GT_TIME 0 = 2#64 := by
    have : (s.reg .GT_TIME 0).toNat / 2 ^ 0 % 2 ^ 64 = 2 := hgtc
    apply BitVec.eq_of_toNat_eq
    rw [Nat.pow_zero, Nat.div_one, Nat.mod_eq_of_lt (s.reg .GT_TIME 0).isLt] at this
    exact this
  have hheld : s.discardAnvils = (s.put F.AV_ENG_BUSY stray 0).put F.AV_ENG_ITER_LEFT stray 0 := by
    simp only [State.discardAnvils, State.anvilsHeld, hanv]
    rfl
  have heng : s.reg .AV_ENG stray = 2#64 := hword
  have hreg : s.discardAnvils.reg .GT_TIME 0 = Fld.into F.AV_ENG_ITER_LEFT (Fld.into F.AV_ENG_BUSY 2#64 0) 0 := by
    rw [hheld]
    show State.reg _ .AV_ENG stray = _
    rw [← heng]
    simp only [State.put, F.AV_ENG_BUSY, F.AV_ENG_ITER_LEFT, reg_setReg_same]
  simp only [State.gtc, State.fld, F.GT_TIME_GTC, hreg]
  decide

/-- A discard in a state with the stray Anvil, GTC at 2 and no request leaves GTC at 0. -/
theorem gtc_discardAll {s : State} (hn : s.noRequests) (hanv : s.anv = state.anv) (hgtc : s.gtc = 2) : s.discardAll.gtc = 0 := by
  have hdrawers := s.discardDrawers_stood
  have hmemory := s.discardDrawers.discardAnvils.discardMemory_stood
  rw [State.discardAll_eq, State.settle_noRequests]
  · exact hmemory.gtc.trans (gtc_discardAnvils (hdrawers.anv.trans hanv) (hdrawers.gtc.trans hgtc))
  · refine State.noRequests_of (s := s) ?_ ?_ hn
    · exact hmemory.chans.trans (s.discardDrawers.discardAnvils_requests.1.trans hdrawers.chans)
    · exact hmemory.waits.trans (s.discardDrawers.discardAnvils_requests.2.trans hdrawers.waits)

theorem exec_fall : exec .wrstNFall state = .next draining.discardAll := by
  rw [exec_wrstNFall_acts rfl (by decide +kernel), draining]

theorem gtc_after : draining.discardAll.gtc = 0 := gtc_discardAll (s := draining) ⟨rfl, fun _ => rfl⟩ rfl (by decide +kernel)

end StrayAnvil

/-- Refutes O8 in its clause on WRST_N_FALL: it quantifies over states whose Anvil table has any number, and clearing BUSY of a number
beyond the block's clears a bit of GTC, which the clause says stands. -/
theorem not_warmResetDrains : ¬ Obligations.WarmResetDrains := by
  unfold Obligations.WarmResetDrains
  rintro ⟨hfall, -⟩
  obtain ⟨t, ht, -, -, -, -, -, -, -, -, -, -, -, -, -, -, hgtc, -⟩ := hfall StrayAnvil.state
    rfl rfl (by decide +kernel) (by decide +kernel) rfl StrayAnvil.noRequests
  rw [StrayAnvil.exec_fall] at ht
  obtain rfl := Host.Outcome.next.inj ht
  rw [StrayAnvil.gtc_after, StrayAnvil.gtc_before] at hgtc
  exact absurd hgtc (by decide)

end Sys2Proof.Machine
end

section
/-!
SUPPORT. Words and fields outside the registers that a write may have changed, and the address map over a change of none of its registers.
-/

namespace Sys2Proof.Machine

/-! ## What a write of other registers leaves -/

@[simp] theorem State.when_true (s : State) (f : State → State) : s.when true f = f s := rfl
@[simp] theorem State.when_false (s : State) (f : State → State) : s.when false f = s := rfl

section
variable {s t : State} {p : Nat → Prop} (h : RegsBut s t p)
include h

theorem RegsBut.reg_eq {r : Reg} {i : Nat} (hi : ¬p (r.offset i)) : t.reg r i = s.reg r i := h _ _ hi

theorem RegsBut.fld_eq {f : Fld} {i : Nat} (hi : ¬p (f.reg.offset i)) : t.fld f i = s.fld f i :=
  congrArg (Fld.of f) (h.reg_eq hi)

theorem RegsBut.mono {q : Nat → Prop} (hpq : ∀ o, p o → q o) : RegsBut s t q := fun d o ho => h d o fun hp => ho (hpq o hp)

theorem RegsBut.put (f : Fld) (i v : Nat) (hp : p (f.reg.offset i)) : RegsBut s (t.put f i v) p := h.setReg _ _ _ hp

theorem RegsBut.raise (c : Cause) (hp : p (Reg.offset .MW_IRQ_CAUSE 0)) : RegsBut s (t.raise c) p := h.put _ _ _ hp

end

/-! ## The address map -/

/-- The address map of `t` is that of `s`: MW_CONFIG and the granules' registers read as they did. -/
structure State.MapKept (s t : State) : Prop where
  config : t.reg .MW_CONFIG 0 = s.reg .MW_CONFIG 0
  gran : ∀ g < 960, t.reg .RG_GRAN g = s.reg .RG_GRAN g

theorem State.tiers_of_config {s t : State} (h : t.reg .MW_CONFIG 0 = s.reg .MW_CONFIG 0) : t.tiers = s.tiers := by
  have hf (f : Fld) (hf : f.reg = .MW_CONFIG) : t.fld f 0 = s.fld f 0 := by rw [State.fld, State.fld, hf, h]
  have hcap : t.siteCap = s.siteCap := funext fun k => by
    rw [State.siteCap, State.siteCap, State.bit, State.bit, hf _ rfl, hf _ rfl]
  rw [State.tiers, State.tiers, hcap]

theorem State.locPlain_of_config {s t : State} (h : t.reg .MW_CONFIG 0 = s.reg .MW_CONFIG 0) : t.locPlain = s.locPlain :=
  funext fun a => by rw [State.locPlain, State.locPlain, State.tiers_of_config h]

theorem State.windowEnd_of_config {s t : State} (h : t.reg .MW_CONFIG 0 = s.reg .MW_CONFIG 0) : t.windowEnd = s.windowEnd := by
  rw [State.windowEnd, State.windowEnd, State.tiers_of_config h]

theorem RegsBut.mapKept {s t : State} {p : Nat → Prop} (h : RegsBut s t p) (hconfig : ¬p (Reg.offset .MW_CONFIG 0))
    (hgran : ∀ g < 960, ¬p (Reg.offset .RG_GRAN g)) : s.MapKept t where
  config := h.reg_eq hconfig
  gran g hg := h.reg_eq (hgran g hg)

theorem State.MapKept.isMended {s t : State} (h : s.MapKept t) {a : Nat} (ha : a < s.windowEnd) : t.isMended a = s.isMended a := by
  have hend := s.windowEnd_le
  have hg : a / gib < 960 := by unfold gib; omega
  have hfld : t.fld F.RG_GRAN_CLASS (a / gib) = s.fld F.RG_GRAN_CLASS (a / gib) := congrArg (Fld.of F.RG_GRAN_CLASS) (h.gran _ hg)
  rw [State.isMended, State.isMended, State.granClass, State.granClass, hfld]

/-- Whether a range of the memory window touches a retired channel rests on the address map and the channels' states. -/
theorem State.MapKept.touchesRetired {s t : State} (h : s.MapKept t) (hc : ∀ n, t.chanState n = s.chanState n) {a len : Nat}
    (he : a + len ≤ s.windowEnd) : t.touchesRetired a len = s.touchesRetired a len := by
  have hburst : ∀ b ∈ burstsOf a len, t.isMended (b * 2048) = s.isMended (b * 2048) := fun b hb => by
    obtain ⟨x, -, hx, rfl⟩ := exists_of_mem_burstsOf hb
    exact h.isMended (by omega)
  unfold State.touchesRetired
  simp only [hc, State.locPlain_of_config h.config]
  congr 1
  rw [Bool.eq_iff_iff, List.any_eq_true, List.any_eq_true]
  exact exists_congr fun b => and_congr_right fun hb => by rw [hburst b hb]

end Sys2Proof.Machine
end

section
/-!
PROOF of O42: Drawers are enabled and disabled, and register commands act on their fields alone.
-/

namespace Sys2Proof.Machine

/-! ## Ring positions (R114) -/

/-- The two fields that hold a position modulo 2^17: the index and its phase. -/
structure Fld.Position (f g : Fld) : Prop where
  reg : g.reg = f.reg
  index : f.w = 16
  phase : g.w = 1
  apart : f.lo + f.w ≤ g.lo
  inside : g.lo + g.w ≤ 64

/-- A position written into its two fields. -/
def State.putPosition (s : State) (f g : Fld) (d p : Nat) : State := (s.put f d p).put g d (p / 65536)

section
variable {f g : Fld} (h : Fld.Position f g)
include h

theorem State.putPosition_same (s : State) (d : Nat) {p : Nat} (hp : p < 131072) :
    (s.putPosition f g d p).fld g d * 65536 + (s.putPosition f g d p).fld f d = p := by
  obtain ⟨hreg, hindex, hphase, hapart, hinside⟩ := h
  rw [State.putPosition, fld_put_same _ _ _ _ hinside, fld_put_field _ _ _ _ _ hreg.symm (.inl hapart), fld_put_same _ _ _ _ (by omega),
    hindex, hphase]
  omega

theorem State.putPosition_field (s : State) (d p : Nat) {e : Fld} (he : e.reg = f.reg)
    (hf : e.lo + e.w ≤ f.lo ∨ f.lo + f.w ≤ e.lo) (hg : e.lo + e.w ≤ g.lo ∨ g.lo + g.w ≤ e.lo) :
    (s.putPosition f g d p).fld e d = s.fld e d := by
  rw [State.putPosition, fld_put_field _ _ _ _ _ (he.trans h.reg.symm) hg, fld_put_field _ _ _ _ _ he hf]

theorem RegsBut.putPosition {s t : State} {q : Nat → Prop} (ht : RegsBut s t q) {d p : Nat} (hq : q (f.reg.offset d)) :
    RegsBut s (t.putPosition f g d p) q := (ht.put f d p hq).put g d _ (h.reg ▸ hq)

end

theorem sqHead_position : Fld.Position F.DR_STAT_SQ_HEAD F.DR_STAT_SQ_HEAD_PHASE := by constructor <;> decide
theorem cqTail_position : Fld.Position F.DR_STAT_CQ_TAIL F.DR_STAT_CQ_TAIL_PHASE := by constructor <;> decide
theorem sqTail_position : Fld.Position F.DR_DB_SQ_TAIL F.DR_DB_SQ_TAIL_PHASE := by constructor <;> decide
theorem cqHead_position : Fld.Position F.DR_DB_CQ_HEAD F.DR_DB_CQ_HEAD_PHASE := by constructor <;> decide

theorem State.position_lt {f g : Fld} (h : Fld.Position f g) (s : State) (d : Nat) : s.fld g d * 65536 + s.fld f d < 131072 := by
  have hf := Fld.of_lt f (s.reg f.reg d)
  have hg := Fld.of_lt g (s.reg g.reg d)
  rw [h.index] at hf
  rw [h.phase] at hg
  unfold State.fld
  omega

theorem RegsBut.setSqTail {s t : State} {q : Nat → Prop} (ht : RegsBut s t q) {d : Nat} (p : Nat) (hq : q (Reg.offset .DR_DB d)) :
    RegsBut s (t.setSqTail d p) q := ht.putPosition sqTail_position hq

theorem RegsBut.setCqHead {s t : State} {q : Nat → Prop} (ht : RegsBut s t q) {d : Nat} (p : Nat) (hq : q (Reg.offset .DR_DB d)) :
    RegsBut s (t.setCqHead d p) q := ht.putPosition cqHead_position hq

section
variable (s : State) (d p : Nat)

theorem State.sqHead_setSqHead (hp : p < 131072) : (s.setSqHead d p).sqHead d = p := State.putPosition_same sqHead_position s d hp
theorem State.cqTail_setCqTail (hp : p < 131072) : (s.setCqTail d p).cqTail d = p := State.putPosition_same cqTail_position s d hp
theorem State.sqTail_setSqTail (hp : p < 131072) : (s.setSqTail d p).sqTail d = p := State.putPosition_same sqTail_position s d hp
theorem State.cqHead_setCqHead (hp : p < 131072) : (s.setCqHead d p).cqHead d = p := State.putPosition_same cqHead_position s d hp

theorem State.sqHead_setCqTail : (s.setCqTail d p).sqHead d = s.sqHead d :=
  congrArg₂ (fun x y => x * 65536 + y) (State.putPosition_field cqTail_position s d p rfl (by decide) (by decide))
    (State.putPosition_field cqTail_position s d p rfl (by decide) (by decide))

theorem State.sqTail_setCqHead : (s.setCqHead d p).sqTail d = s.sqTail d :=
  congrArg₂ (fun x y => x * 65536 + y) (State.putPosition_field cqHead_position s d p rfl (by decide) (by decide))
    (State.putPosition_field cqHead_position s d p rfl (by decide) (by decide))

end

section
variable {s t : State} {d : Nat}

theorem State.sqHead_of_stat (h : t.reg .DR_STAT d = s.reg .DR_STAT d) : t.sqHead d = s.sqHead d := by
  simp only [State.sqHead, State.fld, F.DR_STAT_SQ_HEAD, F.DR_STAT_SQ_HEAD_PHASE, h]

theorem State.cqTail_of_stat (h : t.reg .DR_STAT d = s.reg .DR_STAT d) : t.cqTail d = s.cqTail d := by
  simp only [State.cqTail, State.fld, F.DR_STAT_CQ_TAIL, F.DR_STAT_CQ_TAIL_PHASE, h]

end

/-! ## DRAWER_ENABLE (R113) -/

/-- The offsets of the registers that enabling a Drawer writes. -/
def DrawerRegs (d o : Nat) : Prop := o = Reg.offset .DR_CTL d ∨ o = Reg.offset .DR_STAT d ∨ o = Reg.offset .DR_DB d

theorem not_drawerRegs {d : Nat} (hd : d < 64) {r : Reg} {i : Nat}
    (h : r.offset i < 0x30000 ∨ 0x31000 ≤ r.offset i ∨ r.offset i % 64 < 16) : ¬DrawerRegs d (r.offset i) := by
  unfold DrawerRegs
  rw [show Reg.offset .DR_CTL d = 0x30010 + 0x40 * d from rfl, show Reg.offset .DR_STAT d = 0x30020 + 0x40 * d from rfl,
    show Reg.offset .DR_DB d = 0x30018 + 0x40 * d from rfl]
  omega

theorem ctl_ne_stat (d : Nat) : Reg.offset .DR_CTL d ≠ Reg.offset .DR_STAT d := by simp only [Reg.offset, Reg.base, Reg.stride]; omega
theorem ctl_ne_db (d : Nat) : Reg.offset .DR_CTL d ≠ Reg.offset .DR_DB d := by simp only [Reg.offset, Reg.base, Reg.stride]; omega
theorem stat_ne_db (d : Nat) : Reg.offset .DR_STAT d ≠ Reg.offset .DR_DB d := by simp only [Reg.offset, Reg.base, Reg.stride]; omega

/-- The registers of a Drawer whose ENABLE goes to 1. -/
def State.enableRegs (s : State) (d : Nat) : State :=
  (((((s.put F.DR_CTL_ENABLE d 1).put F.DR_STAT_RING_LOST d 0).setSqHead d 0).setCqTail d 0).setSqTail d 0).setCqHead d 0

/-- A Drawer's counts as ENABLE goes to 1. -/
def State.enableDrawer (s : State) (d : Nat) : State :=
  s.setDrawer d { s.drawer d with records := 0, completed := 0, epoch := if (s.drawer d).cmds.isEmpty then 0 else (s.drawer d).epoch + 1 }

section
variable (s : State) (d : Nat)

@[simp] theorem State.enableDrawer_regs : (s.enableDrawer d).regs = s.regs := rfl
@[simp] theorem State.enableDrawer_mem : (s.enableDrawer d).mem = s.mem := rfl

theorem State.enableRegs_regsBut : RegsBut s (s.enableRegs d) (DrawerRegs d) :=
  have hctl : DrawerRegs d (Reg.offset .DR_CTL d) := .inl rfl
  have hstat : DrawerRegs d (Reg.offset .DR_STAT d) := .inr (.inl rfl)
  have hdb : DrawerRegs d (Reg.offset .DR_DB d) := .inr (.inr rfl)
  .putPosition cqHead_position (.putPosition sqTail_position (.putPosition cqTail_position (.putPosition sqHead_position
    (((RegsBut.refl s _).put F.DR_CTL_ENABLE d 1 hctl).put F.DR_STAT_RING_LOST d 0 hstat) hstat) hstat) hdb) hdb

theorem State.enableRegs_stat : (s.enableRegs d).reg .DR_STAT d =
    ((((s.put F.DR_CTL_ENABLE d 1).put F.DR_STAT_RING_LOST d 0).setSqHead d 0).setCqTail d 0).reg .DR_STAT d := by
  simp only [State.enableRegs, State.setCqHead, State.setSqTail]
  rw [reg_put_other _ _ _ _ _ _ (stat_ne_db d), reg_put_other _ _ _ _ _ _ (stat_ne_db d), reg_put_other _ _ _ _ _ _ (stat_ne_db d),
    reg_put_other _ _ _ _ _ _ (stat_ne_db d)]

theorem State.enableRegs_enable : (s.enableRegs d).fld F.DR_CTL_ENABLE d = 1 := by
  simp only [State.enableRegs, State.setCqHead, State.setSqTail, State.setCqTail, State.setSqHead]
  iterate 4 rw [fld_put_other _ _ _ _ _ _ (ctl_ne_db d)]
  iterate 5 rw [fld_put_other _ _ _ _ _ _ (ctl_ne_stat d)]
  exact fld_put_same _ _ _ _ (by decide)

theorem State.enableRegs_ringLost : (s.enableRegs d).fld F.DR_STAT_RING_LOST d = 0 := by
  refine (congrArg (Fld.of F.DR_STAT_RING_LOST) (s.enableRegs_stat d)).trans ?_
  show State.fld _ F.DR_STAT_RING_LOST d = 0
  simp only [State.setCqTail, State.setSqHead]
  have hkeep (t : State) (f : Fld) (v : Nat) (hreg : f.reg = .DR_STAT) (hf : f.lo + f.w ≤ F.DR_STAT_RING_LOST.lo) :
      (t.put f d v).fld F.DR_STAT_RING_LOST d = t.fld F.DR_STAT_RING_LOST d := fld_put_field _ _ _ _ _ hreg.symm (.inr hf)
  iterate 4 rw [hkeep _ _ _ rfl (by decide)]
  exact fld_put_same _ _ _ _ (by decide)

theorem State.enableRegs_positions : (s.enableRegs d).sqHead d = 0 ∧ (s.enableRegs d).cqTail d = 0 ∧
    (s.enableRegs d).sqTail d = 0 ∧ (s.enableRegs d).cqHead d = 0 := by
  refine ⟨?_, ?_, ?_, State.cqHead_setCqHead _ _ _ (by decide)⟩
  · rw [State.sqHead_of_stat (s.enableRegs_stat d), State.sqHead_setCqTail, State.sqHead_setSqHead _ _ _ (by decide)]
  · rw [State.cqTail_of_stat (s.enableRegs_stat d), State.cqTail_setCqTail _ _ _ (by decide)]
  · rw [State.enableRegs, State.sqTail_setCqHead, State.sqTail_setSqTail _ _ _ (by decide)]

end

/-- R113: a ring that its check admits lies in the memory window. -/
theorem State.ringOk_window {s : State} {d base len log : Nat} (h : s.ringOk d base len log = true) : base + len ≤ s.windowEnd ∨ len = 0 := by
  rcases Nat.eq_zero_or_pos len with h0 | h0
  · exact .inr h0
  · simp only [State.ringOk, Bool.and_eq_true, Bool.not_eq_true'] at h
    exact .inl ((State.badWindow_eq_false h0).mp h.1.2).1

section
variable {s : State} {d : Nat}

/-- What enabling a Drawer writes does not bear on whether its rings touch a retired channel. -/
theorem State.ringRetired_of_drawerRegs {t : State} (hbut : RegsBut s t (DrawerRegs d)) (hd : d < 64)
    (hsq : s.ringOk d (s.sqBase d) (64 * s.sqSize d) (s.fld F.DR_SQ_BASE_SQ_LOG2 d) = true)
    (hcq : s.ringOk d (s.cqBase d) (32 * s.cqSize d) (s.fld F.DR_CQ_BASE_CQ_LOG2 d) = true) :
    t.ringRetired d = s.ringRetired d := by
  have hmap : s.MapKept t := hbut.mapKept (not_drawerRegs hd (by decide)) fun g hg =>
    not_drawerRegs hd (.inr (.inl (by simp only [Reg.offset, Reg.base, Reg.stride]; omega)))
  have hchan (n : Nat) : t.chanState n = s.chanState n :=
    hbut.fld_eq (not_drawerRegs hd (.inr (.inl (by simp only [F.CE_STATE_STATE, Reg.offset, Reg.base, Reg.stride]; omega))))
  have hring (f : Fld) (hf : f.reg = .DR_SQ_BASE ∨ f.reg = .DR_CQ_BASE) : t.fld f d = s.fld f d := hbut.fld_eq (not_drawerRegs hd (by
    rcases hf with hf | hf <;> rw [hf] <;> simp only [Reg.offset, Reg.base, Reg.stride] <;> omega))
  have hsqBase : t.sqBase d = s.sqBase d := congrArg (· * 4096) (hring F.DR_SQ_BASE_SQ_BASE (.inl rfl))
  have hcqBase : t.cqBase d = s.cqBase d := congrArg (· * 4096) (hring F.DR_CQ_BASE_CQ_BASE (.inr rfl))
  have hsqSize : t.sqSize d = s.sqSize d := congrArg (2 ^ ·) (hring F.DR_SQ_BASE_SQ_LOG2 (.inl rfl))
  have hcqSize : t.cqSize d = s.cqSize d := congrArg (2 ^ ·) (hring F.DR_CQ_BASE_CQ_LOG2 (.inr rfl))
  have hsqPos : 0 < s.sqSize d := Nat.two_pow_pos _
  have hcqPos : 0 < s.cqSize d := Nat.two_pow_pos _
  rw [State.ringRetired, State.ringRetired, hsqBase, hcqBase, hsqSize, hcqSize,
    hmap.touchesRetired hchan ((State.ringOk_window hsq).resolve_right (by omega)),
    hmap.touchesRetired hchan ((State.ringOk_window hcq).resolve_right (by omega))]

/-- A Drawer whose rings R113 admits. -/
theorem State.drawerEnable_admitted (hd : d < 64) (he : s.flag F.DR_CTL_ENABLE d = false)
    (hsq : s.ringOk d (s.sqBase d) (64 * s.sqSize d) (s.fld F.DR_SQ_BASE_SQ_LOG2 d) = true)
    (hcq : s.ringOk d (s.cqBase d) (32 * s.cqSize d) (s.fld F.DR_CQ_BASE_CQ_LOG2 d) = true) :
    s.drawerEnable d = ((s.enableRegs d).enableDrawer d).when (s.ringRetired d) (·.ringLost d) := by
  have hbut : RegsBut s ((s.enableRegs d).enableDrawer d) (DrawerRegs d) := .congr (State.enableDrawer_regs _ d) (s.enableRegs_regsBut d)
  rw [← State.ringRetired_of_drawerRegs hbut hd hsq hcq]
  rw [State.drawerEnable, he, hsq, hcq]
  rfl

theorem State.drawerEnable_refused (he : s.flag F.DR_CTL_ENABLE d = false)
    (h : s.ringOk d (s.sqBase d) (64 * s.sqSize d) (s.fld F.DR_SQ_BASE_SQ_LOG2 d) = false ∨
      s.ringOk d (s.cqBase d) (32 * s.cqSize d) (s.fld F.DR_CQ_BASE_CQ_LOG2 d) = false) :
    s.drawerEnable d = (s.put F.DR_CTL_CFG_ERR d 1).raise .drawerErr := by
  have hring : (s.ringOk d (s.sqBase d) (64 * s.sqSize d) (s.fld F.DR_SQ_BASE_SQ_LOG2 d) &&
      s.ringOk d (s.cqBase d) (32 * s.cqSize d) (s.fld F.DR_CQ_BASE_CQ_LOG2 d)) = false := by
    rcases h with h | h <;> simp [h]
  rw [State.drawerEnable, he, hring]
  rfl

end

/-- R336: the event's bit is set. -/
theorem State.bit_raise (s : State) (c : Cause) : (s.raise c).bit F.MW_IRQ_CAUSE_EVENT 0 c.bit = true := by
  have hbit : c.bit < 8 := by cases c <;> decide
  rw [State.raise, State.putBit, if_pos rfl, State.bit, fld_put_same _ _ _ _ (by decide), Nat.testBit_mod_two_pow, Nat.testBit_or,
    Nat.testBit_two_pow_self, Bool.or_true, Bool.and_true]
  exact decide_eq_true hbit

theorem State.fld_raise (s : State) (c : Cause) {f : Fld} {i : Nat} (h : f.reg.offset i ≠ Reg.offset .MW_IRQ_CAUSE 0) :
    (s.raise c).fld f i = s.fld f i := fld_put_other _ _ _ _ _ _ h

/-- A lost ring of a Drawer: RING_LOST and the integrity cause are set, and every started command has lost its record. -/
theorem State.ringLost_spec (s : State) (d : Nat) :
    (s.ringLost d).regs = ((s.put F.DR_STAT_RING_LOST d 1).raise .integrity).regs ∧ (s.ringLost d).mem = s.mem ∧
      ∀ c ∈ ((s.ringLost d).drawer d).cmds, c.lostRing = true := by
  rw [State.ringLost]
  split
  case isTrue h =>
    refine ⟨rfl, rfl, fun c hc => ?_⟩
    rw [List.isEmpty_iff.mp h] at hc
    cases hc
  case isFalse h =>
    refine ⟨rfl, rfl, fun c hc => ?_⟩
    rw [State.drawer_setDrawer_same] at hc
    obtain ⟨x, -, rfl⟩ := List.mem_map.mp hc
    rfl

section
variable {s : State} {d : Nat} (hd : d < 64) (he : s.flag F.DR_CTL_ENABLE d = false)
  (hsq : s.ringOk d (s.sqBase d) (64 * s.sqSize d) (s.fld F.DR_SQ_BASE_SQ_LOG2 d) = true)
  (hcq : s.ringOk d (s.cqBase d) (32 * s.cqSize d) (s.fld F.DR_CQ_BASE_CQ_LOG2 d) = true)

theorem State.enableRegs_draws (s : State) (d : Nat) : (s.enableRegs d).draws = s.draws := by
  simp only [State.enableRegs, State.setCqHead, State.setSqTail, State.setCqTail, State.setSqHead, State.put_draws]

theorem State.enableRegs_mem (s : State) (d : Nat) : (s.enableRegs d).mem = s.mem := by
  simp only [State.enableRegs, State.setCqHead, State.setSqTail, State.setCqTail, State.setSqHead, State.put_mem]

theorem State.enableRegs_drawer (s : State) (d e : Nat) : (s.enableRegs d).drawer e = s.drawer e := by
  rw [State.drawer, State.drawer, State.enableRegs_draws]

theorem State.drawer_enable_same (s : State) (d : Nat) : ((s.enableRegs d).enableDrawer d).drawer d =
    { s.drawer d with records := 0, completed := 0, epoch := if (s.drawer d).cmds = [] then 0 else (s.drawer d).epoch + 1 } := by
  rw [State.enableDrawer, State.drawer_setDrawer_same, State.enableRegs_drawer]
  simp only [List.isEmpty_iff]

theorem State.drawer_enable_other (s : State) {d e : Nat} (h : e ≠ d) : ((s.enableRegs d).enableDrawer d).drawer e = s.drawer e := by
  rw [State.enableDrawer, State.drawer_setDrawer_other _ _ _ h, State.enableRegs_drawer]

include hd he hsq hcq

theorem State.drawerEnable_serves (hr : s.ringRetired d = false) : s.drawerEnable d = (s.enableRegs d).enableDrawer d := by
  rw [State.drawerEnable_admitted hd he hsq hcq, hr, State.when_false]

theorem State.drawerEnable_lost (hr : s.ringRetired d = true) : s.drawerEnable d = ((s.enableRegs d).enableDrawer d).ringLost d := by
  rw [State.drawerEnable_admitted hd he hsq hcq, hr, State.when_true]

end

section
variable {s : State} {d : Nat}

/-- A lost ring leaves ENABLE and sets RING_LOST and the integrity cause. -/
theorem State.ringLost_flags (hd : d < 64) (he : s.fld F.DR_CTL_ENABLE d = 1) : (s.ringLost d).fld F.DR_CTL_ENABLE d = 1 ∧
    (s.ringLost d).fld F.DR_STAT_RING_LOST d = 1 ∧ (s.ringLost d).bit F.MW_IRQ_CAUSE_EVENT 0 Cause.integrity.bit = true := by
  have hfld (f : Fld) (i : Nat) := State.fld_congr (s.ringLost_spec d).1 f i
  have hirq {r : Reg} (hr : r = .DR_CTL ∨ r = .DR_STAT) : r.offset d ≠ Reg.offset .MW_IRQ_CAUSE 0 := by
    rcases hr with rfl | rfl <;> simp only [Reg.offset, Reg.base, Reg.stride] <;> omega
  refine ⟨?_, ?_, ?_⟩
  · rw [hfld, State.fld_raise _ _ (hirq (.inl rfl)), fld_put_other _ _ _ _ _ _ (ctl_ne_stat d), he]
  · rw [hfld, State.fld_raise _ _ (hirq (.inr rfl)), fld_put_same _ _ _ _ (by decide)]
    rfl
  · rw [State.bit, hfld]
    exact State.bit_raise _ .integrity

/-- A refused ENABLE sets CFG_ERR and the Drawer-error cause, and stays 0. -/
theorem State.refused_flags (he : s.flag F.DR_CTL_ENABLE d = false) :
    ((s.put F.DR_CTL_CFG_ERR d 1).raise .drawerErr).fld F.DR_CTL_ENABLE d = 0 ∧
      ((s.put F.DR_CTL_CFG_ERR d 1).raise .drawerErr).fld F.DR_CTL_CFG_ERR d = 1 ∧
      ((s.put F.DR_CTL_CFG_ERR d 1).raise .drawerErr).bit F.MW_IRQ_CAUSE_EVENT 0 Cause.drawerErr.bit = true := by
  have hirq : Reg.offset .DR_CTL d ≠ Reg.offset .MW_IRQ_CAUSE 0 := by simp only [Reg.offset, Reg.base, Reg.stride]; omega
  refine ⟨?_, ?_, State.bit_raise _ .drawerErr⟩
  · rw [State.fld_raise _ _ hirq, fld_put_field _ F.DR_CTL_CFG_ERR F.DR_CTL_ENABLE _ _ rfl (by decide)]
    simpa [State.flag] using he
  · rw [State.fld_raise _ _ hirq, fld_put_same _ _ _ _ (by decide)]
    rfl

end

/-! ## DRAWER_DISABLE and the doorbells (R115, R124) -/

/-- R124: disabling a Drawer clears ENABLE and RING_LOST and no other bit. -/
theorem State.drawerDisable_regs (s : State) (d : Nat) : RegsAre s (s.drawerDisable d)
    [(.DR_CTL, d, Fld.into F.DR_CTL_ENABLE (s.reg .DR_CTL d) 0), (.DR_STAT, d, Fld.into F.DR_STAT_RING_LOST (s.reg .DR_STAT d) 0)] := by
  have hstat : (s.put F.DR_CTL_ENABLE d 0).reg .DR_STAT d = s.reg .DR_STAT d := reg_put_other _ _ _ _ _ _ (ctl_ne_stat d).symm
  refine ⟨fun e he => ?_, fun c o ho => ?_⟩
  · rcases List.mem_cons.mp he with rfl | he
    · exact (reg_put_other _ _ _ _ _ _ (ctl_ne_stat d)).trans (reg_put_same _ _ _ _)
    · rw [List.mem_singleton.mp he, ← hstat]
      exact reg_put_same _ _ _ _
  · rw [State.drawerDisable, get_put_other _ _ _ _ _ _ (ho _ (.tail _ (.head _))), get_put_other _ _ _ _ _ _ (ho _ (.head _))]

theorem occupancy_eq {a b : Nat} (hb : b < 131072) : occupancy a b = (a + 2 ^ 17 - b) % 2 ^ 17 := by
  rw [occupancy, ringMod, Nat.mod_eq_of_lt hb]
  rfl

/-- R115: doorbells that both occupancies allow take both positions. -/
theorem State.doorBoth_taken {s : State} {d a b : Nat} {v : Word} (he : s.flag F.DR_CTL_ENABLE d = true) (ha : bits v 0 17 = a)
    (hb : bits v 32 17 = b) (hsq : occupancy a (s.sqHead d) ≤ s.sqSize d) (hcq : occupancy (s.cqTail d) b ≤ s.cqSize d) :
    (s.doorBoth d v).2 = (s.setSqTail d a).setCqHead d b := by
  have hsqDoor : s.doorSq d a = (.ok, s.setSqTail d a) := by
    rw [State.doorSq, he, if_neg (by decide), if_neg (by omega)]
  have hbut : RegsBut s (s.setSqTail d a) (fun o => o = Reg.offset .DR_DB d) := (RegsBut.refl s _).setSqTail a rfl
  have henable : (s.setSqTail d a).flag F.DR_CTL_ENABLE d = true := by rw [State.flag, hbut.fld_eq (ctl_ne_db d)]; exact he
  have htail : (s.setSqTail d a).cqTail d = s.cqTail d := State.cqTail_of_stat (hbut.reg_eq (stat_ne_db d))
  have hsize : (s.setSqTail d a).cqSize d = s.cqSize d := congrArg (2 ^ ·) (hbut.fld_eq (f := F.DR_CQ_BASE_CQ_LOG2) (by
    simp only [F.DR_CQ_BASE_CQ_LOG2, Reg.offset, Reg.base, Reg.stride]
    omega))
  have hcqDoor : (s.setSqTail d a).doorCq d b = (.ok, (s.setSqTail d a).setCqHead d b) := by
    rw [State.doorCq, henable, if_neg (by decide), htail, hsize, if_neg (by omega)]
  simp only [State.doorBoth, ha, hb, hsqDoor, hcqDoor]

/-! ## REGISTER_WRITE (R341) -/

/-- An offset names one register. -/
theorem Reg.offset_of_ofOffset {o : Nat} {r : Reg} {i : Nat} (h : Reg.ofOffset o = some (r, i)) : r.offset i = o := by
  obtain ⟨q, -, hq⟩ := List.exists_of_findSome?_eq_some h
  split at hq
  case isTrue hone =>
    split at hq
    case isTrue ho =>
      obtain ⟨rfl, rfl⟩ := Prod.mk.inj (Option.some.inj hq)
      rw [Reg.offset, Nat.mul_zero, Nat.add_zero, ho]
    case isFalse => cases hq
  case isFalse =>
    split at hq
    case isTrue ho =>
      obtain ⟨hle, hmod, -⟩ := ho
      obtain ⟨rfl, rfl⟩ := Prod.mk.inj (Option.some.inj hq)
      have := Nat.mul_div_cancel' (Nat.dvd_of_mod_eq_zero hmod)
      rw [Reg.offset]
      omega
    case isFalse => cases hq

/-- What a field holds after a write of `v` by its access code (Table 0-3). -/
def fieldWritten (f : FSpec) (old : Nat) (v : Word) : Nat := match f.acc with
  | .rw => Fld.of f.fld v
  | .w1c => old ^^^ (old &&& Fld.of f.fld v)
  | .ro => old
  | .wo => old

/-- Two fields of a register that share no bit. -/
def FieldsApart (f g : FSpec) : Prop := f.fld.lo + f.fld.w ≤ g.fld.lo ∨ g.fld.lo + g.fld.w ≤ f.fld.lo

section
variable (s : State) (i : Nat) (v : Word)

theorem State.writeField_regsBut {t : State} {p : Nat → Prop} (h : RegsBut s t p) (f : FSpec) (hp : p (f.fld.reg.offset i)) :
    RegsBut s (t.writeField f i v) p := by
  unfold State.writeField
  split
  · exact h.put _ _ _ hp
  · exact h.put _ _ _ hp
  · exact h
  · exact h

theorem State.writeField_rest (f : FSpec) : s.writeField f i v = { s with regs := (s.writeField f i v).regs } := by
  unfold State.writeField
  split <;> rfl

theorem State.writeField_same (f : FSpec) (hf : f.fld.lo + f.fld.w ≤ 64) :
    (s.writeField f i v).fld f.fld i = fieldWritten f (s.fld f.fld i) v := by
  have hold : s.fld f.fld i < 2 ^ f.fld.w := Fld.of_lt _ _
  unfold State.writeField fieldWritten
  cases f.acc with
  | rw => exact (fld_put_same _ _ _ _ hf).trans (Nat.mod_eq_of_lt (Fld.of_lt _ _))
  | w1c => exact (fld_put_same _ _ _ _ hf).trans (Nat.mod_eq_of_lt (Nat.xor_lt_two_pow hold (Nat.lt_of_le_of_lt Nat.and_le_left hold)))
  | ro => rfl
  | wo => rfl

theorem State.writeField_apart {f g : FSpec} (hr : g.fld.reg = f.fld.reg) (h : FieldsApart f g) :
    (s.writeField f i v).fld g.fld i = s.fld g.fld i := by
  unfold State.writeField
  split
  · exact fld_put_field _ _ _ _ _ hr h.symm
  · exact fld_put_field _ _ _ _ _ hr h.symm
  · rfl
  · rfl

end

/-- A write of the fields of a list, no two of which share a bit, gives each what its access code says. -/
theorem State.writeFields_list {r : Reg} {i : Nat} {v : Word} (l : List FSpec) (hreg : ∀ f ∈ l, f.fld.reg = r)
    (hin : ∀ f ∈ l, f.fld.lo + f.fld.w ≤ 64) (hap : l.Pairwise FieldsApart) : ∀ s : State,
    (∀ g : FSpec, g.fld.reg = r → (∀ f ∈ l, FieldsApart f g) → (l.foldl (fun s f => s.writeField f i v) s).fld g.fld i = s.fld g.fld i) ∧
      ∀ f ∈ l, (l.foldl (fun s f => s.writeField f i v) s).fld f.fld i = fieldWritten f (s.fld f.fld i) v := by
  induction l with
  | nil => exact fun s => ⟨fun _ _ _ => rfl, fun _ h => nomatch h⟩
  | cons f l ih =>
    intro s
    obtain ⟨hf, hl⟩ := List.pairwise_cons.mp hap
    obtain ⟨hother, hsame⟩ := ih (fun g hg => hreg g (.tail _ hg)) (fun g hg => hin g (.tail _ hg)) hl (s.writeField f i v)
    have hrf := hreg f (.head _)
    refine ⟨fun g hr hg => ?_, fun g hg => ?_⟩
    · exact (hother g hr fun e he => hg e (.tail _ he)).trans (s.writeField_apart i v (hr.trans hrf.symm) (hg f (.head _)))
    · rcases List.mem_cons.mp hg with rfl | hg
      · exact (hother g hrf fun e he => (hf e he).symm).trans (s.writeField_same i v g (hin g (.head _)))
      · rw [List.foldl_cons, hsame g hg, s.writeField_apart i v ((hreg g (.tail _ hg)).trans hrf.symm) (hf g hg)]

/-- The registers whose fields act by their access codes alone, of those the statement names. -/
def plainRegs : List Reg := [.MW_IRQ_MASK, .PT_FLAGS, .IN_STAT, .GT_SYNC_DLY, .CR_RCTX0, .CR_RCTX1, .PA_PORTS, .AV_ASSAY_STAT]

theorem plainRegs_fields : ∀ r ∈ plainRegs, (∀ f ∈ r.fields, f.fld.reg = r) ∧ (∀ f ∈ r.fields, f.fld.lo + f.fld.w ≤ 64) ∧
    r.fields.Pairwise FieldsApart := by
  unfold FieldsApart
  decide

theorem regWrite_plain {r : Reg} (hr : r ∈ plainRegs) (i : Nat) (v : Word) (s : State) : s.regWrite r i v = (.ok, s.writeFields r i v) := by
  simp only [plainRegs, List.mem_cons, List.not_mem_nil, or_false] at hr
  rcases hr with rfl | rfl | rfl | rfl | rfl | rfl | rfl | rfl <;> rfl

theorem State.writeFields_rest (s : State) (r : Reg) (i : Nat) (v : Word) :
    s.writeFields r i v = { s with regs := (s.writeFields r i v).regs } :=
  List.foldlRecOn (motive := fun t : State => t = { s with regs := t.regs }) _ _ rfl fun t ht f _ => by
    rw [State.writeField_rest t i v f, ht]

theorem State.writeFields_regsBut {r : Reg} (hreg : ∀ f ∈ r.fields, f.fld.reg = r) (s : State) (i : Nat) (v : Word) :
    RegsBut s (s.writeFields r i v) (fun x => x = r.offset i) :=
  List.foldlRecOn (motive := fun t : State => RegsBut s t (fun x => x = r.offset i)) _ _ (RegsBut.refl s _) fun _ ht f hf =>
    State.writeField_regsBut s i v ht f (by rw [hreg f hf])

/-- R341: a write of a register with plain fields. -/
theorem State.writeFields_plain {r : Reg} (hr : r ∈ plainRegs) (s : State) (i : Nat) (v : Word) : ∀ f ∈ r.fields,
    (s.writeFields r i v).fld f.fld i = fieldWritten f (s.fld f.fld i) v := by
  obtain ⟨hreg, hin, hap⟩ := plainRegs_fields r hr
  exact (State.writeFields_list r.fields hreg hin hap s).2

theorem fieldWritten_w1c {f : FSpec} (h : f.acc = .w1c) (old : Nat) (v : Word) (k : Nat) :
    (fieldWritten f old v).testBit k = (old.testBit k && !(Fld.of f.fld v).testBit k) := by
  rw [fieldWritten, h, Nat.testBit_xor, Nat.testBit_and]
  cases old.testBit k <;> cases (Fld.of f.fld v).testBit k <;> rfl

/-! ## The commands -/

theorem exec_drawerEnable {s : State} (h : s.csrOpen = true) (n : Fin 64) : exec (.drawerEnable n) s = .next (s.drawerEnable n.val) := by
  show execDrawerEnable n s = _
  rw [execDrawerEnable, if_pos h]

theorem exec_drawerDisable {s : State} (h : s.csrOpen = true) (n : Fin 64) : exec (.drawerDisable n) s = .next (s.drawerDisable n.val) := by
  show execDrawerDisable n s = _
  rw [execDrawerDisable, if_pos h]

theorem exec_drDbWrite {s : State} (h : s.csrOpen = true) (n : Fin 64) (v : Word) :
    exec (.drDbWrite n v) s = .next (s.doorBoth n.val v).2 := by
  show execDrDbWrite n v s = _
  rw [execDrDbWrite, if_pos h]

theorem exec_mwIrqSet {s : State} (h : s.csrOpen = true) (v : BitVec 8) :
    exec (.mwIrqSet v) s = .next (s.put F.MW_IRQ_CAUSE_EVENT 0 (s.fld F.MW_IRQ_CAUSE_EVENT 0 ||| v.toNat)) := by
  show execMwIrqSet v s = _
  rw [execMwIrqSet, if_pos h]

theorem exec_registerWrite_plain {s : State} (h : s.csrOpen = true) {o : BitVec 24} {r : Reg} {i : Nat}
    (ho : Reg.ofOffset o.toNat = some (r, i)) (hr : r ∈ plainRegs) (v : Word) :
    exec (.registerWrite o v) s = .next (s.writeFields r i v) := by
  show execRegisterWrite o v s = _
  rw [execRegisterWrite, if_pos h, State.csrWrite, ho]
  dsimp only
  rw [regWrite_plain hr]

/-- A write of no register's offset, or in a block whose registers are not open, changes nothing. -/
theorem exec_registerWrite_none {s : State} {o : BitVec 24} (v : Word) (h : Reg.ofOffset o.toNat = none ∨ s.csrOpen = false) :
    exec (.registerWrite o v) s = .next s := by
  show execRegisterWrite o v s = _
  rw [execRegisterWrite]
  rcases h with h | h
  · rw [State.csrWrite, h]
    simp only [ite_self]
  · rw [h]
    rfl

/-- Settles O42, command by command. -/
theorem registerCommandsAct : Obligations.RegisterCommandsAct := by
  unfold Obligations.RegisterCommandsAct
  refine ⟨⟨fun n s hopen he => ⟨fun hsq hcq hr => ?_, fun hsq hcq hr => ?_, fun h => ?_⟩, fun n s hopen => ?_,
    fun n v a b s hopen he ha hb hsq hcq => ?_⟩, fun v s hopen => ?_, fun o v r i s hopen ho hr => ?_,
    fun o v s h => exec_registerWrite_none v h⟩
  · obtain ⟨hsqHead, hcqTail, hsqTail, hcqHead⟩ := s.enableRegs_positions n.val
    have hregs := State.enableDrawer_regs (s.enableRegs n.val) n.val
    have hbut : RegsBut s ((s.enableRegs n.val).enableDrawer n.val) (DrawerRegs n.val) := .congr hregs (s.enableRegs_regsBut n.val)
    refine ⟨_, by rw [exec_drawerEnable hopen, State.drawerEnable_serves n.isLt he hsq hcq hr], ?_, ?_, ?_, ?_, ?_, ?_,
      s.drawer_enable_same n.val, fun e hne => s.drawer_enable_other hne, ?_, hbut⟩
    · rw [State.fld_congr hregs, State.enableRegs_enable]
    · rw [State.sqHead_of_stat (State.reg_congr hregs _ _), hsqHead]
    · rw [State.cqTail_of_stat (State.reg_congr hregs _ _), hcqTail]
    · rw [← hsqTail, State.sqTail, State.sqTail, State.fld_congr hregs, State.fld_congr hregs]
    · rw [← hcqHead, State.cqHead, State.cqHead, State.fld_congr hregs, State.fld_congr hregs]
    · rw [State.fld_congr hregs, State.enableRegs_ringLost]
    · rw [State.enableDrawer_mem, State.enableRegs_mem]
  · have hregs := State.enableDrawer_regs (s.enableRegs n.val) n.val
    obtain ⟨henable, hlost, hirq⟩ := State.ringLost_flags n.isLt
      ((State.fld_congr hregs F.DR_CTL_ENABLE n.val).trans (s.enableRegs_enable n.val))
    obtain ⟨-, hmem, hcmds⟩ := ((s.enableRegs n.val).enableDrawer n.val).ringLost_spec n.val
    refine ⟨_, by rw [exec_drawerEnable hopen, State.drawerEnable_lost n.isLt he hsq hcq hr], henable, hlost, hirq, hcmds, ?_⟩
    rw [hmem, State.enableDrawer_mem, State.enableRegs_mem]
  · obtain ⟨henable, hcfg, hirq⟩ := State.refused_flags he
    exact ⟨_, by rw [exec_drawerEnable hopen, State.drawerEnable_refused he h], henable, hcfg, hirq, rfl,
      ((RegsBut.refl s _).put _ _ _ (.inl rfl)).raise _ (.inr rfl)⟩
  · exact ⟨_, exec_drawerDisable hopen n, rfl, s.drawerDisable_regs n.val⟩
  · have hav : bits v 0 17 = a := by rw [ha, bits, Nat.pow_zero, Nat.div_one]
    have hhead : s.sqHead n.val < 131072 := State.position_lt sqHead_position s n.val
    rw [← occupancy_eq hhead] at hsq
    rw [← occupancy_eq (by omega)] at hcq
    have hbut : RegsBut s ((s.setSqTail n.val a).setCqHead n.val b) (fun o => o = Reg.offset .DR_DB n.val) :=
      .setCqHead (q := fun o => o = Reg.offset .DR_DB n.val) (.setSqTail (.refl s _) a rfl) b rfl
    refine ⟨_, by rw [exec_drDbWrite hopen, State.doorBoth_taken he hav hb.symm hsq hcq], ?_, ?_, rfl, hbut⟩
    · rw [State.sqTail_setCqHead, State.sqTail_setSqTail _ _ _ (by omega)]
    · rw [State.cqHead_setCqHead _ _ _ (by omega)]
  · have hold : s.fld F.MW_IRQ_CAUSE_EVENT 0 < 2 ^ 8 := Fld.of_lt _ _
    refine ⟨_, exec_mwIrqSet hopen v, rfl, ?_, fld_put_field _ _ _ _ _ rfl (by decide), (RegsBut.refl s _).put _ _ _ rfl⟩
    rw [fld_put_same _ _ _ _ (by decide)]
    exact Nat.mod_eq_of_lt (Nat.or_lt_two_pow hold v.isLt)
  · have hwritten := State.writeFields_plain hr s i v
    refine ⟨_, exec_registerWrite_plain hopen ho hr v, s.writeFields_rest r i v, ?_, fun f hf => ⟨fun hrw => ?_, fun hkept => ?_,
      fun hw1c k _ => ?_⟩⟩
    · rw [← Reg.offset_of_ofOffset ho]
      exact State.writeFields_regsBut (plainRegs_fields r hr).1 s i v
    · rw [hwritten f hf, fieldWritten, hrw]
    · rw [hwritten f hf, fieldWritten]
      rcases hkept with h | h <;> rw [h]
    · rw [State.bit, hwritten f hf, fieldWritten_w1c hw1c]
      rfl

end Sys2Proof.Machine
end

section
/-!
SUPPORT. Several fields of one register, written one after the other.
-/

namespace Sys2Proof.Machine

/-- The listed fields of register index `i` take their values, in the order of the list. -/
def State.putAll (s : State) (i : Nat) (fs : List (Fld × Nat)) : State := fs.foldl (fun s e => s.put e.1 i e.2) s

section
variable {r : Reg} (i : Nat)

theorem State.putAll_rest (fs : List (Fld × Nat)) (s : State) : s.putAll i fs = { s with regs := (s.putAll i fs).regs } :=
  List.foldlRecOn (motive := fun t : State => t = { s with regs := t.regs }) _ _ rfl fun t ht e _ =>
    (show t.put e.1 i e.2 = { t with regs := (t.put e.1 i e.2).regs } from rfl).trans (by rw [ht])

theorem RegsBut.putAll {s t : State} {p : Nat → Prop} (h : RegsBut s t p) {fs : List (Fld × Nat)}
    (hp : ∀ e ∈ fs, p (e.1.reg.offset i)) : RegsBut s (t.putAll i fs) p :=
  List.foldlRecOn (motive := fun u : State => RegsBut s u p) _ _ h fun _ hu e he => hu.put _ _ _ (hp e he)

theorem State.reg_putAll {fs : List (Fld × Nat)} (hf : ∀ e ∈ fs, e.1.reg = r) : ∀ s : State,
    (s.putAll i fs).reg r i = fieldsInto (s.reg r i) fs := by
  induction fs with
  | nil => exact fun _ => rfl
  | cons e fs ih =>
    intro s
    have he : (s.put e.1 i e.2).reg r i = Fld.into e.1 (s.reg r i) e.2 := by
      rw [← hf e (.head _)]
      exact reg_put_same _ _ _ _
    exact (ih (fun x hx => hf x (.tail _ hx)) _).trans (by rw [he]; rfl)

/-- One more register has some of its fields written, at an offset of its own. -/
theorem RegsAre.putAll {s t : State} {ws : List (Reg × Nat × Word)} (g : RegsAre s t ws) {fs : List (Fld × Nat)}
    (hf : ∀ e ∈ fs, e.1.reg = r) (h : ∀ e ∈ ws, e.1.offset e.2.1 ≠ r.offset i) :
    RegsAre s (t.putAll i fs) ((r, i, fieldsInto (t.reg r i) fs) :: ws) := by
  have hbut : RegsBut t (t.putAll i fs) (fun o => o = r.offset i) := (RegsBut.refl t _).putAll i fun e he => by rw [hf e he]
  refine ⟨fun e he => ?_, fun d o ho => ?_⟩
  · rcases List.mem_cons.mp he with rfl | he
    · exact State.reg_putAll i hf t
    · rw [hbut.reg_eq (h e he)]
      exact g.1 e he
  · rw [hbut d o (ho _ (.head _))]
    exact g.2 d o fun e he => ho e (.tail _ he)

end

/-- The order in which the registers are listed plays no part. -/
theorem RegsAre.reverse {s t : State} {ws : List (Reg × Nat × Word)} (g : RegsAre s t ws) : RegsAre s t ws.reverse :=
  ⟨fun e he => g.1 e (List.mem_reverse.mp he), fun d o ho => g.2 d o fun e he => ho e (List.mem_reverse.mpr he)⟩

end Sys2Proof.Machine
end

section
/-!
PROOF of O21: PARTITION_SET and POWER_CAP write what their arguments say.
-/

namespace Sys2Proof.Machine

/-! ## Shares computed again (R170) -/

/-- Only the ports' accounts and what was sent have changed. -/
def PortsOnly (s t : State) : Prop := t = { s with sent := t.sent, ports := { s.ports with port := t.ports.port } }

theorem PortsOnly.refl (s : State) : PortsOnly s s := rfl

theorem PortsOnly.trans {s t u : State} (h : PortsOnly s t) (g : PortsOnly t u) : PortsOnly s u := by
  unfold PortsOnly at *
  rw [g, h]

section
variable {s t : State} (h : PortsOnly s t)
include h

theorem PortsOnly.regs : t.regs = s.regs := by rw [h]
theorem PortsOnly.draws : t.draws = s.draws := by rw [h]
theorem PortsOnly.tokens : t.ports.tokens = s.ports.tokens := by rw [h]
theorem PortsOnly.units : t.mem = s.mem ∧ t.anv = s.anv ∧ t.pl = s.pl ∧ t.power = s.power := by
  rw [h]
  exact ⟨rfl, rfl, rfl, rfl⟩

end

theorem State.sendCredit_ports (s : State) (p part tc : Nat) (c : Credits) : PortsOnly s (s.sendCredit p part tc c) := by
  unfold State.sendCredit
  dsimp only
  split <;> split <;> rfl

theorem State.setPort_ports (s : State) (p : Nat) (x : Port) : PortsOnly s (s.setPort p x) := rfl

theorem State.topUp_ports (s : State) (p part tc : Nat) : PortsOnly s (s.topUp p part tc) := by
  unfold State.topUp
  exact (s.setPort_ports p _).trans (State.sendCredit_ports _ _ _ _ _)

theorem State.rebalance_ports (s : State) (p tc : Nat) : PortsOnly s (s.rebalance p tc) :=
  List.foldlRecOn (motive := PortsOnly s) _ _ (.refl s) fun t ht n _ => ht.trans (t.topUp_ports p n tc)

theorem State.rebalanceAll_ports (s : State) : PortsOnly s s.rebalanceAll := by
  refine List.foldlRecOn (motive := PortsOnly s) _ _ (.refl s) fun t ht p _ => ?_
  split
  · exact ht.trans ((t.rebalance_ports p 0).trans ((t.rebalance p 0).rebalance_ports p 1))
  · exact ht

/-! ## PARTITION_SET (R126, R170, R224) -/

/-- What PARTITION_SET writes into the fields of PA_CFG, PA_PORTS and PA_REG (Table 5-6). -/
def partFields (c : Cmd) : List (Fld × Nat) × List (Fld × Nat) × List (Fld × Nat) :=
  ([(F.PA_CFG_ENABLE, c.arg 1 6 1), (F.PA_CFG_TC0_EN, c.arg 1 7 1), (F.PA_CFG_STEER, c.arg 1 8 1), (F.PA_CFG_ACT_FIXED, c.arg 1 9 1),
    (F.PA_CFG_KGRANT, c.arg 1 10 16), (F.PA_CFG_BKT_QUOTA, c.arg 1 26 13), (F.PA_CFG_TC1_WEIGHT, c.arg 1 39 8)],
   [(F.PA_PORTS_PORT_MASK, c.arg 2 0 32)], [(F.PA_REG_RATE, c.arg 3 0 16), (F.PA_REG_BURST, c.arg 3 16 32)])

/-- The partition's registers take the arguments. -/
def State.partRegs (s : State) (p : Nat) (c : Cmd) : State :=
  ((s.putAll p (partFields c).1).putAll p (partFields c).2.1).putAll p (partFields c).2.2

/-- A partition's regulator has so many sixteenths of a token. -/
def State.setTokens (s : State) (p : Nat) (v : Int) : State :=
  { s with ports := { s.ports with tokens := Tab.set (fun _ => 0) s.ports.tokens p v } }

/-- A regulator's tokens and a Chest pool take the arguments. -/
def State.partPool (s : State) (p : Nat) (c : Cmd) : State :=
  let s := s.setTokens p ((c.arg 3 16 32 : Int) * 1024 * 16)
  s.setChest p { s.chest p with base := c.arg 4 0 44, size := c.arg 5 0 32 * 2048 }

section
variable {d pos : Nat} {c : Cmd} {s : State}

theorem exec_partitionSet (h : s.fresh d pos .partitionSet c) (hw : c.arg 1 39 8 ≠ 0) (hq : c.arg 1 26 13 ≤ 4096)
    (ha : c.arg 4 0 44 % 2048 = 0) (he : c.arg 1 0 6 = 0 → c.argBit 1 6 = true)
    (hwin : s.badWindow (c.arg 4 0 44) (c.arg 5 0 32 * 2048) = false) (hfor : s.foreign d (c.arg 4 0 44) (c.arg 5 0 32 * 2048) = false)
    (hpool : s.poolForeign (c.arg 1 0 6) (c.arg 4 0 44) (c.arg 5 0 32 * 2048) = false)
    (hcls : s.touchesClass 2 (c.arg 4 0 44) (c.arg 5 0 32 * 2048) = false) (hlive : (s.chest (c.arg 1 0 6)).live = []) :
    exec (.partitionSet d pos) s =
      .next ((((s.partRegs (c.arg 1 0 6) c).partPool (c.arg 1 0 6) c).rebalanceAll).finish d c .ok 0 0) := by
  have hargs : (c.arg 1 39 8 == 0 || decide (4096 < c.arg 1 26 13) || c.arg 4 0 44 % 2048 != 0 || c.arg 1 0 6 == 0 && !c.argBit 1 6) = false := by
    by_cases h0 : c.arg 1 0 6 = 0
    · simp [hw, ha, Nat.not_lt.mpr hq, he h0]
    · simp [hw, ha, Nat.not_lt.mpr hq, h0]
  show execPartitionSet d pos s = _
  rw [execPartitionSet, h.runCmd _ (pureCheck_passes (by
    simp [hargs, State.rangeChecks, hwin, hfor, hpool, hcls, hlive]))]
  simp only [State.partPool, State.partRegs, partFields, State.putAll, List.foldl_cons, List.foldl_nil, State.setTokens]

theorem State.partRegs_regs (s : State) {p : Nat} (c : Cmd) : RegsAre s (s.partRegs p c)
    [(.PA_CFG, p, fieldsInto (s.reg .PA_CFG p) (partFields c).1), (.PA_PORTS, p, fieldsInto (s.reg .PA_PORTS p) (partFields c).2.1),
     (.PA_REG, p, fieldsInto (s.reg .PA_REG p) (partFields c).2.2)] := by
  have hcp : Reg.offset .PA_CFG p ≠ Reg.offset .PA_PORTS p := by simp only [Reg.offset, Reg.base, Reg.stride]; omega
  have hcr : Reg.offset .PA_CFG p ≠ Reg.offset .PA_REG p := by simp only [Reg.offset, Reg.base, Reg.stride]; omega
  have hpr : Reg.offset .PA_PORTS p ≠ Reg.offset .PA_REG p := by simp only [Reg.offset, Reg.base, Reg.stride]; omega
  have hcfg := (RegsAre.refl s).putAll (r := .PA_CFG) p (fs := (partFields c).1) (by simp [partFields, F.PA_CFG_ENABLE, F.PA_CFG_TC0_EN, F.PA_CFG_STEER, F.PA_CFG_ACT_FIXED, F.PA_CFG_KGRANT, F.PA_CFG_BKT_QUOTA, F.PA_CFG_TC1_WEIGHT]) (by simp)
  have hports := hcfg.putAll (r := .PA_PORTS) p (fs := (partFields c).2.1) (by simp [partFields, F.PA_PORTS_PORT_MASK]) (by simpa using hcp)
  have hreg := hports.putAll (r := .PA_REG) p (fs := (partFields c).2.2) (by simp [partFields, F.PA_REG_RATE, F.PA_REG_BURST])
    (by simpa using ⟨hpr, hcr⟩)
  rw [hcfg.reg_other .PA_PORTS p (by simpa using hcp.symm), hports.reg_other .PA_REG p (by simpa using ⟨hpr.symm, hcr.symm⟩)] at hreg
  exact hreg.reverse

theorem State.partRegs_rest (s : State) (p : Nat) (c : Cmd) : s.partRegs p c = { s with regs := (s.partRegs p c).regs } := by
  unfold State.partRegs
  rw [State.putAll_rest p (partFields c).2.2, State.putAll_rest p (partFields c).2.1, State.putAll_rest p (partFields c).1]


theorem State.partPool_rest (s : State) (p : Nat) (c : Cmd) : s.partPool p c = { s with
    ports := { s.ports with tokens := (s.partPool p c).ports.tokens }
    draws := { s.draws with chests := (s.partPool p c).draws.chests } } := rfl

theorem State.chest_partPool_same (s : State) (p : Nat) (c : Cmd) :
    (s.partPool p c).chest p = { s.chest p with base := c.arg 4 0 44, size := c.arg 5 0 32 * 2048 } := State.chest_setChest_same _ _ _

theorem State.chest_partPool_other (s : State) (p : Nat) (c : Cmd) {q : Nat} (h : q ≠ p) : (s.partPool p c).chest q = s.chest q :=
  State.chest_setChest_other _ _ _ _ h

theorem State.tokens_partPool_same (s : State) (p : Nat) (c : Cmd) :
    Tab.get (fun _ => 0) (s.partPool p c).ports.tokens p = (c.arg 3 16 32 : Int) * 16384 := by
  refine (Tab.get_set_same _ _ _ _).trans ?_
  rw [Int.mul_assoc]
  rfl

theorem State.tokens_partPool_other (s : State) (p : Nat) (c : Cmd) {q : Nat} (h : q ≠ p) :
    Tab.get (fun _ => 0) (s.partPool p c).ports.tokens q = Tab.get (fun _ => 0) s.ports.tokens q := Tab.get_set_other _ _ _ _ _ h

/-- A Chest rests on the Chests' table alone. -/
theorem State.chest_congr {s t : State} (h : t.draws.chests = s.draws.chests) (q : Nat) : t.chest q = s.chest q := by
  rw [State.chest, State.chest, h]

end

/-! ## POWER_CAP (R301) -/

/-- Only the channels' Planisher modes have changed. -/
structure State.ModesOnly (s t : State) : Prop where
  rest : t = { s with regs := t.regs, mem := { s.mem with chans := t.mem.chans } }
  regs : RegsBut s t (fun o => ∃ n, o = Reg.offset .CE_PL_STAT n)

namespace State.ModesOnly

theorem refl (s : State) : s.ModesOnly s := ⟨rfl, .refl s _⟩

theorem trans {s t u : State} (h : s.ModesOnly t) (g : t.ModesOnly u) : s.ModesOnly u :=
  ⟨by rw [g.rest, h.rest], h.regs.trans g.regs⟩

theorem stepOut (s : State) (n k : Nat) : s.ModesOnly (s.stepOut n k) where
  rest := rfl
  regs := (RegsBut.refl s _).put F.CE_PL_STAT_BG_MODE n _ ⟨n, rfl⟩

theorem trimMode (s : State) (n : Nat) : s.ModesOnly (s.trimMode n) := by
  refine List.foldlRecOn (motive := s.ModesOnly) _ _ (.refl s) fun t ht pc _ => ?_
  split
  · exact ht
  · split
    · exact ht.trans (.stepOut t n _)
    · exact ht

end State.ModesOnly

/-- The levels in force, as they stand in PW_GOV_STAT (R302 to R304). -/
def State.levelFields (s : State) : List (Fld × Nat) :=
  [(F.PW_GOV_STAT_LVL_ACT, Nat.max s.power.govAct s.power.thermAct),
   (F.PW_GOV_STAT_LVL_PL, Nat.max s.power.govPl (Nat.max s.power.thermPl (s.fld F.PW_GOV_CFG_PL_ONE 0))),
   (F.PW_GOV_STAT_LVL_AV, s.power.govAv), (F.PW_GOV_STAT_LVL_PHY, s.power.govPhy)]

/-- THROTTLE_REQ (R304). -/
def State.levelThrottle (s : State) (p : Power) : Nat :=
  if p.crit || s.life.paused then 15 else Nat.max (s.fld F.PW_GOV_STAT_THR_BUDGET 0) (s.fld F.PW_GOV_STAT_THR_THERM 0)

/-- PW_GOV_STAT takes the levels in force and THROTTLE_REQ. -/
def State.putLevels (s : State) : State :=
  let t := s.putAll 0 s.levelFields
  t.put F.PW_GOV_STAT_THROTTLE 0 (t.levelThrottle s.power)

/-- The levels are put into PW_GOV_STAT, and Planisher modes that they forbid end. -/
theorem State.applyLevels_modes (s : State) : s.putLevels.ModesOnly s.applyLevels := by
  have hplOne (v : Nat) : (s.put F.PW_GOV_STAT_LVL_ACT 0 v).fld F.PW_GOV_CFG_PL_ONE 0 = s.fld F.PW_GOV_CFG_PL_ONE 0 :=
    fld_put_other _ _ _ _ _ _ (by decide)
  simp only [State.putLevels, State.putAll, State.levelFields, List.foldl_cons, List.foldl_nil, State.applyLevels, hplOne, State.levelThrottle]
  exact List.foldlRecOn (motive := State.ModesOnly _) _ _ (.refl _) fun t ht n _ => ht.trans (.trimMode t n)

theorem State.putLevels_rest (s : State) : s.putLevels = { s with regs := s.putLevels.regs } := by
  have h := State.putAll_rest 0 s.levelFields s
  unfold State.putLevels
  generalize s.putAll 0 s.levelFields = t at h ⊢
  exact (show t.put _ 0 _ = { t with regs := (t.put _ 0 _).regs } from rfl).trans (by rw [h])

theorem State.putLevels_regs (s : State) : RegsBut s s.putLevels (fun o => o = Reg.offset .PW_GOV_STAT 0) :=
  ((RegsBut.refl s _).putAll 0 (by simp [State.levelFields, F.PW_GOV_STAT_LVL_ACT, F.PW_GOV_STAT_LVL_PL, F.PW_GOV_STAT_LVL_AV,
    F.PW_GOV_STAT_LVL_PHY])).put _ _ _ rfl

theorem State.putLevels_pl (s : State) : s.putLevels.fld F.PW_GOV_STAT_LVL_PL 0 =
    Nat.max s.power.govPl (Nat.max s.power.thermPl (s.fld F.PW_GOV_CFG_PL_ONE 0)) % 2 := by
  have hkeep (t : State) (f : Fld) (v : Nat) (hreg : f.reg = .PW_GOV_STAT)
      (hf : F.PW_GOV_STAT_LVL_PL.lo + F.PW_GOV_STAT_LVL_PL.w ≤ f.lo) :
      (t.put f 0 v).fld F.PW_GOV_STAT_LVL_PL 0 = t.fld F.PW_GOV_STAT_LVL_PL 0 := fld_put_field _ _ _ _ _ hreg.symm (.inl hf)
  simp only [State.putLevels, State.putAll, State.levelFields, List.foldl_cons, List.foldl_nil]
  rw [hkeep _ _ _ rfl (by decide), hkeep _ _ _ rfl (by decide), hkeep _ _ _ rfl (by decide)]
  exact fld_put_same _ _ _ _ (by decide)

/-- What POWER_CAP writes into the fields of PW_GOV_CFG (Table 5-6). -/
def capFields (c : Cmd) : List (Fld × Nat) :=
  [(F.PW_GOV_CFG_CAP, c.arg 1 0 16), (F.PW_GOV_CFG_WINDOW, c.arg 1 16 16), (F.PW_GOV_CFG_PRIO, c.arg 2 0 16),
   (F.PW_GOV_CFG_PL_ONE, c.arg 2 16 1)]

theorem capFields_reg (c : Cmd) : ∀ e ∈ capFields c, e.1.reg = .PW_GOV_CFG := by
  simp [capFields, F.PW_GOV_CFG_CAP, F.PW_GOV_CFG_WINDOW, F.PW_GOV_CFG_PRIO, F.PW_GOV_CFG_PL_ONE]

section
variable {d pos : Nat} {c : Cmd} {s : State}

theorem exec_powerCap (h : s.fresh d pos .powerCap c) (h1 : 280 ≤ c.arg 1 0 16) (h2 : c.arg 1 0 16 ≤ 944) (h3 : 1 ≤ c.arg 1 16 16)
    (h4 : c.arg 1 16 16 ≤ 10000) (hk : ∀ k < 4, ∃ i < 4, c.arg 2 (4 * i) 4 = k) :
    exec (.powerCap d pos) s = .next ((s.putAll 0 (capFields c)).applyLevels.finish d c .ok 0 0) := by
  have hrange : ¬(c.arg 1 0 16 < 280 ∨ 944 < c.arg 1 0 16 ∨ c.arg 1 16 16 < 1 ∨ 10000 < c.arg 1 16 16) := by omega
  have hcodes : (List.range 4).all ((List.range 4).map fun i => c.arg 2 (4 * i) 4).contains = true := by
    refine List.all_eq_true.mpr fun k hm => List.contains_iff_mem.mpr (List.mem_map.mpr ?_)
    obtain ⟨i, hi, e⟩ := hk k (List.mem_range.mp hm)
    exact ⟨i, List.mem_range.mpr hi, e⟩
  show execPowerCap d pos s = _
  rw [execPowerCap, h.runCmd _ (pureCheck_passes (by
    intro e he
    obtain rfl := List.mem_singleton.mp he
    simp only [hrange, hcodes, decide_false, Bool.not_true, Bool.or_self]))]
  simp only [State.putAll, capFields, List.foldl_cons, List.foldl_nil]

theorem State.plOne_putAll (s : State) (c : Cmd) : (s.putAll 0 (capFields c)).fld F.PW_GOV_CFG_PL_ONE 0 = c.arg 2 16 1 % 2 := by
  simp only [State.putAll, capFields, List.foldl_cons, List.foldl_nil]
  exact fld_put_same _ _ _ _ (by decide)

end

/-- Settles O21: the registers, tokens and pool of PARTITION_SET, and the governor's settings and level of POWER_CAP. -/
theorem partitionsAndCapTakeEffect : Obligations.PartitionsAndCapTakeEffect := by
  unfold Obligations.PartitionsAndCapTakeEffect
  refine ⟨fun d pos p c s h hp hw hq ha he hwin hfor hpool hcls hlive => ?_, fun d pos c s h h1 h2 h3 h4 hk => ?_⟩
  · subst hp
    generalize hp : c.arg 1 0 6 = p at *
    rw [← hp] at he hpool hlive
    have hexec := exec_partitionSet h hw hq ha he hwin hfor hpool hcls hlive
    rw [hp] at hexec
    have hrest := s.partRegs_rest p c
    have hregs := s.partRegs_regs (p := p) c
    generalize s.partRegs p c = u at hexec hrest hregs
    have hpool' := u.partPool_rest p c
    have hports := (u.partPool p c).rebalanceAll_ports
    obtain ⟨hmem, hanv, hpl, hpower⟩ := hports.units
    have hchest (q : Nat) := State.chest_congr (congrArg Draws.chests hports.draws) q
    have hdrawer : (u.partPool p c).rebalanceAll.draws.drawer = s.draws.drawer := by rw [hports.draws, hpool', hrest]
    refine ⟨_, hexec, State.onlyCmd_ended hdrawer h.1 _ _ _, .congr (hports.regs.trans (by rw [hpool'])) hregs, ?_, ?_, fun q hq => ⟨?_, ?_⟩, ?_, ?_, ?_, ?_, ?_⟩
    · rw [State.finish_ports, hports.tokens, State.tokens_partPool_same]
    · rw [← State.chest_congr (show u.draws.chests = s.draws.chests by rw [hrest]) p, ← State.chest_partPool_same]
      exact hchest p
    · rw [← State.chest_congr (show u.draws.chests = s.draws.chests by rw [hrest]) q, ← State.chest_partPool_other u p c hq]
      exact hchest q
    · rw [State.finish_ports, hports.tokens, State.tokens_partPool_other u p c hq, hrest]
    · rw [State.finish_mem, hmem, hpool', hrest]
    · rw [State.finish_anv, hanv, hpool', hrest]
    · rw [State.finish_pl, hpl, hpool', hrest]
    · rw [State.finish_power, hpower, hpool', hrest]
    · rw [State.finish_buckets, hports.draws, hpool', hrest]
  · have hexec := exec_powerCap h h1 h2 h3 h4 hk
    have hrest := State.putAll_rest 0 (capFields c) s
    have hword := State.reg_putAll 0 (capFields_reg c) s
    have hplOne := s.plOne_putAll c
    have hcap : RegsBut s (s.putAll 0 (capFields c)) (fun o => o = Reg.offset .PW_GOV_CFG 0) :=
      (RegsBut.refl s _).putAll 0 fun e he => by rw [capFields_reg c e he]
    generalize s.putAll 0 (capFields c) = u at hexec hrest hword hplOne hcap
    have hlevels := u.putLevels_rest
    have hbut := u.putLevels_regs
    have hpl := u.putLevels_pl
    have hmodes := u.applyLevels_modes
    generalize u.putLevels = v at hlevels hbut hpl hmodes
    generalize u.applyLevels = w at hexec hmodes
    have hw : w = { s with regs := w.regs, mem := { s.mem with chans := w.mem.chans } } := by rw [hmodes.rest, hlevels, hrest]
    refine ⟨_, hexec, State.onlyCmd_ended (by rw [hw]) h.1 _ _ _, ?_, fun hone hgov htherm => ?_, .congr (State.finish_regs _ _ _ _ _ _) ?_,
      ?_, ?_, ?_, ?_, ?_, ?_⟩
    · rw [State.reg_congr (State.finish_regs _ _ _ _ _ _), hmodes.regs.reg_eq, hbut.reg_eq, hword]
      · rfl
      · decide
      · rintro ⟨n, hn⟩
        simp only [Reg.offset, Reg.base, Reg.stride] at hn
        omega
    · rw [State.fld_congr (State.finish_regs _ _ _ _ _ _), hmodes.regs.fld_eq, hpl, hplOne, hone, hrest]
      · have : Nat.max s.power.govPl (Nat.max s.power.thermPl (1 % 2)) = 1 := by
          simp only [Nat.max_def]
          split <;> omega
        rw [this]
      · rintro ⟨n, hn⟩
        simp only [F.PW_GOV_STAT_LVL_PL, Reg.offset, Reg.base, Reg.stride] at hn
        omega
    · exact ((hcap.mono fun o ho => .inl ho).trans (hbut.mono fun o ho => .inr (.inl ho))).trans (hmodes.regs.mono fun o ho => .inr (.inr ho))
    · rw [State.finish_power, hw]
    · rw [State.finish_mem, hw]
    · rw [State.finish_mem, hw]
    · rw [State.finish_ports, hw]
    · rw [State.finish_anv, hw]
    · rw [State.finish_pl, hw]

end Sys2Proof.Machine
end

section
/-!
SUPPORT. A sector put into a slice that has its line or room for it (R221).
-/

namespace Sys2Proof.Machine

/-! ## Within a slice -/

/-- What a slice or its store holds of a sector. -/
def Slice.has (x : Slice) (k : Nat) : Option Held := match x.find k with
  | some h => some h
  | none => (Tab.get (fun _ => none) x.store k).map fun c => ⟨c, true⟩

theorem State.sliceHas_eq (s : State) (l : Loc) : s.sliceHas l = (s.slice l.n).has l.k := rfl

/-- A new line for a sector. -/
def Slice.newLine (x : Slice) (k : Nat) : Slice := { x with lines := ⟨k / 8, []⟩ :: x.lines }

/-- A sector put into its line, which becomes the most recently used; the store no longer holds it. -/
def Slice.hold (x : Slice) (k : Nat) (h : Held) : Slice :=
  { (x.putSec k (some h)).touch k with store := Tab.set (fun _ => none) ((x.putSec k (some h)).touch k).store k none }

theorem Slice.hasLine_iff {x : Slice} {k : Nat} : x.hasLine k = true ↔ ∃ y ∈ x.lines, y.unit = k / 8 := by
  simp [Slice.hasLine]

theorem Slice.hasLine_newLine (x : Slice) (k : Nat) : (x.newLine k).hasLine k = true :=
  Slice.hasLine_iff.mpr ⟨_, .head _, rfl⟩

/-- A new line holds nothing, and hides nothing where there was none. -/
theorem Slice.find_newLine {x : Slice} {k : Nat} (h : x.hasLine k = false) (j : Nat) : (x.newLine k).find j = x.find j := by
  unfold Slice.find Slice.newLine
  by_cases hj : j / 8 = k / 8
  · have hnone : x.lines.find? (fun y => y.unit == j / 8) = none :=
      List.find?_eq_none.mpr fun y hy hu => by
        have := Slice.hasLine_iff.mpr ⟨y, hy, (beq_iff_eq.mp hu).trans hj⟩
        rw [h] at this
        cases this
    rw [List.find?_cons_of_pos (by simpa using hj.symm), hnone]
    rfl
  · rw [List.find?_cons_of_neg (by simpa using Ne.symm hj)]

theorem Slice.find_putSec (x : Slice) (k j : Nat) (h : Option Held) :
    (x.putSec k h).find j = if j = k ∧ x.hasLine k = true then h else x.find j := by
  have hlines : (x.putSec k h).lines.find? (fun y => y.unit == j / 8) = (x.lines.find? fun y => y.unit == j / 8).map fun y =>
      if y.unit = k / 8 then { y with secs := Tab.set (fun _ => none) y.secs (k % 8) h } else y := by
    rw [Slice.putSec, List.find?_map]
    congr 2
    funext y
    by_cases hy : y.unit = k / 8 <;> simp [hy]
  rw [Slice.find, hlines, Slice.find]
  cases hf : x.lines.find? fun y => y.unit == j / 8 with
  | none =>
    have hno : ¬(j = k ∧ x.hasLine k = true) := fun ⟨hjk, hk⟩ => by
      obtain ⟨y, hy, hu⟩ := Slice.hasLine_iff.mp hk
      exact List.find?_eq_none.mp hf y hy (beq_iff_eq.mpr (hu.trans (by rw [hjk])))
    rw [if_neg hno]
    rfl
  | some y =>
    have hu : y.unit = j / 8 := beq_iff_eq.mp (List.find?_some (p := fun y : Line => y.unit == j / 8) hf)
    rw [Option.map_some]
    dsimp only
    have hget : Tab.get (fun _ => none) (if y.unit = k / 8 then { y with secs := Tab.set (fun _ => none) y.secs (k % 8) h } else y).secs
        (j % 8) = if j = k then h else Tab.get (fun _ => none) y.secs (j % 8) := by
      by_cases hjk : j = k
      · rw [if_pos (hjk ▸ hu), if_pos hjk, hjk, Tab.get_set_same]
      · rw [if_neg hjk]
        split
        · exact Tab.get_set_other _ _ _ _ _ (by omega)
        · rfl
    have hk : (j = k ∧ x.hasLine k = true) ↔ j = k :=
      and_iff_left_of_imp fun hjk => Slice.hasLine_iff.mpr ⟨y, List.mem_of_find?_eq_some hf, hjk ▸ hu⟩
    simp only [hget, hk]

theorem Slice.store_putSec (x : Slice) (k : Nat) (h : Option Held) : (x.putSec k h).store = x.store := rfl

theorem Slice.find_hold (x : Slice) (k j : Nat) (h : Held) :
    (x.hold k h).find j = if j = k ∧ x.hasLine k = true then some h else x.find j :=
  (show (x.hold k h).find j = ((x.putSec k (some h)).touch k).find j from rfl).trans
    ((Slice.find_touch _ k j).trans (Slice.find_putSec x k j (some h)))

/-- R221: a slice with the sector's line holds the sector, and what it held of the others. -/
theorem Slice.has_hold {x : Slice} {k : Nat} (hl : x.hasLine k = true) (h : Held) (j : Nat) :
    (x.hold k h).has j = if j = k then some h else x.has j := by
  have hstore : (x.hold k h).store = Tab.set (fun _ => none) x.store k none := by
    rw [Slice.hold, Slice.store_touch, Slice.store_putSec]
  rw [Slice.has, Slice.find_hold, hstore]
  by_cases hj : j = k
  · rw [if_pos ⟨hj, hl⟩, if_pos hj]
  · rw [if_neg fun h => hj h.1, if_neg hj, Tab.get_set_other _ _ _ _ _ hj, Slice.has]

theorem Slice.has_newLine {x : Slice} {k : Nat} (h : x.hasLine k = false) (j : Nat) : (x.newLine k).has j = x.has j := by
  rw [Slice.has, Slice.find_newLine h]
  rfl

/-! ## In the state -/

section
variable {s : State} {l : Loc}

/-- From `s` to `t` only what the slices hold has changed. -/
def SlicesOnly (s t : State) : Prop := t = { s with mem := { s.mem with slices := t.mem.slices } }

/-- A sector put into a slice that has its line. -/
theorem State.hold_sector (hl : (s.slice l.n).hasLine l.k = true) (h : Held) :
    (s.setSlice l.n ((s.slice l.n).hold l.k h)).sliceHas l = some h ∧
      ∀ x, x ≠ l → (s.setSlice l.n ((s.slice l.n).hold l.k h)).sliceHas x = s.sliceHas x := by
  refine ⟨?_, fun x hx => ?_⟩
  · rw [State.sliceHas_eq, State.slice_setSlice, if_pos rfl, Slice.has_hold hl, if_pos rfl]
  · rw [State.sliceHas_eq, State.slice_setSlice]
    split
    case isTrue hn =>
      have hk : x.k ≠ l.k := fun hk => hx (by cases x; cases l; simp_all)
      rw [Slice.has_hold hl, if_neg hk, ← hn]
      rfl
    case isFalse => rfl

/-- A slice that has a sector's line, or room for it, takes the sector and keeps the others. -/
theorem State.slicePut_room (hr : s.hasRoom l) (h : Held) (part : Nat) : ∃ t, s.slicePut l h part = some t ∧ SlicesOnly s t ∧
    t.sliceHas l = some h ∧ ∀ x, x ≠ l → t.sliceHas x = s.sliceHas x := by
  by_cases hl : (s.slice l.n).hasLine l.k = true
  · refine ⟨s.setSlice l.n ((s.slice l.n).hold l.k h), ?_, rfl, State.hold_sector hl h⟩
    rw [State.slicePut, if_pos hl]
    rfl
  · have hl' : (s.slice l.n).hasLine l.k = false := eq_false_of_ne_true hl
    have hset : ((s.slice l.n).lines.filter fun y => y.set == l.k / 8 % 64).length < s.ways := hr.resolve_left hl
    have hroom : s.makeRoom l.n (l.k / 8) part = some s := by rw [State.makeRoom, if_pos hset]
    have hnew (x : Loc) : (s.setSlice l.n ((s.slice l.n).newLine l.k)).sliceHas x = s.sliceHas x := by
      rw [State.sliceHas_eq, State.slice_setSlice]
      split
      case isTrue hn =>
        rw [Slice.has_newLine hl', ← hn]
        rfl
      case isFalse => rfl
    have hline : ((s.setSlice l.n ((s.slice l.n).newLine l.k)).slice l.n).hasLine l.k = true := by
      rw [State.slice_setSlice, if_pos rfl, Slice.hasLine_newLine]
    obtain ⟨hsame, hother⟩ := State.hold_sector hline h
    refine ⟨_, ?_, ?_, hsame, fun x hx => (hother x hx).trans (hnew x)⟩
    · rw [State.slicePut, if_neg hl, hroom]
      rfl
    · rfl

end

/-! ## A write of a whole sector (R204, R221) -/

/-- From `s` to `t` only memory has changed, but neither the array nor what it holds in the ground. -/
structure State.ArrayStands (s t : State) : Prop where
  rest : t = { s with mem := { s.mem with slices := t.mem.slices, chans := t.mem.chans, touched := t.mem.touched } }

theorem State.ArrayStands.rawSector {s t : State} (h : s.ArrayStands t) (l : Loc) : t.rawSector l = s.rawSector l := by
  rw [h.rest]
  rfl

theorem State.voidBack_stands (s : State) (l : Loc) : s.ArrayStands (s.voidBack l) ∧ (s.voidBack l).mem.slices = s.mem.slices := by
  unfold State.voidBack
  split
  · exact ⟨⟨rfl⟩, rfl⟩
  · exact ⟨⟨rfl⟩, rfl⟩

theorem State.sliceHas_congr {s t : State} (h : t.mem.slices = s.mem.slices) (l : Loc) : t.sliceHas l = s.sliceHas l := by
  simp only [State.sliceHas, State.slice, h]

section
variable {s t : State} {l : Loc}

theorem State.now_of (hhas : t.sliceHas l = s.sliceHas l) (hraw : t.rawSector l = s.rawSector l) : t.now l = s.now l := by
  rw [State.now, State.now, hhas, hraw]

theorem State.now_congr (h : t.mem = s.mem) : t.now l = s.now l :=
  State.now_of (State.sliceHas_congr (by rw [h]) l) (by rw [State.rawSector, h, State.rawSector])

theorem State.now_held {x : Held} (h : s.sliceHas l = some x) : s.now l = x.sec.data := by
  rw [State.now, h]

end

theorem State.countAccess_mem (s : State) (part bytes : Nat) : (s.countAccess true part bytes).mem = s.mem := by
  have hcharge (t : State) (cls k : Nat) : (t.charge part cls k).mem = t.mem := by
    unfold State.charge
    dsimp only
    split <;> rfl
  rw [State.countAccess, hcharge, hcharge, if_pos rfl, State.count_eq]

/-- A good sector written to a slice that serves and has room for it. -/
theorem State.writeQuiet_room {s : State} {a : Nat} {l : Loc} {x : Sec} (hl : s.locate a = some l) (hc : s.chanState l.n ≠ 3)
    (hr : s.hasRoom l) (hx : x.good = true) (part : Nat) : ∃ t, s.writeQuiet a x part = (.ok, t) ∧ s.ArrayStands t ∧
      t.sliceHas l = some ⟨x, true⟩ ∧ ∀ y, y ≠ l → t.sliceHas y = s.sliceHas y := by
  obtain ⟨u, hput, hrest, hsame, hother⟩ := State.slicePut_room hr ⟨x, true⟩ part
  have hc' : ¬(s.chanState l.n == 3) = true := by simpa using hc
  have hwrite : s.sliceWrite l x part = some (u.voidBack l) := by
    rw [State.sliceWrite, if_neg hc', State.arrive, if_pos hx]
    simp only [hput, Option.map_some]
  obtain ⟨hvoid, hslices⟩ := u.voidBack_stands l
  have hhas (y : Loc) : ((u.voidBack l).touch a).sliceHas y = u.sliceHas y := State.sliceHas_congr (show _ = _ from hslices) y
  refine ⟨(u.voidBack l).touch a, ?_, ⟨?_⟩, (hhas l).trans hsame, fun y hy => (hhas y).trans (hother y hy)⟩
  · rw [State.writeQuiet, hl]
    simp only [hc', hwrite, Bool.false_eq_true, if_false]
  · rw [State.touch, hvoid.rest, show u = _ from hrest]

end Sys2Proof.Machine
end

section
/-!
PROOF of O20: QUERY writes its snapshot and nothing else.
-/

namespace Sys2Proof.Machine

section
variable {d pos : Nat} {c : Cmd} {s : State}

/-- The words that QUERY writes (Table 5-8). -/
def State.queryWords (s : State) (c : Cmd) : List Word :=
  (((s.snapshot (c.arg 1 0 8) (c.arg 1 8 6) (c.arg 1 14 3) (c.arg 1 17 5) (c.arg 2 0 44) ++ List.replicate 7 0).take 7) ++ [s.gtc]).map
    (BitVec.ofNat 64)

theorem exec_query (h : s.fresh d pos .query c) (ha : c.arg 3 0 44 % 64 = 0) (h1 : 1 ≤ c.arg 1 0 8) (h5 : c.arg 1 0 8 ≤ 5)
    (hd : d = 0 ∨ c.arg 1 0 8 = 5) (hb : c.arg 1 0 8 = 2 → (s.bucketBase (c.arg 2 0 44)).isSome = true)
    (hwin : s.badWindow (c.arg 3 0 44) 64 = false) (hfor : s.foreign d (c.arg 3 0 44) 64 = false)
    (hcls : s.touchesClass 2 (c.arg 3 0 44) 64 = false) (hin : s.bucketsIn (c.arg 3 0 44) 64 = [])
    (hheld : s.rangeHeld (c.arg 3 0 44) 64 = false) :
    exec (.query d pos) s = .next ((s.writeSec (c.arg 3 0 44) (mkSec (ofWords (s.queryWords c))) d).2.finish d c .ok 0 0) := by
  have hkind : (c.arg 3 0 44 % 64 != 0 || c.arg 1 0 8 == 0 || decide (5 < c.arg 1 0 8)) = false := by
    have h0 : (c.arg 1 0 8 == 0) = false := beq_eq_false_iff_ne.mpr (by omega)
    simp [ha, h0, Nat.not_lt.mpr h5]
  have hbucket : (c.arg 1 0 8 == 2 && (s.bucketBase (c.arg 2 0 44)).isNone) = false := by
    by_cases h2 : c.arg 1 0 8 = 2
    · obtain ⟨b, hb⟩ := Option.isSome_iff_exists.mp (hb h2)
      rw [hb]
      exact Bool.and_false _
    · rw [beq_eq_false_iff_ne.mpr h2, Bool.false_and]
  have hown : (d != 0 && ((c.arg 1 0 8 == 1 || c.arg 1 0 8 == 3) && c.arg 1 8 6 != d || c.arg 1 0 8 == 2 &&
      (match s.bucketBase (c.arg 2 0 44) with
        | some b => b.owner != d
        | none => false))) = false := by
    rcases hd with h | h <;> simp [h]
  show execQuery d pos s = _
  rw [execQuery, h.runCmd _ (pureCheck_passes (by
    intro e he
    simp only [List.mem_cons, List.not_mem_nil, or_false] at he
    rcases he with rfl | rfl | rfl | rfl | rfl | rfl | rfl
    · exact hkind
    · exact hwin
    · exact hfor
    · exact hbucket
    · exact hown
    · exact hcls
    · simp [hin]))]
  simp only [hheld, Bool.false_eq_true, if_false, State.queryWords]

end

/-- Settles O20: the write finds its line or room for it, so that the slice takes the sector and nothing else gives way. -/
theorem queryWritesSnapshot : Obligations.QueryWritesSnapshot := by
  unfold Obligations.QueryWritesSnapshot
  intro d pos c l s h ha h1 h5 hd hb hwin hfor hcls hin hheld hl hc hroom
  have hexec := exec_query h ha h1 h5 hd hb hwin hfor hcls hin hheld
  have hhits := State.HitsOnly.countAccess s d 64
  obtain ⟨hrest, hregs, hhas⟩ := id hhits
  have hmem : (s.countAccess true d 64).mem = s.mem := s.countAccess_mem d 64
  have hroom' : (s.countAccess true d 64).hasRoom l := by
    have hways : (s.countAccess true d 64).ways = s.ways := by rw [State.ways, State.ways, hregs.fld_eq (by unfold HitRegs; decide)]
    rw [State.hasRoom, State.slice, hmem, hways]
    exact hroom
  have hc' : (s.countAccess true d 64).chanState l.n ≠ 3 := by
    have hstate : (s.countAccess true d 64).chanState l.n = s.chanState l.n := hregs.fld_eq (by
      simp only [HitRegs, F.CE_STATE_STATE, Reg.offset, Reg.base, Reg.stride]
      omega)
    rw [hstate, hc]
    decide
  obtain ⟨t, ht, hstands, hsame, hother⟩ := State.writeQuiet_room (State.locate_kept hregs hl) hc' hroom'
    (show (mkSec (ofWords (s.queryWords c))).good = true by simp [Sec.good, mkSec]) d
  have hall : t = { s with regs := t.regs, power := t.power, mem := { s.mem with
      slices := t.mem.slices
      chans := t.mem.chans
      touched := t.mem.touched } } := by rw [hstands.rest, hrest, hmem]
  have hraw (y : Loc) : t.rawSector y = s.rawSector y := by
    rw [hall]
    rfl
  rw [State.writeSec, ht] at hexec
  refine ⟨_, hexec, State.onlyCmd_ended (by rw [hall]) h.1 _ _ _, ?_, fun y hy => ?_, ?_, ?_, ?_, ?_, ?_, ?_⟩
  · rw [State.now_congr (State.finish_mem _ _ _ _ _ _), State.now_held hsame]
    rfl
  · rw [State.now_congr (State.finish_mem _ _ _ _ _ _)]
    exact State.now_of ((hother y hy).trans (State.sliceHas_congr (by rw [hmem]) y)) (hraw y)
  · rw [State.finish_mem, hall]
  · rw [State.finish_mem, hall]
  · rw [State.finish_anv, hall]
  · rw [State.finish_pl, hall]
  · rw [State.finish_ports, hall]
  · exact .congr (t' := s.countAccess true d 64) (by rw [State.finish_regs, hstands.rest]) hregs

end Sys2Proof.Machine
end

section
/-!
SUPPORT. Steps that write registers alone, and the log (R260 to R263).
-/

namespace Sys2Proof.Machine

/-- From `s` to `t` only registers have been written, at offsets of `p`. -/
structure State.Wrote (s t : State) (p : Nat → Prop) : Prop where
  rest : t = { s with regs := t.regs }
  regs : RegsBut s t p

namespace State.Wrote

theorem refl (s : State) (p : Nat → Prop) : s.Wrote s p := ⟨rfl, .refl s p⟩

section
variable {s t u : State} {p q : Nat → Prop} (h : s.Wrote t p)
include h

theorem trans (g : t.Wrote u p) : s.Wrote u p := ⟨by rw [g.rest, h.rest], h.regs.trans g.regs⟩

theorem mono (hpq : ∀ o, p o → q o) : s.Wrote t q := ⟨h.rest, h.regs.mono hpq⟩

theorem setReg (r : Reg) (i : Nat) (v : Word) (hp : p (r.offset i)) : s.Wrote (t.setReg r i v) p :=
  h.trans ⟨rfl, (RegsBut.refl t p).setReg r i v hp⟩

theorem put (f : Fld) (i v : Nat) (hp : p (f.reg.offset i)) : s.Wrote (t.put f i v) p := h.setReg _ _ _ hp

theorem putBit (f : Fld) (i k : Nat) (b : Bool) (hp : p (f.reg.offset i)) : s.Wrote (t.putBit f i k b) p := h.put _ _ _ hp

theorem raise (c : Cause) (hp : p (Reg.offset .MW_IRQ_CAUSE 0)) : s.Wrote (t.raise c) p := h.put _ _ _ hp

theorem count (cnt ovf : Fld) (i k : Nat) (hc : p (cnt.reg.offset i)) (ho : p (ovf.reg.offset i))
    (hirq : p (Reg.offset .MW_IRQ_CAUSE 0)) : s.Wrote (t.count cnt ovf i k) p := by
  unfold State.count
  dsimp only
  split
  · exact h.put _ _ _ hc
  · exact ((h.put _ _ _ hc).put _ _ _ ho).raise _ hirq

theorem draws : t.draws = s.draws := by rw [h.rest]
theorem mem : t.mem = s.mem := by rw [h.rest]
theorem ports : t.ports = s.ports := by rw [h.rest]
theorem anv : t.anv = s.anv := by rw [h.rest]
theorem life : t.life = s.life := by rw [h.rest]

end

/-- A fold whose steps write registers of `p`. -/
theorem fold {α : Type} {s t : State} {p : Nat → Prop} {f : State → α → State} {l : List α} (h : s.Wrote t p)
    (hf : ∀ u : State, ∀ x ∈ l, u.Wrote (f u x) p) : s.Wrote (l.foldl f t) p :=
  List.foldlRecOn (motive := fun u : State => s.Wrote u p) l f h fun u hu x hx => hu.trans (hf u x hx)

end State.Wrote

/-! ## The log -/

/-- The offsets of the registers that a log entry writes. -/
def LogRegs (o : Nat) : Prop :=
  o = Reg.offset .IN_STAT 0 ∨ o = Reg.offset .MW_IRQ_CAUSE 0 ∨ o = Reg.offset .IN_LOG_PTR 0 ∨ o = Reg.offset .IN_LOG_LOST 0 ∨
    ∃ i < 4096, o = Reg.offset .IN_LOG i

/-- An offset outside the log's registers: below them but for MW_IRQ_CAUSE, between them, or above. -/
theorem not_logRegs {o : Nat} (h : o ≠ 0x18) (h' : o < 0x80000 ∨ 0x90000 ≤ o ∨ o = 0x80000 ∨ 0x80010 ≤ o ∧ o < 0x80030) : ¬LogRegs o := by
  rintro (e | e | e | e | ⟨i, hi, e⟩) <;> simp only [Reg.offset, Reg.base, Reg.stride] at e <;> omega

/-- The field of IN_STAT that a log class sets is one bit of that register. -/
theorem LogClass.stat_reg {c : LogClass} {f : Fld} (h : c.stat = some f) : f.reg = .IN_STAT ∧ f.w = 1 ∧ f.lo < 64 := by
  cases c <;> cases h <;> decide

theorem State.inStat_wrote {s : State} {f : Option Fld} (hf : ∀ g, f = some g → g.reg = .IN_STAT) : s.Wrote (s.inStat f) LogRegs := by
  cases f with
  | none => exact .refl s _
  | some g => exact ((State.Wrote.refl s _).put g 0 1 (.inl (by rw [hf g rfl]))).raise _ (.inr (.inl rfl))

theorem logWords_length (gtc : Nat) (c : LogClass) (i : Info) (seq merged : Nat) : (logWords gtc c i seq merged).length = 4 := rfl

/-- The words of an entry and the pointer, as a log entry writes them. -/
def State.logEntry (s : State) (c : LogClass) (i : Info) (merged : Nat) : State :=
  (each ((logWords s.gtc c i (s.fld F.IN_LOG_PTR_HEAD 0) merged).zipIdx)
    (fun t e => t.setReg .IN_LOG (4 * (s.fld F.IN_LOG_PTR_HEAD 0 % 1024) + e.2) e.1) s).put F.IN_LOG_PTR_HEAD 0
      (s.fld F.IN_LOG_PTR_HEAD 0 + 1)

theorem State.logAppend_eq (s : State) (c : LogClass) (i : Info) (merged : Nat) : ∃ b, s.logAppend c i merged =
    (s.logEntry c i merged).when b fun t => (t.count F.IN_LOG_LOST_COUNT F.IN_LOG_LOST_OVF 0 1).inStat (some F.IN_STAT_LOG_LOST) :=
  ⟨_, rfl⟩

theorem State.logEntry_wrote (s : State) (c : LogClass) (i : Info) (merged : Nat) :
    s.Wrote (s.logEntry c i merged) (fun o => o = Reg.offset .IN_LOG_PTR 0 ∨ ∃ i < 4096, o = Reg.offset .IN_LOG i) := by
  refine State.Wrote.put (.fold (.refl s _) fun u e he => .setReg (.refl u _) _ _ _ (.inr ⟨_, ?_, rfl⟩)) _ _ _ (.inl rfl)
  have hlt := (List.mem_zipIdx he).2.1
  rw [logWords_length] at hlt
  have := Nat.mod_lt (s.fld F.IN_LOG_PTR_HEAD 0) (show 0 < 1024 by decide)
  omega

theorem State.logAppend_wrote (s : State) (c : LogClass) (i : Info) (merged : Nat) : s.Wrote (s.logAppend c i merged) LogRegs := by
  obtain ⟨b, e⟩ := s.logAppend_eq c i merged
  have hentry : s.Wrote (s.logEntry c i merged) LogRegs := (s.logEntry_wrote c i merged).mono fun o ho =>
    ho.elim (fun h => .inr (.inr (.inl h))) fun h => .inr (.inr (.inr (.inr h)))
  rw [e]
  cases b with
  | false => exact hentry
  | true =>
    exact (hentry.count _ _ _ _ (.inr (.inr (.inr (.inl rfl)))) (.inr (.inr (.inr (.inl rfl)))) (.inr (.inl rfl))).trans
      (State.inStat_wrote fun g hg => Option.some.inj hg ▸ rfl)

/-- The classes whose entries are limited on each channel (R263). -/
def LogClass.limited (c : LogClass) : Bool := c == .ce || c == .poison || c == .rebuilt

/-- An entry of a class that is not limited. -/
theorem State.log_free {c : LogClass} (h : c.limited = false) (s : State) (i : Info) : s.log c i = (s.inStat c.stat).logAppend c i 0 := by
  unfold State.log
  split
  · cases h
  · cases h
  · cases h
  · rfl

theorem State.log_wrote {c : LogClass} (h : c.limited = false) (s : State) (i : Info) : s.Wrote (s.log c i) LogRegs := by
  rw [State.log_free h]
  exact (State.inStat_wrote fun g hg => (LogClass.stat_reg hg).1).trans (State.logAppend_wrote _ _ _ _)

/-! ## One-bit fields that stay set -/

/-- A field of one bit that reads 1 reads 1 after a field of one bit of its register has been set. -/
theorem fld_put_one {s : State} {f g : Fld} (hf : f.w = 1) (hg : g.w = 1) (h64 : g.lo < 64) (hr : g.reg = f.reg) {i : Nat}
    (h : s.fld g i = 1) : (s.put f i 1).fld g i = 1 := by
  by_cases hlo : g.lo = f.lo
  · have hfg : g = f := by
      cases f
      cases g
      simp_all
    rw [hfg, fld_put_same _ _ _ _ (by omega), hf]
    rfl
  · rw [fld_put_field _ _ _ _ _ hr (by omega), h]

/-- A set bit of IN_STAT stays set where entries are logged. -/
theorem State.inStat_stays {s : State} {f g : Fld} (hf : f.reg = .IN_STAT ∧ f.w = 1 ∧ f.lo < 64) (hg : g.reg = .IN_STAT ∧ g.w = 1 ∧ g.lo < 64)
    (h : s.fld g 0 = 1) : (s.inStat (some f)).fld g 0 = 1 := by
  have hirq : g.reg.offset 0 ≠ Reg.offset .MW_IRQ_CAUSE 0 := by
    rw [hg.1]
    decide
  exact (State.fld_raise _ _ hirq).trans (fld_put_one hf.2.1 hg.2.1 hg.2.2 (hg.1.trans hf.1.symm) h)

theorem State.inStat_sets {s : State} {f : Fld} (hf : f.reg = .IN_STAT ∧ f.w = 1 ∧ f.lo < 64) : (s.inStat (some f)).fld f 0 = 1 := by
  have hirq : f.reg.offset 0 ≠ Reg.offset .MW_IRQ_CAUSE 0 := by
    rw [hf.1]
    decide
  refine (State.fld_raise _ _ hirq).trans ((fld_put_same _ _ _ _ (by omega)).trans ?_)
  rw [hf.2.1]
  rfl

theorem State.logAppend_stays {s : State} {g : Fld} (hg : g.reg = .IN_STAT ∧ g.w = 1 ∧ g.lo < 64) (h : s.fld g 0 = 1) (c : LogClass)
    (i : Info) (merged : Nat) : (s.logAppend c i merged).fld g 0 = 1 := by
  obtain ⟨b, e⟩ := s.logAppend_eq c i merged
  have hentry : (s.logEntry c i merged).fld g 0 = 1 := by
    rw [(s.logEntry_wrote c i merged).regs.fld_eq, h]
    rw [hg.1]
    rintro (e | ⟨i, -, e⟩) <;> simp only [Reg.offset, Reg.base, Reg.stride] at e <;> omega
  rw [e]
  cases b with
  | false => exact hentry
  | true =>
    refine State.inStat_stays (by decide) hg ?_
    have hcount : (s.logEntry c i merged).Wrote ((s.logEntry c i merged).count F.IN_LOG_LOST_COUNT F.IN_LOG_LOST_OVF 0 1)
        (fun o => o = Reg.offset .IN_LOG_LOST 0 ∨ o = Reg.offset .MW_IRQ_CAUSE 0) :=
      (State.Wrote.refl _ _).count _ _ _ _ (.inl rfl) (.inl rfl) (.inr rfl)
    rw [hcount.regs.fld_eq, hentry]
    rw [hg.1]
    decide

theorem State.log_stays {s : State} {g : Fld} (hg : g.reg = .IN_STAT ∧ g.w = 1 ∧ g.lo < 64) (h : s.fld g 0 = 1) {c : LogClass}
    (hc : c.limited = false) (i : Info) : (s.log c i).fld g 0 = 1 := by
  rw [State.log_free hc]
  refine State.logAppend_stays hg ?_ _ _ _
  cases hstat : c.stat with
  | none => exact h
  | some f => exact State.inStat_stays (LogClass.stat_reg hstat) hg h

/-- R262: an entry sets the bit of its class. -/
theorem State.log_sets (s : State) {c : LogClass} {f : Fld} (hc : c.limited = false) (hf : c.stat = some f) (i : Info) :
    (s.log c i).fld f 0 = 1 := by
  rw [State.log_free hc, hf]
  exact State.logAppend_stays (LogClass.stat_reg hf) (State.inStat_sets (LogClass.stat_reg hf)) _ _ _

end Sys2Proof.Machine
end

section
/-!
SUPPORT. What retiring a channel comes to (R204, R250).
-/

namespace Sys2Proof.Machine

/-! ## Started commands whose records are lost with a ring (R134) -/

/-- Every started command is there as before, but that its record may be lost with a ring. -/
def CmdsMarked (s t : State) : Prop := ∀ d pos c, s.cmd d pos = some c → ∃ b, t.cmd d pos = some { c with lostRing := b }

theorem CmdsMarked.refl (s : State) : CmdsMarked s s := fun _ _ c h => ⟨c.lostRing, h⟩

theorem CmdsMarked.trans {s t u : State} (h : CmdsMarked s t) (g : CmdsMarked t u) : CmdsMarked s u := fun d pos c hc => by
  obtain ⟨b, hb⟩ := h d pos c hc
  obtain ⟨b', hb'⟩ := g d pos _ hb
  exact ⟨b', hb'⟩

theorem CmdsMarked.of_draws {s t : State} (h : t.draws = s.draws) : CmdsMarked s t := fun d pos c hc =>
  ⟨c.lostRing, by rw [State.cmd, State.drawer, h]; exact hc⟩

/-- The ring of a Drawer is lost: RING_LOST, the integrity interrupt, and the records of its commands. -/
structure State.RingLost (s t : State) : Prop where
  rest : t = { s with regs := t.regs, draws := { s.draws with drawer := t.draws.drawer } }
  regs : RegsBut s t (fun o => o = Reg.offset .MW_IRQ_CAUSE 0 ∨ ∃ d < 64, o = Reg.offset .DR_STAT d)
  cmds : CmdsMarked s t

theorem State.RingLost.refl (s : State) : s.RingLost s := ⟨rfl, .refl _ _, .refl s⟩

theorem State.RingLost.trans {s t u : State} (h : s.RingLost t) (g : t.RingLost u) : s.RingLost u :=
  ⟨by rw [g.rest, h.rest], h.regs.trans g.regs, h.cmds.trans g.cmds⟩

theorem State.ringLost_marks (s : State) {d : Nat} (hd : d < 64) : s.RingLost (s.ringLost d) := by
  have hput : s.Wrote ((s.put F.DR_STAT_RING_LOST d 1).raise .integrity)
      (fun o => o = Reg.offset .MW_IRQ_CAUSE 0 ∨ ∃ d < 64, o = Reg.offset .DR_STAT d) :=
    ((State.Wrote.refl s _).put _ _ _ (.inr ⟨d, hd, rfl⟩)).raise _ (.inl rfl)
  rw [State.ringLost]
  generalize (s.put F.DR_STAT_RING_LOST d 1).raise .integrity = t at hput
  dsimp only
  split
  · exact ⟨by rw [hput.rest], hput.regs, .of_draws hput.draws⟩
  · refine ⟨by rw [hput.rest]; rfl, .congr rfl hput.regs, fun e pos c hc => ?_⟩
    have hc' : t.cmd e pos = some c := by
      rw [State.cmd, State.drawer, hput.draws]
      exact hc
    by_cases he : e = d
    · subst he
      refine ⟨true, ?_⟩
      rw [State.cmd, State.drawer_setDrawer_same, List.find?_map]
      exact congrArg (Option.map _) hc'
    · exact ⟨c.lostRing, by rw [State.cmd, State.drawer_setDrawer_other _ _ _ he]; exact hc'⟩

theorem State.ringsLost_marks (s : State) : s.RingLost s.ringsLost := by
  refine List.foldlRecOn (motive := fun t : State => s.RingLost t) _ _ (.refl s) fun t ht d hd => ?_
  split
  · exact ht.trans (t.ringLost_marks (List.mem_range.mp hd))
  · exact ht

/-! ## The stages of a retirement -/

/-- The registers of a channel engine that its retirement writes. -/
def OffRegs (n o : Nat) : Prop := o = Reg.offset .CE_STATE n ∨ o = Reg.offset .CE_PL_STAT n

/-- A channel is out of use: STATE is 3, and only its own slice, queues and stale map have changed. -/
structure State.Offed (s t : State) (n : Nat) : Prop where
  rest : t = { s with regs := t.regs, mem := { s.mem with slices := t.mem.slices, chans := t.mem.chans, mends := t.mem.mends } }
  regs : RegsBut s t (OffRegs n)
  state : t.chanState n = 3
  retry : ∀ m, (t.chan m).retry = (s.chan m).retry

theorem State.chan_setChan_same (s : State) (n : Nat) (v : Chan) : (s.setChan n v).chan n = v := Tab.get_set_same _ _ _ _

theorem State.chan_setChan_other (s : State) {n m : Nat} (v : Chan) (h : m ≠ n) : (s.setChan n v).chan m = s.chan m :=
  Tab.get_set_other _ _ _ _ _ h

/-- A channel's requests stay where its other parts change. -/
theorem State.retry_setChan {s : State} {n : Nat} {v : Chan} (h : v.retry = (s.chan n).retry) (m : Nat) :
    ((s.setChan n v).chan m).retry = (s.chan m).retry := by
  by_cases hm : m = n
  · rw [hm, State.chan_setChan_same, h]
  · rw [State.chan_setChan_other s v hm]

/-- The slice of a channel out of use. -/
def State.offSlice (s : State) (n : Nat) : Slice :=
  { lines := (s.slice n).lines.filter fun y => s.locMended ⟨n, 8 * y.unit⟩
    store := Tab.restrict (fun k => s.locMended ⟨n, k⟩) (s.slice n).store
    late := (s.slice n).late.filter fun e => s.locMended ⟨n, e.1⟩ }

/-- A channel out of use, with no work of its own. -/
def Chan.off (x : Chan) : Chan :=
  { x with resetAt := none, stoppedTicks := 0, cause := none, selfRefresh := false, wback := [], plOrder := [], plBack := [] }

/-- The registers of a channel out of use. -/
def State.offRegs (s : State) (n : Nat) : State := (s.put F.CE_STATE_STATE n 3).put F.CE_PL_STAT_BG_MODE n 0

theorem State.chanOff_eq (s : State) (n : Nat) : s.chanOff n =
    ((s.setSlice n (s.offSlice n)).offRegs n).setChan n (((s.setSlice n (s.offSlice n)).offRegs n).chan n).off := rfl

theorem State.offRegs_wrote (s : State) (n : Nat) : s.Wrote (s.offRegs n) (OffRegs n) :=
  ((State.Wrote.refl s _).put _ _ _ (.inl rfl)).put _ _ _ (.inr rfl)

theorem State.offRegs_state (s : State) (n : Nat) : (s.offRegs n).chanState n = 3 := by
  refine (fld_put_other _ _ _ _ _ _ ?_).trans (fld_put_same _ _ _ _ (by decide))
  simp only [F.CE_STATE_STATE, F.CE_PL_STAT_BG_MODE, Reg.offset, Reg.base, Reg.stride]
  omega

theorem State.chanOff_offed (s : State) (n : Nat) : s.Offed (s.chanOff n) n := by
  have hslice : ∀ m, ((s.setSlice n (s.offSlice n)).chan m) = s.chan m := fun _ => rfl
  have hwrote := (s.setSlice n (s.offSlice n)).offRegs_wrote n
  have hstate := (s.setSlice n (s.offSlice n)).offRegs_state n
  rw [State.chanOff_eq]
  generalize (s.setSlice n (s.offSlice n)).offRegs n = t at hwrote hstate
  refine ⟨?_, .congr (t' := t) rfl hwrote.regs, hstate, fun m => ?_⟩
  · rw [show t.setChan n (t.chan n).off = { t with mem := { t.mem with chans := (t.setChan n (t.chan n).off).mem.chans } } from rfl, hwrote.rest]
    rfl
  · rw [State.retry_setChan (show (t.chan n).off.retry = (t.chan n).retry from rfl), State.chan, hwrote.mem]
    rfl

theorem State.Offed.mendFree {s t : State} {n : Nat} (h : s.Offed t n) : s.Offed (t.mendFree n) n where
  rest := by
    rw [show t.mendFree n = { t with mem := { t.mem with mends := (t.mendFree n).mem.mends } } from rfl, h.rest]
  regs := .congr rfl h.regs
  state := h.state
  retry := h.retry

/-- A channel goes out of use where only channels' other parts had changed before. -/
theorem State.chanOff_offed_of {s t : State} (n : Nat) (hr : ∀ m, (t.chan m).retry = (s.chan m).retry)
    (ht : t = { s with mem := { s.mem with chans := t.mem.chans } }) : s.Offed (t.chanOff n) n where
  rest := by rw [(t.chanOff_offed n).rest, ht]
  regs := (RegsBut.congr (by rw [ht]) (RegsBut.refl s _)).trans (t.chanOff_offed n).regs
  state := (t.chanOff_offed n).state
  retry m := ((t.chanOff_offed n).retry m).trans (hr m)

/-- IN_RETIREDk shows the channel, and AUTO_RETIRED that the block retired it itself. -/
def State.markRetired (s : State) (n : Nat) (auto : Bool) : State := (s.putRetired n true).when auto (·.put F.CE_STATE_AUTO_RETIRED n 1)

/-- The granules that lose data with a channel get LOST, each with an entry. -/
def State.loseGrans (s : State) (n : Nat) (gs : List Nat) : State :=
  gs.foldl (fun s g => (s.put F.RG_GRAN_LOST g 1).log .lostGran { chan := some n, addr := some (g * gib) }) s

/-- The class of a retirement's entry. -/
def retireClass (auto : Bool) : LogClass := if auto then .retireAuto else .retire

theorem State.retire_eq (s : State) {n : Nat} (auto : Bool) (h3 : s.chanState n ≠ 3) (h4 : s.chanState n ≠ 4) : s.retire n auto =
    ((((((s.chanOff n).mendFree n).markRetired n auto).log (retireClass auto) { chan := some n }).loseGrans n (s.losing n)).bureauRetired n
      true).bureauEvent.ringsLost.moveOn n := by
  have hout : ¬(s.chanState n == 3 || s.chanState n == 4) = true := by simp [h3, h4]
  rw [State.retire, if_neg hout]
  rfl

theorem LogClass.limited_retire (auto : Bool) : (retireClass auto).limited = false ∧ (retireClass auto).stat = some F.IN_STAT_RETIRE := by
  cases auto <;> decide

/-- The offsets of IN_RETIREDk and CE_STATEn. -/
def MarkRegs (n o : Nat) : Prop := o = Reg.offset .IN_RETIRED (n / 64) ∨ o = Reg.offset .CE_STATE n

section
variable (s : State) (n : Nat)

/-- The field of IN_RETIREDk that holds a channel's bit (Table 10-17). -/
def retiredFld (n : Nat) : Fld := if n / 32 % 2 = 0 then F.IN_RETIRED_SITE_LO else F.IN_RETIRED_SITE_HI

theorem retiredFld_spec (n : Nat) : (retiredFld n).reg = .IN_RETIRED ∧ (retiredFld n).w = 32 ∧ (retiredFld n).lo + 32 ≤ 64 := by
  unfold retiredFld
  split <;> decide

theorem State.markRetired_wrote (auto : Bool) : s.Wrote (s.markRetired n auto) (MarkRegs n) := by
  have hput : s.Wrote (s.putRetired n true) (MarkRegs n) :=
    (State.Wrote.refl s _).putBit (retiredFld n) (n / 64) (n % 32) true (.inl (by rw [(retiredFld_spec n).1]))
  cases auto with
  | false => exact hput
  | true => exact hput.put F.CE_STATE_AUTO_RETIRED n 1 (.inr rfl)

theorem inRetired_ne_state {n : Nat} (hn : n < 256) (m : Nat) : Reg.offset .CE_STATE m ≠ Reg.offset .IN_RETIRED (n / 64) := by
  simp only [Reg.offset, Reg.base, Reg.stride]
  omega

theorem State.markRetired_bit (auto : Bool) (hn : n < 256) : (s.markRetired n auto).bit (retiredFld n) (n / 64) (n % 32) = true := by
  obtain ⟨hreg, hw, hin⟩ := retiredFld_spec n
  have hput : (s.putRetired n true).bit (retiredFld n) (n / 64) (n % 32) = true := by
    have hmod : n % 32 < 32 := Nat.mod_lt _ (by decide)
    have hset : (s.putRetired n true).fld (retiredFld n) (n / 64) = (s.fld (retiredFld n) (n / 64) ||| 2 ^ (n % 32)) % 2 ^ (retiredFld n).w :=
      fld_put_same s (retiredFld n) (n / 64) _ (by omega)
    rw [State.bit, hset, hw, Nat.testBit_mod_two_pow, Nat.testBit_or, Nat.testBit_two_pow_self, Bool.or_true, Bool.and_true]
    exact decide_eq_true hmod
  cases auto with
  | false => exact hput
  | true =>
    refine Eq.trans ?_ hput
    rw [State.bit, State.bit]
    refine congrArg (Nat.testBit · _) (fld_put_other _ F.CE_STATE_AUTO_RETIRED _ _ _ _ ?_)
    rw [hreg]
    exact (inRetired_ne_state hn n).symm

theorem State.markRetired_state (auto : Bool) (hn : n < 256) : (s.markRetired n auto).chanState n = s.chanState n := by
  have hput : (s.putRetired n true).chanState n = s.chanState n := fld_put_other _ (retiredFld n) _ _ _ _ (by
    rw [(retiredFld_spec n).1]
    exact inRetired_ne_state hn n)
  cases auto with
  | false => exact hput
  | true => exact (fld_put_field _ F.CE_STATE_AUTO_RETIRED F.CE_STATE_STATE _ _ rfl (by decide)).trans hput

theorem State.markRetired_auto : (s.markRetired n true).fld F.CE_STATE_AUTO_RETIRED n = 1 := fld_put_same _ _ _ _ (by decide)

end

/-! ## Granules that lose data -/

theorem State.granSectors_lt {s : State} {n g : Nat} (h : (s.granSectors n g).isSome = true) : g < 2048 := by
  unfold State.granSectors at h
  split at h
  case h_2 => cases h
  case h_1 t ht =>
    have hm := List.mem_of_find?_eq_some ht
    have hin := of_decide_eq_true (List.find?_some (p := fun t : Tier => decide (t.base ≤ g * gib ∧ g * gib < t.base + t.size)) ht)
    obtain ⟨hbase, hsites⟩ := s.tiers_low t hm
    obtain ⟨-, hsize, htop, -⟩ := s.tiers_sane.1 t hm
    have hle : t.size ≤ 8 * 65536 * 2 ^ 21 := by
      rw [hsize]
      exact Nat.mul_le_mul (Nat.mul_le_mul_right _ hsites) (by omega)
    unfold gib at hin
    omega

theorem State.losing_lt {s : State} {n g : Nat} (h : g ∈ s.losing n) : g < 2048 := by
  have hp := (List.mem_filter.mp h).2
  rw [Bool.and_eq_true] at hp
  refine State.granSectors_lt (s := s) (n := n) ?_
  obtain ⟨-, hp⟩ := hp
  split at hp
  · next r hr => rw [hr]; rfl
  · cases hp

/-- A fold whose steps each establish a property of their element, which the others keep, establishes it of every element. -/
theorem foldl_each {α β : Type} {P : α → β → Prop} {f : β → α → β} {l : List α} (hsets : ∀ b, ∀ x ∈ l, P x (f b x))
    (hkeeps : ∀ b, ∀ x ∈ l, ∀ y ∈ l, P y b → P y (f b x)) (b : β) : ∀ x ∈ l, P x (l.foldl f b) := by
  induction l generalizing b with
  | nil => exact fun _ h => nomatch h
  | cons a l ih =>
    intro x hx
    by_cases hxl : x ∈ l
    · exact ih (fun b x hx => hsets b x (.tail _ hx)) (fun b x hx y hy => hkeeps b x (.tail _ hx) y (.tail _ hy)) _ x hxl
    · have hxa : x = a := (List.mem_cons.mp hx).resolve_right hxl
      refine List.foldlRecOn (motive := P x) l f (hxa ▸ hsets b a (.head _)) fun c hc z hz => hkeeps c z (.tail _ hz) x hx hc

/-- The offsets that the loss of granules writes. -/
def LoseRegs (gs : List Nat) (o : Nat) : Prop := LogRegs o ∨ ∃ g ∈ gs, o = Reg.offset .RG_GRAN g

theorem gran_not_logRegs {g : Nat} (hg : g < 2048) : ¬LogRegs (Reg.offset .RG_GRAN g) :=
  not_logRegs (by simp only [Reg.offset, Reg.base, Reg.stride]; omega) (.inl (by simp only [Reg.offset, Reg.base, Reg.stride]; omega))

section
variable (s : State) (n : Nat)

theorem State.loseGrans_wrote (gs : List Nat) : s.Wrote (s.loseGrans n gs) (LoseRegs gs) :=
  .fold (.refl s _) fun u g hg => ((State.Wrote.refl u _).put _ _ _ (.inr ⟨g, hg, rfl⟩)).trans
    ((State.log_wrote (by decide) _ _).mono fun _ ho => .inl ho)

variable {gs : List Nat} (hgs : ∀ g ∈ gs, g < 2048)
include hgs

theorem State.loseGrans_lost : ∀ g ∈ gs, (s.loseGrans n gs).fld F.RG_GRAN_LOST g = 1 := by
  have hlog (u : State) (i : Info) {g : Nat} (hg : g < 2048) : (u.log .lostGran i).fld F.RG_GRAN_LOST g = u.fld F.RG_GRAN_LOST g :=
    (State.log_wrote (by decide) u i).regs.fld_eq (gran_not_logRegs hg)
  refine foldl_each (P := fun g (t : State) => t.fld F.RG_GRAN_LOST g = 1) (fun u g hg => ?_) (fun u g hg e he h => ?_) s
  · rw [hlog _ _ (hgs g hg)]
    exact fld_put_same _ _ _ _ (by decide)
  · rw [hlog _ _ (hgs e he)]
    by_cases heg : e = g
    · rw [heg]
      exact fld_put_same _ _ _ _ (by decide)
    · rw [fld_put_other _ _ _ _ _ _ (by simp only [F.RG_GRAN_LOST, Reg.offset, Reg.base, Reg.stride]; omega), h]

theorem State.loseGrans_stays {g : Fld} (hg : g.reg = .IN_STAT ∧ g.w = 1 ∧ g.lo < 64) (h : s.fld g 0 = 1) :
    (s.loseGrans n gs).fld g 0 = 1 := by
  refine List.foldlRecOn (motive := fun t : State => t.fld g 0 = 1) _ _ h fun t ht e he => State.log_stays hg ?_ (by decide) _
  have he' := hgs e he
  rw [fld_put_other _ _ _ _ _ _ (by rw [hg.1]; simp only [F.RG_GRAN_LOST, Reg.offset, Reg.base, Reg.stride]; omega), ht]

end

/-! ## After the retirement -/

/-- What a retired channel's slice held back is dropped, and nothing else moves on where no request waits. -/
theorem State.moveOn_retired {s : State} {n : Nat} (h : s.chanState n = 3) (hq : s.noRequests) :
    ∃ x, s.moveOn n = s ∨ s.moveOn n = s.setSlice n x := by
  have hlate : ∀ (l : List (Nat × Sec)), State.lateWrites n l s = s.setSlice n { s.slice n with late := [] } := fun l => by
    induction l with
    | nil => rfl
    | cons e es ih =>
      rw [State.lateWrites, State.sliceWrite, if_pos (by simp [h])]
      exact ih
  have hsettle (x : Slice) : (s.setSlice n x).settle = s.setSlice n x := State.settle_noRequests (State.noRequests_of rfl rfl hq)
  refine ⟨{ s.slice n with late := [] }, ?_⟩
  rw [State.moveOn, State.settleLate]
  split
  · exact .inl (State.settle_noRequests hq)
  · rw [hlate, hsettle]
    exact .inr rfl

/-- The offsets of the registers that the retirement of a channel writes, the granules `gs` losing data with it. -/
def RetireRegs (n : Nat) (gs : List Nat) (o : Nat) : Prop :=
  OffRegs n o ∨ MarkRegs n o ∨ LoseRegs gs o ∨ ∃ d < 64, o = Reg.offset .DR_STAT d

/-- A channel has been retired (R250), `auto` where the block did it itself. -/
structure State.RetiredBy (s t : State) (n : Nat) (auto : Bool) : Prop where
  mem : t.mem = { s.mem with slices := t.mem.slices, chans := t.mem.chans, mends := t.mem.mends }
  anv : t.anv = s.anv
  regs : RegsBut s t (RetireRegs n (s.losing n))
  state : t.chanState n = 3
  shown : t.bit (retiredFld n) (n / 64) (n % 32) = true
  lost : ∀ g ∈ s.losing n, t.fld F.RG_GRAN_LOST g = 1
  bureau : t.life.bureau.retired = s.life.bureau.retired ||| (1#256 <<< n)
  byBlock : auto = true → t.fld F.CE_STATE_AUTO_RETIRED n = 1
  told : t.fld F.IN_STAT_RETIRE 0 = 1
  requests : t.noRequests
  cmds : CmdsMarked s t

/-- A retirement up to the loss of granules: registers, and the channel's own parts of memory. -/
structure State.RetiredSoFar (s t : State) (n : Nat) (auto : Bool) : Prop where
  rest : t = { s with regs := t.regs, mem := { s.mem with slices := t.mem.slices, chans := t.mem.chans, mends := t.mem.mends } }
  regs : RegsBut s t (RetireRegs n (s.losing n))
  state : t.chanState n = 3
  shown : t.bit (retiredFld n) (n / 64) (n % 32) = true
  lost : ∀ g ∈ s.losing n, t.fld F.RG_GRAN_LOST g = 1
  byBlock : auto = true → t.fld F.CE_STATE_AUTO_RETIRED n = 1
  told : t.fld F.IN_STAT_RETIRE 0 = 1
  retry : ∀ m, (t.chan m).retry = (s.chan m).retry

theorem loseRegs_bounds {gs : List Nat} (hgs : ∀ g ∈ gs, g < 2048) {o : Nat} (h : LoseRegs gs o) :
    o = 0x18 ∨ (0x40000 ≤ o ∧ o < 0x44000) ∨ (0x80000 < o ∧ o < 0x90000 ∧ ¬(0x80010 ≤ o ∧ o < 0x80030)) := by
  rcases h with h | ⟨g, hg, rfl⟩
  · by_contra hno
    exact not_logRegs (o := o) (by omega) (by omega) h
  · have := hgs g hg
    refine .inr (.inl ?_)
    simp only [Reg.offset, Reg.base, Reg.stride]
    omega

theorem State.retiredSoFar (s : State) {n : Nat} (auto : Bool) (hn : n < 256) : s.RetiredSoFar
    (((((s.chanOff n).mendFree n).markRetired n auto).log (retireClass auto) { chan := some n }).loseGrans n (s.losing n)) n auto := by
  obtain ⟨hclass, hstat⟩ := LogClass.limited_retire auto
  have hgs : ∀ g ∈ s.losing n, g < 2048 := fun g hg => State.losing_lt hg
  have hoff := (s.chanOff_offed n).mendFree
  generalize (s.chanOff n).mendFree n = a at hoff
  have hmark := a.markRetired_wrote n auto
  have hbit := a.markRetired_bit n auto hn
  have hstate := a.markRetired_state n auto hn
  have hauto : auto = true → (a.markRetired n auto).fld F.CE_STATE_AUTO_RETIRED n = 1 := fun h => h ▸ a.markRetired_auto n
  generalize a.markRetired n auto = b at hmark hbit hstate hauto
  have hlog := State.log_wrote hclass b { chan := some n }
  have htold := State.log_sets b hclass hstat { chan := some n }
  generalize b.log (retireClass auto) { chan := some n } = c at hlog htold
  have hlose := c.loseGrans_wrote n (s.losing n)
  have hlost := c.loseGrans_lost n hgs
  have hstays := c.loseGrans_stays n hgs (g := F.IN_STAT_RETIRE) (by decide) htold
  generalize c.loseGrans n (s.losing n) = t at hlose hlost hstays
  have hlate : b.Wrote t (LoseRegs (s.losing n)) := (hlog.mono fun _ h => .inl h).trans hlose
  have hfar {r : Reg} {i : Nat} (h : 0x100000 ≤ r.offset i ∨ r = .IN_RETIRED ∧ i < 4) : ¬LoseRegs (s.losing n) (r.offset i) := fun hl => by
    have hb := loseRegs_bounds hgs hl
    rcases h with h | ⟨rfl, hi⟩
    · omega
    · simp only [Reg.offset, Reg.base, Reg.stride] at hb
      omega
  have hce : ¬LoseRegs (s.losing n) (Reg.offset .CE_STATE n) := hfar (.inl (by simp only [Reg.offset, Reg.base, Reg.stride]; omega))
  refine ⟨?_, ?_, ?_, ?_, hlost, fun h => ?_, hstays, fun m => ?_⟩
  · rw [hlate.rest, hmark.rest, hoff.rest]
  · exact (((hoff.regs.mono fun _ h => .inl h).trans (hmark.regs.mono fun _ h => .inr (.inl h))).trans
      (hlate.regs.mono fun _ h => .inr (.inr (.inl h))))
  · exact (hlate.regs.fld_eq (f := F.CE_STATE_STATE) hce).trans (hstate.trans hoff.state)
  · rw [State.bit, hlate.regs.fld_eq]
    · exact hbit
    · rw [(retiredFld_spec n).1]
      exact hfar (.inr ⟨rfl, by omega⟩)
  · exact (hlate.regs.fld_eq (f := F.CE_STATE_AUTO_RETIRED) hce).trans (hauto h)
  · rw [← hoff.retry m, State.chan, hlate.mem, hmark.mem]
    rfl

/-- R250: the retirement of a channel that is there, where no request waits. -/
theorem State.retire_retired {s : State} {n : Nat} (auto : Bool) (hn : n < 256) (h3 : s.chanState n ≠ 3) (h4 : s.chanState n ≠ 4)
    (hq : s.noRequests) : s.RetiredBy (s.retire n auto) n auto := by
  have hgs : ∀ g ∈ s.losing n, g < 2048 := fun g hg => State.losing_lt hg
  rw [State.retire_eq s auto h3 h4]
  have hso := s.retiredSoFar auto hn
  generalize ((((s.chanOff n).mendFree n).markRetired n auto).log (retireClass auto) { chan := some n }).loseGrans n (s.losing n) = u at hso
  have hrings := (u.bureauRetired n true).bureauEvent.ringsLost_marks
  generalize (u.bureauRetired n true).bureauEvent.ringsLost = v at hrings
  have hv : v = { u with
      regs := v.regs
      life := (u.bureauRetired n true).bureauEvent.life
      draws := { u.draws with drawer := v.draws.drawer } } := hrings.rest
  have hbut : RegsBut u v (fun o => o = Reg.offset .MW_IRQ_CAUSE 0 ∨ ∃ d < 64, o = Reg.offset .DR_STAT d) := hrings.regs
  have hfld {f : Fld} {i : Nat} (h : 0x18 < f.reg.offset i) (h' : f.reg.offset i < 0x30000 ∨ 0x31000 ≤ f.reg.offset i) : v.fld f i = u.fld f i :=
    hbut.fld_eq (by rintro (e | ⟨d, hd, e⟩) <;> rw [e] at h h' <;> simp only [Reg.offset, Reg.base, Reg.stride] at h h' <;> omega)
  have hstate : v.chanState n = 3 := (hfld (by simp only [F.CE_STATE_STATE, Reg.offset, Reg.base, Reg.stride]; omega)
    (by simp only [F.CE_STATE_STATE, Reg.offset, Reg.base, Reg.stride]; omega)).trans hso.state
  have hvq : v.noRequests := by
    refine ⟨by rw [hv, hso.rest]; exact hq.1, fun m => ?_⟩
    rw [← hq.2 m, ← hso.retry m, State.chan, hv]
    rfl
  have hby : s.RetiredBy v n auto := {
    mem := by rw [hv, hso.rest]
    anv := by rw [hv, hso.rest]
    regs := hso.regs.trans (hbut.mono fun o ho => ho.elim (fun h => .inr (.inr (.inl (.inl (.inr (.inl h)))))) fun h => .inr (.inr (.inr h)))
    state := hstate
    shown := by
      rw [State.bit, hfld]
      · exact hso.shown
      · rw [(retiredFld_spec n).1]
        simp only [Reg.offset, Reg.base, Reg.stride]
        omega
      · rw [(retiredFld_spec n).1]
        simp only [Reg.offset, Reg.base, Reg.stride]
        omega
    lost := fun g hg => (hfld (by simp only [F.RG_GRAN_LOST, Reg.offset, Reg.base, Reg.stride]; omega)
      (by simp only [F.RG_GRAN_LOST, Reg.offset, Reg.base, Reg.stride]; omega)).trans (hso.lost g hg)
    bureau := by
      rw [hv, hso.rest]
      rfl
    byBlock := fun h => (hfld (by simp only [F.CE_STATE_AUTO_RETIRED, Reg.offset, Reg.base, Reg.stride]; omega)
      (by simp only [F.CE_STATE_AUTO_RETIRED, Reg.offset, Reg.base, Reg.stride]; omega)).trans (hso.byBlock h)
    told := (hfld (by decide) (by decide)).trans hso.told
    requests := hvq
    cmds := (CmdsMarked.of_draws (by rw [hso.rest]; rfl)).trans hrings.cmds }
  obtain ⟨x, hx⟩ := State.moveOn_retired hstate hvq
  rcases hx with hx | hx <;> rw [hx]
  · exact hby
  · obtain ⟨mem, anv, regs, state, shown, lost, bureau, byBlock, told, requests, cmds⟩ := hby
    exact ⟨by rw [show (v.setSlice n x).mem = { v.mem with slices := (v.setSlice n x).mem.slices } from rfl, mem], anv, .congr rfl regs, state,
      shown, lost, bureau, byBlock, told, State.noRequests_of rfl rfl requests, cmds⟩

end Sys2Proof.Machine
end

section
/-!
PROOF of O31, first part: channels are retired (R128, R243, R250 to R252).
-/

namespace Sys2Proof.Machine

/-! ## Channels that go out of use one after the other -/

/-- Channel `n` has gone out of use, no other has changed its state, no request waits, and the states are related by `R`. -/
structure State.GoesOut (R : State → State → Prop) (s t : State) (n : Nat) : Prop where
  state : t.chanState n = 3
  others : ∀ m < 256, m ≠ n → t.chanState m = s.chanState m
  requests : t.noRequests
  rest : R s t

/-- A step that takes channels out of use takes those of a list out of use. -/
theorem State.goOut_fold {R : State → State → Prop} (hrefl : ∀ s, R s s) (htrans : ∀ s t u, R s t → R t u → R s u)
    {f : State → Nat → State} (hf : ∀ (s : State) n, n < 256 → s.chanState n ≠ 3 → s.chanState n ≠ 4 → s.noRequests → s.GoesOut R (f s n) n)
    (l : List Nat) (hl : l.Nodup) : ∀ s : State, (∀ n ∈ l, n < 256 ∧ s.chanState n ≠ 3 ∧ s.chanState n ≠ 4) → s.noRequests →
      (∀ n ∈ l, (l.foldl f s).chanState n = 3) ∧ (∀ m < 256, m ∉ l → (l.foldl f s).chanState m = s.chanState m) ∧
        (l.foldl f s).noRequests ∧ R s (l.foldl f s) := by
  induction l with
  | nil => exact fun s _ hq => ⟨fun _ h => (nomatch h), fun _ _ _ => rfl, hq, hrefl s⟩
  | cons a l ih =>
    intro s hs hq
    obtain ⟨hnot, hnd⟩ := List.nodup_cons.mp hl
    obtain ⟨ha, ha3, ha4⟩ := hs a (.head _)
    obtain ⟨state, others, requests, rest⟩ := hf s a ha ha3 ha4 hq
    obtain ⟨hin, hout, hq', hR⟩ := ih hnd (f s a) (fun n hn => by
      obtain ⟨hn', h⟩ := hs n (.tail _ hn)
      rw [others n hn' fun e => hnot (e ▸ hn)]
      exact ⟨hn', h⟩) requests
    refine ⟨fun n hn => ?_, fun m hm hml => ?_, hq', htrans _ _ _ rest hR⟩
    · rcases List.mem_cons.mp hn with rfl | hn
      · exact (hout n ha hnot).trans state
      · exact hin n hn
    · rw [List.mem_cons, not_or] at hml
      exact (hout m hm hml.2).trans (others m hm hml.1)

theorem not_retireRegs_state {gs : List Nat} (hgs : ∀ g ∈ gs, g < 2048) {n m : Nat} (hn : n < 256) (hm : m ≠ n) :
    ¬RetireRegs n gs (Reg.offset .CE_STATE m) := by
  rintro ((e | e) | (e | e) | hl | ⟨d, hd, e⟩)
  case inr.inr.inl =>
    have hb := loseRegs_bounds hgs hl
    simp only [Reg.offset, Reg.base, Reg.stride] at hb
    omega
  all_goals simp only [Reg.offset, Reg.base, Reg.stride] at e; omega

section
variable {s t : State} {n : Nat} {auto : Bool} (h : s.RetiredBy t n auto)
include h

theorem State.RetiredBy.others (hn : n < 256) (m : Nat) (hm : m ≠ n) : t.chanState m = s.chanState m :=
  h.regs.fld_eq (not_retireRegs_state (fun _ hg => State.losing_lt hg) hn hm)

theorem State.RetiredBy.array : t.mem.dram = s.mem.dram ∧ t.mem.chk = s.mem.chk := by
  rw [h.mem]
  exact ⟨rfl, rfl⟩

/-- A retirement leaves the registers of granules that lose nothing. -/
theorem State.RetiredBy.gran {e : Nat} (he : e < 768) (hne : e ∉ s.losing n) : t.reg .RG_GRAN e = s.reg .RG_GRAN e := by
  refine h.regs.reg_eq ?_
  rintro ((o | o) | (o | o) | (hl | ⟨g, hg, o⟩) | ⟨d, hd, o⟩)
  case inr.inr.inl.inl => exact gran_not_logRegs (by omega) hl
  case inr.inr.inl.inr =>
    have : e = g := by
      simp only [Reg.offset, Reg.base, Reg.stride] at o
      omega
    exact hne (this ▸ hg)
  all_goals simp only [Reg.offset, Reg.base, Reg.stride] at o; omega

end

/-! ## CHANNEL_RETIRE (R128, R250) -/

/-- What stands over retirements: the array, the Anvils, and the commands but for records lost with a ring. -/
def RetireStands (s t : State) : Prop := (t.mem.dram = s.mem.dram ∧ t.mem.chk = s.mem.chk) ∧ t.anv = s.anv ∧ CmdsMarked s t

theorem RetireStands.refl (s : State) : RetireStands s s := ⟨⟨rfl, rfl⟩, rfl, .refl s⟩

theorem RetireStands.trans (s t u : State) (h : RetireStands s t) (g : RetireStands t u) : RetireStands s u :=
  ⟨⟨g.1.1.trans h.1.1, g.1.2.trans h.1.2⟩, g.2.1.trans h.2.1, h.2.2.trans g.2.2⟩

theorem State.retire_goesOut (s : State) (n : Nat) (auto : Bool) (hn : n < 256) (h3 : s.chanState n ≠ 3) (h4 : s.chanState n ≠ 4)
    (hq : s.noRequests) : s.GoesOut RetireStands (s.retire n auto) n :=
  have h := State.retire_retired auto hn h3 h4 hq
  ⟨h.state, fun m _ => h.others hn m, h.requests, h.array, h.anv, h.cmds⟩

section
variable {d pos : Nat} {c : Cmd} {s : State}

/-- The state in which a CHANNEL_RETIRE has retired its channels, but for its record. -/
def State.retireAll (s : State) (c : Cmd) : State :=
  ((retireSet c).filter fun n => s.chanState n != 3).foldl (fun s n => s.retire n false) s

theorem exec_channelRetire (h : s.fresh d pos .channelRetire c)
    (hform : (c.argBit 1 8 && c.arg 1 3 5 != 0 || (retireSet c).all fun n => s.chanState n == 4) = false)
    (hgroup : ∀ n ∈ retireSet c, s.chanState n = 3 ∨ s.groupRetired n = false)
    (hready : ∀ n ∈ retireSet c, s.chanState n ≠ 1 ∧ s.chanState n ≠ 2) :
    exec (.channelRetire d pos) s = .next ((s.retireAll c).finish d (((s.retireAll c).cmd d pos).getD c) .ok
      ((((retireSet c).filter fun n => s.chanState n != 3).flatMap s.losing).dedup.length) 0) := by
  have hsecond : (((retireSet c).filter fun n => s.chanState n != 3).any s.groupRetired) = false := by
    refine List.any_eq_false.mpr fun n hn => ?_
    obtain ⟨hm, h3⟩ := List.mem_filter.mp hn
    rw [(hgroup n hm).resolve_left (by simpa using h3)]
    decide
  have hpermitted : (!c.argBit 1 9 && (retireSet c).any fun n => s.chanState n != 3 && s.groupRetired n) = false := by
    refine Bool.and_eq_false_iff.mpr (.inr (List.any_eq_false.mpr fun n hn => ?_))
    rcases hgroup n hn with h | h <;> simp [h]
  have hbusy : ((retireSet c).any fun n => s.chanState n == 1 || s.chanState n == 2) = false :=
    List.any_eq_false.mpr fun n hn => by simp [hready n hn]
  show execChannelRetire d pos s = _
  rw [execChannelRetire, h.runCmd _ (pureCheck_passes (by
    intro e he
    simp only [List.mem_cons, List.not_mem_nil, or_false] at he
    rcases he with rfl | rfl
    · exact hform
    · exact hpermitted))]
  simp only [hbusy, hsecond, Bool.false_eq_true, if_false, State.when_false, State.retireAll]

/-- The record of a CHANNEL_RETIRE that retired its channels. -/
theorem State.cmd_retired {u : State} (h : s.cmd d pos = some c) (hm : CmdsMarked s u) (lost : Nat) :
    ∃ b, (u.finish d ((u.cmd d pos).getD c) .ok lost 0).cmd d pos = some ({ c with lostRing := b }.ended .ok lost 0) := by
  obtain ⟨b, hb⟩ := hm d pos c h
  refine ⟨b, ?_⟩
  rw [hb, Option.getD_some]
  exact State.cmd_finish (e := { c with lostRing := b }) hb (show c.pos = pos from State.cmd_pos h) _ _ _

end

/-! ## Admissions that fail (R243, R251, R252) -/

section
variable {s : State} {n : Nat}

/-- A failed admission of the block's own retires the channel. -/
theorem State.admitFail_own (hw : (s.chan n).admitBy = none) : s.admitFail n = (s.log .admitFail { chan := some n }).retire n true := by
  simp only [State.admitFail, hw, Option.isSome_none, Bool.false_eq_true, if_false, Option.map_none]

theorem State.log_chanState {c : LogClass} (hc : c.limited = false) (s : State) (i : Info) (m : Nat) :
    (s.log c i).chanState m = s.chanState m :=
  (State.log_wrote hc s i).regs.fld_eq (not_logRegs (by simp only [F.CE_STATE_STATE, Reg.offset, Reg.base, Reg.stride]; omega)
    (.inr (.inl (by simp only [F.CE_STATE_STATE, Reg.offset, Reg.base, Reg.stride]; omega))))

theorem State.log_noRequests {c : LogClass} (hc : c.limited = false) (i : Info) (hq : s.noRequests) : (s.log c i).noRequests :=
  have h := State.log_wrote hc s i
  State.noRequests_of (by rw [h.mem]) (by rw [h.ports]) hq

/-- The admission of a CHANNEL_ADMIT fails: its channel stays out of use, and its record will say so. -/
theorem State.admitFail_command {who : Nat × Nat} (hw : (s.chan n).admitBy = some who) : s.admitFail n =
    (((s.log .admitFail { chan := some n, part := some who.1 }).admitCut n).admitDone (some who) .degraded).moveOn n := by
  simp only [State.admitFail, hw, Option.isSome_some, if_true, Option.map_some]

theorem State.admitDone_rest (s : State) (who : Option (Nat × Nat)) (st : Status) :
    s.admitDone who st = { s with draws := (s.admitDone who st).draws } := by
  unfold State.admitDone
  split
  · split <;> rfl
  · rfl

/-- The array has stood. -/
def ArrayStood (s t : State) : Prop := t.mem.dram = s.mem.dram ∧ t.mem.chk = s.mem.chk

theorem ArrayStood.refl (s : State) : ArrayStood s s := ⟨rfl, rfl⟩

theorem ArrayStood.trans (s t u : State) (h : ArrayStood s t) (g : ArrayStood t u) : ArrayStood s u :=
  ⟨g.1.trans h.1, g.2.trans h.2⟩

/-- The registers of a channel whose admission is cut off. -/
theorem State.admitCut_offed (s : State) (n : Nat) : s.Offed (s.admitCut n) n := by
  have hoff : s.Offed ((s.setChan n { s.chan n with admitBy := none }).chanOff n) n :=
    State.chanOff_offed_of n (State.retry_setChan rfl) rfl
  rw [State.admitCut]
  generalize (s.setChan n { s.chan n with admitBy := none }).chanOff n = u at hoff
  have hput : u.Wrote (u.put F.CE_STATE_REBUILDING n 0) (OffRegs n) := (State.Wrote.refl u _).put _ _ _ (.inl rfl)
  have hstate : (u.put F.CE_STATE_REBUILDING n 0).chanState n = 3 :=
    (fld_put_field _ F.CE_STATE_REBUILDING F.CE_STATE_STATE _ _ rfl (by decide)).trans hoff.state
  generalize u.put F.CE_STATE_REBUILDING n 0 = v at hput hstate
  exact ⟨by rw [hput.rest, hoff.rest], hoff.regs.trans hput.regs, hstate, fun m => by rw [State.chan, hput.mem]; exact hoff.retry m⟩

theorem State.Offed.others {s t : State} {n m : Nat} (h : s.Offed t n) (hm : m ≠ n) : t.chanState m = s.chanState m :=
  h.regs.fld_eq (by rintro (e | e) <;> simp only [F.CE_STATE_STATE, Reg.offset, Reg.base, Reg.stride] at e <;> omega)

theorem State.Offed.noRequests {s t : State} {n : Nat} (h : s.Offed t n) (hq : s.noRequests) : t.noRequests :=
  ⟨by rw [h.rest]; exact hq.1, fun m => (h.retry m).trans (hq.2 m)⟩

/-- A failed admission takes the channel out of use. -/
theorem State.admitFail_goesOut (s : State) (n : Nat) (hn : n < 256) (h3 : s.chanState n ≠ 3) (h4 : s.chanState n ≠ 4) (hq : s.noRequests) :
    s.GoesOut ArrayStood (s.admitFail n) n := by
  have hstate (i : Info) (m : Nat) := State.log_chanState (c := .admitFail) (by decide) s i m
  have hlogq (i : Info) := State.log_noRequests (c := .admitFail) (by decide) i hq
  have hmem (i : Info) : (s.log .admitFail i).mem = s.mem := (State.log_wrote (by decide) s i).mem
  cases hw : (s.chan n).admitBy with
  | none =>
    rw [State.admitFail_own hw]
    have h := State.retire_retired true hn (by rw [hstate]; exact h3) (by rw [hstate]; exact h4) (hlogq { chan := some n })
    obtain ⟨hdram, hchk⟩ := h.array
    exact ⟨h.state, fun m _ hm => (h.others hn m hm).trans (hstate _ m), h.requests, by rw [hdram, hmem], by rw [hchk, hmem]⟩
  | some who =>
    rw [State.admitFail_command hw]
    have hq' := hlogq { chan := some n, part := some who.1 }
    have hmem' := hmem { chan := some n, part := some who.1 }
    have hstate' := hstate { chan := some n, part := some who.1 }
    generalize s.log .admitFail { chan := some n, part := some who.1 } = a at hq' hmem' hstate'
    have hoff := a.admitCut_offed n
    generalize a.admitCut n = b at hoff
    have hrest := b.admitDone_rest (some who) .degraded
    generalize b.admitDone (some who) .degraded = u at hrest
    have hregs : u.regs = b.regs := by rw [hrest]
    have hustate (m : Nat) : u.chanState m = b.chanState m := State.fld_congr hregs _ _
    have huq : u.noRequests := State.noRequests_of (by rw [hrest]) (by rw [hrest]) (hoff.noRequests hq')
    have harray : u.mem.dram = s.mem.dram ∧ u.mem.chk = s.mem.chk := by
      rw [hrest, ← hmem', hoff.rest]
      exact ⟨rfl, rfl⟩
    have hu : s.GoesOut ArrayStood u n := ⟨(hustate n).trans hoff.state,
      fun m _ hm => (hustate m).trans ((hoff.others hm).trans (hstate' m)), huq, harray⟩
    obtain ⟨x, hx⟩ := State.moveOn_retired hu.state huq
    rcases hx with hx | hx <;> rw [hx]
    · exact hu
    · exact ⟨hu.state, hu.others, State.noRequests_of rfl rfl huq, harray⟩

theorem State.inAdmission_iff : s.inAdmission n = true ↔
    n < 256 ∧ (s.chanState n = 1 ∨ s.chanState n = 2) ∧ s.life.paused = false ∧ s.drained = false := by
  simp [State.inAdmission, State.recovering, and_assoc]

/-- What a failed admission of the block's own leaves (R243). -/
theorem State.admitFail_retired (hn : n < 256) (h3 : s.chanState n ≠ 3) (h4 : s.chanState n ≠ 4) (hq : s.noRequests)
    (hw : (s.chan n).admitBy = none) : (s.admitFail n).fld F.CE_STATE_AUTO_RETIRED n = 1 ∧
      (s.admitFail n).life.bureau.retired = s.life.bureau.retired ||| 1#256 <<< n ∧ (s.admitFail n).fld F.IN_STAT_RETIRE 0 = 1 := by
  have hlog := State.log_wrote (c := .admitFail) (by decide) s { chan := some n }
  have hstate := State.log_chanState (c := .admitFail) (by decide) s { chan := some n } n
  rw [State.admitFail_own hw]
  have h := State.retire_retired true hn (by rw [hstate]; exact h3) (by rw [hstate]; exact h4)
    (State.log_noRequests (by decide) { chan := some n } hq)
  exact ⟨h.byBlock rfl, by rw [h.bureau, hlog.life], h.told⟩

theorem exec_admission_fails {o : AdmitOutcome} (h : s.inAdmission n = true) (ho : o.trained = false ∨ o.selfTest = false) :
    exec (.admission n o) s = .next (s.admitFail n) := by
  have hbad : (!o.trained || !o.selfTest) = true := by rcases ho with h | h <;> simp [h]
  show execAdmission n o s = _
  rw [execAdmission, h, hbad]
  rfl

/-- The channels of a site that are not retired. -/
def State.siteLive (s : State) (n : Nat) : List Nat := ((List.range 32).map fun k => n / 32 * 32 + k).filter fun k => s.chanState k != 3

theorem State.mem_siteLive {m : Nat} : m ∈ s.siteLive n ↔ m / 32 = n / 32 ∧ s.chanState m ≠ 3 := by
  simp only [State.siteLive, List.mem_filter, List.mem_map, List.mem_range, bne_iff_ne]
  refine and_congr_left fun _ => ⟨?_, fun h => ⟨m % 32, Nat.mod_lt _ (by decide), by omega⟩⟩
  rintro ⟨k, hk, rfl⟩
  omega

theorem State.siteLive_nodup (s : State) (n : Nat) : (s.siteLive n).Nodup :=
  (List.Nodup.map (fun _ _ h => Nat.add_left_cancel h) List.nodup_range).filter _

theorem exec_admissionDeadline (h : s.overdue n = true) : exec (.admissionDeadline n) s =
    .next (if (s.siteLive n).all s.overdue then (s.siteLive n).foldl State.admitFail s else s.admitFail n) := by
  show execAdmissionDeadline n s = _
  rw [execAdmissionDeadline, h]
  simp only [Bool.not_true, Bool.false_eq_true, if_false, State.siteLive]
  exact (apply_ite Host.Outcome.next _ _ _).symm

theorem State.overdue_iff {u : Nat} (hu : (s.chan n).resetAt = some u) :
    s.overdue n = true ↔ s.inAdmission n = true ∧ u + (s.chan n).stoppedTicks + 1600000000 ≤ s.tick := by
  rw [State.overdue, hu, Bool.and_eq_true]
  exact and_congr_right fun _ => decide_eq_true_iff

end

end Sys2Proof.Machine
end

section
/-!
SUPPORT. What a reset of a channel comes to (R240).
-/

namespace Sys2Proof.Machine

/-! ## Channels reset from outside the data (R239, R240) -/

/-- A sector's address lies in a granule whose register is below those of the integrity unit. -/
theorem State.addrOf_granule {s : State} {l : Loc} {a : Nat} (h : s.addrOf l = some a) : a / gib < 2 ^ 15 := by
  have hplain {b : Nat} (h : s.addrPlain l = some b) : l.m < 2 ^ 21 ∧ b < 2 ^ 42 := State.addrPlain_lt h
  unfold gib
  rw [Nat.div_lt_iff_lt_mul (by decide)]
  unfold State.addrOf at h
  split at h
  case isFalse =>
    have := (hplain h).2
    omega
  case isTrue hmended =>
    have hpos : l.m < 2 ^ 21 := by
      unfold State.locMended at hmended
      split at hmended
      · next x hx => exact (hplain hx).1
      · cases hmended
    have hn := s.mendN_le
    dsimp only at h
    split at h
    case h_1 => cases h
    case h_2 i hi =>
      split at h
      case isTrue => cases h
      case isFalse =>
        obtain rfl := Option.some.inj h
        have hidx : i < s.mendSites.length := (List.findIdx?_eq_some_iff_findIdx_eq.mp hi).1
        rw [State.mendSites_length] at hidx
        have h0 : 0 < s.mendN := by omega
        obtain ⟨hq, hunit⟩ := State.mendQ_bounds h0
        have hu : l.m / (s.mendQ * 16384 / s.mendN) ≤ 2 ^ 10 := (Nat.div_le_div_left hunit (by decide)).trans (by omega)
        have hmember := Nat.mod_lt (i + s.mendN - (s.parityIdx (l.n % 32) l.m + 1) % s.mendN) h0
        have hsec : l.sector < 32 := Nat.mod_lt _ (by decide)
        generalize l.m / (s.mendQ * 16384 / s.mendN) = u at *
        generalize (i + s.mendN - (s.parityIdx (l.n % 32) l.m + 1) % s.mendN) % s.mendN = m at *
        have hstart : u * s.mendQ * gib ≤ 2 ^ 10 * 8 * 2 ^ 30 := Nat.mul_le_mul_right _ (Nat.mul_le_mul hu hq)
        have hm : l.m - u * s.mendQ * 16384 / s.mendN ≤ l.m := Nat.sub_le _ _
        have hrow : ((l.m - u * s.mendQ * 16384 / s.mendN) * 32 + l.n % 32) * (s.mendN - 1) ≤ 2 ^ 26 * 8 :=
          Nat.mul_le_mul (by omega) (by omega)
        omega

/-- The offsets that a member's leaving writes, where rows are lost with it (R248). -/
def LeaveRegs (o : Nat) : Prop :=
  o = Reg.offset .IN_STAT 0 ∨ o = Reg.offset .MW_IRQ_CAUSE 0 ∨ ∃ g < 2 ^ 15, o = Reg.offset .RG_GRAN g

/-- The offsets that the marking of granules as lost writes. -/
def GranRegs (o : Nat) : Prop := ∃ g < 2 ^ 15, o = Reg.offset .RG_GRAN g

theorem State.markLost_wrote (s : State) (l : Loc) : s.Wrote (s.markLost l) GranRegs := by
  unfold State.markLost
  split
  · next a ha => exact (State.Wrote.refl s _).put _ _ _ ⟨_, State.addrOf_granule ha, rfl⟩
  · exact .refl s _

/-- A set bit of IN_STAT is set, and registers outside `LeaveRegs` are as they were. -/
structure State.Leaves (s t : State) : Prop where
  rest : t = { s with regs := t.regs, mem := { s.mem with mends := t.mem.mends } }
  regs : RegsBut s t LeaveRegs
  stays : ∀ f : Fld, f.reg = .IN_STAT ∧ f.w = 1 ∧ f.lo < 64 → s.fld f 0 = 1 → t.fld f 0 = 1

namespace State.Leaves

theorem refl (s : State) : s.Leaves s := ⟨rfl, .refl s _, fun _ _ h => h⟩

theorem trans {s t u : State} (h : s.Leaves t) (g : t.Leaves u) : s.Leaves u :=
  ⟨by rw [g.rest, h.rest], h.regs.trans g.regs, fun f hf h1 => g.stays f hf (h.stays f hf h1)⟩

theorem setMend (s : State) (c : Nat) (v : Mend) : s.Leaves (s.setMend c v) := ⟨rfl, .refl s _, fun _ _ h => h⟩

theorem rowsLost (s : State) (c : Nat) (sites rows : List Nat) : s.Leaves (s.rowsLost c sites rows) := by
  unfold State.rowsLost
  dsimp only
  split
  · exact refl s
  · next hne =>
    have hmark : s.Wrote ((((rows.flatMap fun m => sites.map fun t => (⟨32 * t + c, m * 32⟩ : Loc)).filter s.locMended)).foldl State.markLost s)
        GranRegs := .fold (.refl s _) fun u l _ => u.markLost_wrote l
    generalize (((rows.flatMap fun m => sites.map fun t => (⟨32 * t + c, m * 32⟩ : Loc)).filter s.locMended)).foldl State.markLost s = u at hmark
    have hstat : u.Wrote (u.inStat (some F.IN_STAT_LOST)) LeaveRegs :=
      ((State.Wrote.refl u _).put _ _ _ (.inl rfl)).raise _ (.inr (.inl rfl))
    refine ⟨?_, (hmark.mono fun o ho => .inr (.inr ho)).regs.trans hstat.regs, fun f hf h => State.inStat_stays (by decide) hf ?_⟩
    · rw [((hmark.mono fun o ho => .inr (.inr ho)).trans hstat).rest]
    · rw [hmark.regs.fld_eq, h]
      rw [hf.1]
      rintro ⟨g, hg, e⟩
      simp only [Reg.offset, Reg.base, Reg.stride] at e
      omega

theorem mendLeave (s : State) (n : Nat) : s.Leaves (s.mendLeave n) := by
  unfold State.mendLeave
  dsimp only
  split
  · exact refl s
  · split
    · exact setMend s _ _
    · exact List.foldlRecOn (motive := fun t : State => s.Leaves t) _ _ (setMend s _ _) fun t ht e _ => ht.trans (rowsLost t _ _ _)

end State.Leaves

section
variable (s : State) (n : Nat)

/-- The registers of a channel that enters reset. -/
def State.resetRegs : State := ((s.put F.CE_STATE_STATE n 1).countSat F.CE_STATE_RESETS n 1).put F.CE_PL_STAT_BG_MODE n 0

/-- A channel that enters reset, its array kept in self-refresh. -/
def Chan.inReset (x : Chan) (tick : Nat) (cause : Option Nat) : Chan :=
  { x with resetAt := some tick, stoppedTicks := 0, cause := cause, selfRefresh := true, plOrder := [], plBack := [] }

/-- The Planisher units of a channel are empty. -/
def State.clearUnits : State := (List.range 8).foldl (fun s k => s.setUnit (8 * n + k) .empty) s

theorem State.channelReset_eq (h : s.chanState n = 0) (cause : Option Nat) : s.channelReset n cause =
    (((s.resetRegs n).clearUnits n).setChan n ((((s.resetRegs n).clearUnits n).chan n).inReset ((s.resetRegs n).clearUnits n).tick
      cause)).mendLeave n := by
  rw [State.channelReset, if_neg (by simp [h])]
  rfl

theorem State.resetRegs_wrote : s.Wrote (s.resetRegs n) (OffRegs n) :=
  (((State.Wrote.refl s _).put _ _ _ (.inl rfl)).put _ _ _ (.inl rfl)).put _ _ _ (.inr rfl)

theorem state_ne_plStat (n : Nat) : Reg.offset .CE_STATE n ≠ Reg.offset .CE_PL_STAT n := by
  simp only [Reg.offset, Reg.base, Reg.stride]
  omega

theorem State.resetRegs_fields : (s.resetRegs n).chanState n = 1 ∧
    (s.resetRegs n).fld F.CE_STATE_RESETS n = Nat.min (s.fld F.CE_STATE_RESETS n + 1) (2 ^ F.CE_STATE_RESETS.w - 1) ∧
    (s.resetRegs n).fld F.CE_PL_STAT_BG_MODE n = 0 := by
  have hcount : (s.put F.CE_STATE_STATE n 1).fld F.CE_STATE_RESETS n = s.fld F.CE_STATE_RESETS n :=
    fld_put_field _ F.CE_STATE_STATE _ _ _ rfl (by decide)
  refine ⟨?_, ?_, fld_put_same _ _ _ _ (by decide)⟩
  · refine (fld_put_other _ _ _ _ _ _ (state_ne_plStat n)).trans ?_
    exact (fld_put_field _ F.CE_STATE_RESETS F.CE_STATE_STATE _ _ rfl (by decide)).trans (fld_put_same _ _ _ _ (by decide))
  · refine (fld_put_other _ _ _ _ _ _ (state_ne_plStat n)).trans ((fld_put_same _ _ _ _ (by decide)).trans ?_)
    rw [hcount]
    exact Nat.mod_eq_of_lt (Nat.lt_of_le_of_lt (Nat.min_le_right _ _) (by decide))

theorem State.clearUnits_rest : s.clearUnits n = { s with pl := (s.clearUnits n).pl } :=
  List.foldlRecOn (motive := fun t : State => t = { s with pl := t.pl }) _ _ rfl fun t ht k _ =>
    (show t.setUnit (8 * n + k) .empty = { t with pl := (t.setUnit (8 * n + k) .empty).pl } from rfl).trans (by rw [ht])

end

/-- A channel has been reset (R240): only its own parts, registers that tell of it, and a stale map have changed. -/
structure State.ResetBy (s t : State) (n : Nat) (cause : Option Nat) : Prop where
  rest : t = { s with regs := t.regs, pl := t.pl, mem := { s.mem with chans := t.mem.chans, mends := t.mem.mends } }
  regs : RegsBut s t (fun o => OffRegs n o ∨ LeaveRegs o)
  state : t.chanState n = 1
  resets : t.fld F.CE_STATE_RESETS n = Nat.min (s.fld F.CE_STATE_RESETS n + 1) (2 ^ F.CE_STATE_RESETS.w - 1)
  modes : t.fld F.CE_PL_STAT_BG_MODE n = 0
  chan : t.chan n = (s.chan n).inReset s.tick cause
  others : ∀ m, m ≠ n → t.chan m = s.chan m
  stays : ∀ f : Fld, f.reg = .IN_STAT ∧ f.w = 1 ∧ f.lo < 64 → s.fld f 0 = 1 → t.fld f 0 = 1

theorem channelReset_resets {s : State} {n : Nat} (h : s.chanState n = 0) (cause : Option Nat) : s.ResetBy (s.channelReset n cause) n cause := by
  have hwrote := s.resetRegs_wrote n
  obtain ⟨hstate, hresets, hmodes⟩ := s.resetRegs_fields n
  rw [State.channelReset_eq s n h]
  generalize s.resetRegs n = a at hwrote hstate hresets hmodes
  have hunits := a.clearUnits_rest n
  generalize a.clearUnits n = b at hunits
  have hab : b = { s with regs := a.regs, pl := b.pl } := by rw [hunits, hwrote.rest]
  have hchan (m : Nat) : b.chan m = s.chan m := by rw [State.chan, hab]; rfl
  have hleave := State.Leaves.mendLeave (b.setChan n ((b.chan n).inReset b.tick cause)) n
  have htick : b.tick = s.tick := by rw [hab]
  have hsame := b.chan_setChan_same n ((b.chan n).inReset b.tick cause)
  have hother {m : Nat} (hm : m ≠ n) := b.chan_setChan_other ((b.chan n).inReset b.tick cause) hm
  have hset : b.setChan n ((b.chan n).inReset b.tick cause) = { b with mem := { b.mem with chans := (b.setChan n
    ((b.chan n).inReset b.tick cause)).mem.chans } } := rfl
  generalize b.setChan n ((b.chan n).inReset b.tick cause) = u at hleave hsame hother hset
  generalize u.mendLeave n = t at hleave
  have huregs : u.regs = a.regs := by rw [hset, hab]
  have hfar {f : Fld} {i : Nat} (hi : 0x100000 ≤ f.reg.offset i) : t.fld f i = a.fld f i := by
    rw [hleave.regs.fld_eq, State.fld_congr huregs]
    rintro (e | e | ⟨g, hg, e⟩) <;> rw [e] at hi <;> simp only [Reg.offset, Reg.base, Reg.stride] at hi <;> omega
  have htchan (m : Nat) : t.chan m = u.chan m := by rw [State.chan, hleave.rest]; rfl
  refine ⟨?_, ?_, ?_, ?_, ?_, ?_, fun m hm => ?_, fun f hf h1 => hleave.stays f hf ?_⟩
  · rw [hleave.rest, hset, hab]
  · exact (RegsBut.congr huregs (hwrote.regs.mono fun _ h => .inl h)).trans (hleave.regs.mono fun _ h => .inr h)
  · exact (hfar (f := F.CE_STATE_STATE) (by simp only [F.CE_STATE_STATE, Reg.offset, Reg.base, Reg.stride]; omega)).trans hstate
  · exact (hfar (by simp only [F.CE_STATE_RESETS, Reg.offset, Reg.base, Reg.stride]; omega)).trans hresets
  · exact (hfar (by simp only [F.CE_PL_STAT_BG_MODE, Reg.offset, Reg.base, Reg.stride]; omega)).trans hmodes
  · rw [htchan, hsame, hchan, htick]
  · rw [htchan, hother hm, hchan]
  · rw [State.fld_congr huregs, hwrote.regs.fld_eq, h1]
    rw [hf.1]
    rintro (e | e) <;> simp only [Reg.offset, Reg.base, Reg.stride] at e <;> omega

/-- The classes of errors from outside the data. -/
theorem LogClass.limited_outside {c : LogClass} (h : c = .caPar ∨ c = .phy) : c.limited = false ∧ c.stat = some F.IN_STAT_UE := by
  rcases h with rfl | rfl <;> decide

/-- R239: an error from outside the data is logged, and resets its channel. -/
theorem State.chanError_resets {s : State} {n : Nat} {c : LogClass} (hc : c = .caPar ∨ c = .phy) (hn : n < 256) (h : s.chanState n = 0) :
    (s.log c { chan := some n }).ResetBy (s.chanError n c) n none := by
  rw [State.chanError, if_neg (by omega)]
  exact channelReset_resets ((State.log_chanState (LogClass.limited_outside hc).1 s _ n).trans h) none

theorem exec_outside {i : Instr} {n : Nat} (s : State) (h : i = .caPar n ∨ i = .phy n) :
    ∃ c, (c = LogClass.caPar ∨ c = .phy) ∧ exec i s = .next (s.chanError n c) := by
  rcases h with rfl | rfl
  · exact ⟨.caPar, .inl rfl, rfl⟩
  · exact ⟨.phy, .inr rfl, rfl⟩

end Sys2Proof.Machine
end

section
/-!
PROOF of O31, second part: channels are returned (R242).
-/

namespace Sys2Proof.Machine

/-! ## Admissions that succeed (R242, R251) -/

section
variable {s : State} {n : Nat}

theorem State.mend_empty (h : s.mem.mends = []) (c : Nat) : s.mend c = .empty := by
  rw [State.mend, h]
  rfl

/-- A member of a Mend group of which nothing is stale has no rows to rebuild. -/
theorem State.restoreStale_none (h : s.mem.mends = []) : s.restoreStale n false = s := by
  have hstale (m : Nat) : s.isStale n m = false := by
    rw [State.isStale, State.mend_empty h]
    rfl
  have hwholly : (s.mend (n % 32)).wholly.contains (n / 32) = false := by
    rw [State.mend_empty h]
    rfl
  simp only [State.restoreStale, hstale, hwholly, Bool.or_self, Bool.and_false, Bool.false_and, List.filter_false, List.isEmpty_nil,
    Bool.not_true, State.when_false, List.foldl_nil]

/-- No Mend unit is listed where one takes its empty value. -/
theorem State.setMend_empty (h : s.mem.mends = []) (c : Nat) : s.setMend c .empty = s := by
  rw [State.setMend, h]
  show { s with mem := { s.mem with mends := [] } } = s
  rw [← h]

theorem State.restoreLost_none (h : s.mem.mends = []) : s.restoreLost n = s := by
  have hlost : Mend.empty.lost = [] := rfl
  have hwholly : Mend.empty.wholly = [] := rfl
  have hmaps : Mend.empty.maps = [] := rfl
  simp only [State.restoreLost, State.mend_empty h, hlost, hwholly, hmaps, List.contains_nil, Bool.false_and, Bool.false_eq_true, if_false,
    State.when_false, List.filter_nil, List.map_nil, List.flatMap_nil, List.append_nil, List.dedup_nil, List.foldl_nil]
  exact State.setMend_empty h _

theorem State.mendFree_none (h : s.mem.mends = []) : s.mendFree n = s := by
  rw [State.mendFree, State.mend_empty h]
  exact State.setMend_empty h _

theorem State.drainStore_none (h : (s.slice n).store = []) : s.drainStore n = s.setSlice n { s.slice n with store := [] } := by
  simp only [State.drainStore, h, List.foldl_nil]
  rfl

/-- Rows stay as they are where the block repairs none. -/
theorem State.repairRows_off (h : s.flag F.IN_CTL_AUTO_REPAIR 0 = false) (all : Bool) (spared : List Nat) : s.repairRows n all spared = s := by
  simp only [State.repairRows, h, Bool.not_false, if_true]

/-- A channel back in service, its reset over. -/
def State.backInService (s : State) (n : Nat) : State :=
  ((s.setChan n { s.chan n with resetAt := none, stoppedTicks := 0, cause := none, admitBy := none, selfRefresh := false }).put
    F.CE_STATE_STATE n 0).put F.CE_STATE_REBUILDING n 0

/-- R231, R242: the sector that caused a reset is poisoned, and only queued write-backs of it are void. -/
structure State.Poisoned (s t : State) (l : Loc) : Prop where
  rest : t = { s with mem := { s.mem with dram := t.mem.dram, chk := t.mem.chk, chans := t.mem.chans } }
  retry : ∀ m, (t.chan m).retry = (s.chan m).retry
  data : t.rawSector l = allOnes
  checks : t.rawChecks l = List.replicate 8 0xFF#8
  others : ∀ x : Loc, x.index ≠ l.index → t.rawSector x = s.rawSector x ∧ t.rawChecks x = s.rawChecks x

section
variable {s t : State} {l : Loc} (h : s.Poisoned t l)
include h

theorem State.Poisoned.mends : t.mem.mends = s.mem.mends := by rw [h.rest]
theorem State.Poisoned.slice (n : Nat) : t.slice n = s.slice n := by
  rw [State.slice, State.slice, h.rest]

end

theorem State.writeRaw_rest (s : State) (l : Loc) (d : SectorBits) (cs : List Byte) : s.writeRaw l d cs =
    { s with mem := { s.mem with dram := (s.writeRaw l d cs).mem.dram, chk := (s.writeRaw l d cs).mem.chk } } := rfl

@[simp] theorem State.chan_writeRaw (s : State) (l : Loc) (d : SectorBits) (cs : List Byte) (m : Nat) : (s.writeRaw l d cs).chan m = s.chan m := rfl

theorem State.writePoison_poisons (s : State) (l : Loc) : s.Poisoned (s.writePoison l) l := by
  have hvoid : s.voidBack l = { s with mem := { s.mem with chans := (s.voidBack l).mem.chans } } ∧
      ∀ m, ((s.voidBack l).chan m).retry = (s.chan m).retry := by
    unfold State.voidBack
    split
    · exact ⟨rfl, State.retry_setChan rfl⟩
    · exact ⟨rfl, fun _ => rfl⟩
  rw [State.writePoison, State.writeNew]
  generalize s.voidBack l = u at hvoid
  obtain ⟨hrest, hretry⟩ := hvoid
  have hsector (x : Loc) : u.rawSector x = s.rawSector x := by
    rw [hrest]
    rfl
  have hchecks (x : Loc) : u.rawChecks x = s.rawChecks x := by
    rw [hrest]
    rfl
  refine ⟨?_, fun m => by rw [State.chan_writeRaw, hretry], State.rawSector_writeRaw_same _ _ _ _, State.rawChecks_writeRaw_same _ _ _ _ rfl, fun x hx => ⟨?_, ?_⟩⟩
  · rw [State.writeRaw_rest, hrest]
  · rw [State.rawSector_writeRaw_other _ _ _ _ _ hx, hsector]
  · rw [State.rawChecks_writeRaw_other _ _ _ _ _ rfl hx, hchecks]

/-- The admission of a channel that the block had reset itself: the sector at fault is poisoned, and the channel serves. -/
theorem State.admitOk_own {k : Nat} (hw : (s.chan n).admitBy = none) (hcause : (s.chan n).cause = some k)
    (hmended : s.locMended ⟨n, k⟩ = false) (hmends : s.mem.mends = []) (hstore : (s.slice n).store = [])
    (hrepair : s.flag F.IN_CTL_AUTO_REPAIR 0 = false) (spared : List Nat) : s.admitOk n spared =
      (((((s.writePoison ⟨n, k⟩).setSlice n { s.slice n with store := [] }).backInService n).log .admitOk { chan := some n })).moveOn n := by
  have hpoison : s.restoreCause n = s.writePoison ⟨n, k⟩ := by
    simp only [State.restoreCause, hcause, hmended, Bool.false_eq_true, if_false]
  have hpoisoned := s.writePoison_poisons ⟨n, k⟩
  have hmends' : (s.writePoison ⟨n, k⟩).mem.mends = [] := hpoisoned.mends.trans hmends
  have hslice : (s.writePoison ⟨n, k⟩).slice n = s.slice n := hpoisoned.slice n
  simp only [State.admitOk, hw, Option.isSome_none, Option.map_none, State.repairRows_off hrepair, Bool.false_eq_true, if_false, hpoison,
    State.restoreStale_none hmends', State.restoreLost_none hmends', State.mendFree_none hmends', State.drainStore_none (by rw [hslice]; exact hstore),
    hslice, State.when_false, State.admitDone, State.backInService]

theorem exec_admission_serves {k : Nat} {o : AdmitOutcome} (h : s.inAdmission n = true) (ht : o.trained = true) (hs : o.selfTest = true)
    (hw : (s.chan n).admitBy = none) (hcause : (s.chan n).cause = some k) (hmended : s.locMended ⟨n, k⟩ = false) (hmends : s.mem.mends = []) :
    exec (.admission n o) s = .next (s.admitOk n o.spared) := by
  have hstale : s.hasStale n = false := by
    rw [State.hasStale, State.mend_empty hmends]
    rfl
  have hpeers : s.peersOut n = false := by
    simp only [State.peersOut, hw, hstale, hcause, hmended]
    rfl
  show execAdmission n o s = _
  simp only [execAdmission, h, ht, hs, hpeers, Bool.not_true, Bool.or_self, Bool.false_eq_true, if_false]

/-- R242: the channel serves again, and its registers say so. -/
theorem State.backInService_serves (s : State) (n : Nat) : (s.backInService n).chanState n = 0 ∧
    (s.backInService n).chan n = { s.chan n with resetAt := none, stoppedTicks := 0, cause := none, admitBy := none, selfRefresh := false } ∧
    (∀ m, m ≠ n → (s.backInService n).chanState m = s.chanState m) ∧ (∀ m, ((s.backInService n).chan m).retry = (s.chan m).retry) ∧
    s.backInService n = { s with regs := (s.backInService n).regs, mem := { s.mem with chans := (s.backInService n).mem.chans } } := by
  have hsame := s.chan_setChan_same n { s.chan n with resetAt := none, stoppedTicks := 0, cause := none, admitBy := none, selfRefresh := false }
  have hretry : ∀ m, ((s.setChan n { s.chan n with
      resetAt := none, stoppedTicks := 0, cause := none, admitBy := none, selfRefresh := false }).chan m).retry = (s.chan m).retry :=
    State.retry_setChan rfl
  rw [State.backInService]
  have hset : s.setChan n { s.chan n with resetAt := none, stoppedTicks := 0, cause := none, admitBy := none, selfRefresh := false } =
      { s with mem := { s.mem with chans := (s.setChan n { s.chan n with
        resetAt := none, stoppedTicks := 0, cause := none, admitBy := none, selfRefresh := false }).mem.chans } } := rfl
  generalize s.setChan n { s.chan n with resetAt := none, stoppedTicks := 0, cause := none, admitBy := none, selfRefresh := false } = u
    at hsame hretry hset
  have hput : u.Wrote ((u.put F.CE_STATE_STATE n 0).put F.CE_STATE_REBUILDING n 0) (fun o => o = Reg.offset .CE_STATE n) :=
    ((State.Wrote.refl u fun o => o = Reg.offset .CE_STATE n).put _ _ _ rfl).put _ _ _ rfl
  have hregs : u.regs = s.regs := by rw [hset]
  have hzero : ((u.put F.CE_STATE_STATE n 0).put F.CE_STATE_REBUILDING n 0).chanState n = 0 :=
    (fld_put_field _ F.CE_STATE_REBUILDING F.CE_STATE_STATE _ _ rfl (by decide)).trans (fld_put_same _ _ _ _ (by decide))
  generalize (u.put F.CE_STATE_STATE n 0).put F.CE_STATE_REBUILDING n 0 = t at hput hzero
  have hchan (m : Nat) : t.chan m = u.chan m := by rw [State.chan, hput.mem]; rfl
  refine ⟨hzero, (hchan n).trans hsame, fun m hm => ?_, fun m => by rw [hchan, hretry], ?_⟩
  · refine (hput.regs.fld_eq (f := F.CE_STATE_STATE) ?_).trans (State.fld_congr hregs _ _)
    simp only [F.CE_STATE_STATE, Reg.offset, Reg.base, Reg.stride]
    omega
  · rw [hput.rest, hset]

/-- Nothing moves on in a channel whose slice holds nothing back, where no request waits. -/
theorem State.moveOn_idle (hl : (s.slice n).late = []) (hq : s.noRequests) : s.moveOn n = s := by
  rw [State.moveOn, State.settleLate, hl]
  exact State.settle_noRequests hq

/-- R242, R231: an admission that succeeds returns the channel to service, the sector at fault poisoned. -/
theorem exec_admission_returns {k : Nat} {o : AdmitOutcome} (h : s.inAdmission n = true) (ht : o.trained = true) (hs : o.selfTest = true)
    (hlate : (s.slice n).late = []) (hmends : s.mem.mends = []) (hcause : (s.chan n).cause = some k) (hk : k < 2 ^ 26)
    (hw : (s.chan n).admitBy = none) (hmended : s.locMended ⟨n, k⟩ = false) (hq : s.noRequests) (hstore : (s.slice n).store = [])
    (hrepair : s.flag F.IN_CTL_AUTO_REPAIR 0 = false) :
    ∃ t, exec (.admission n o) s = .next t ∧ t.chanState n = 0 ∧ (t.chan n).selfRefresh = false ∧ (t.chan n).cause = none ∧
      (t.chan n).resetAt = none ∧ (∀ m < 256, m ≠ n → t.chanState m = s.chanState m) ∧
      t.rawSector ⟨n, k⟩ = allOnes ∧ t.rawChecks ⟨n, k⟩ = List.replicate 8 0xFF#8 ∧
      (∀ l : Loc, l.n < 256 → l.k < 2 ^ 26 → l ≠ ⟨n, k⟩ → t.rawSector l = s.rawSector l ∧ t.rawChecks l = s.rawChecks l) ∧
      t.anv = s.anv ∧ t.draws = s.draws := by
  refine ⟨_, exec_admission_serves h ht hs hw hcause hmended hmends, ?_⟩
  rw [State.admitOk_own hw hcause hmended hmends hstore hrepair]
  have hpoison := s.writePoison_poisons ⟨n, k⟩
  generalize s.writePoison ⟨n, k⟩ = a at hpoison
  have hlate' : ((a.setSlice n { s.slice n with store := [] }).slice n).late = [] :=
    (congrArg Slice.late (Tab.get_set_same (fun _ => Slice.empty) a.mem.slices n { s.slice n with store := [] })).trans hlate
  have hset : a.setSlice n { s.slice n with store := [] } = { a with mem := { a.mem with slices :=
    (a.setSlice n { s.slice n with store := [] }).mem.slices } } := rfl
  generalize a.setSlice n { s.slice n with store := [] } = b at hlate' hset
  obtain ⟨hstate, hchan, hothers, hretry, hrest⟩ := b.backInService_serves n
  generalize b.backInService n = e at hstate hchan hothers hretry hrest
  have hlog := State.log_wrote (c := .admitOk) (by decide) e { chan := some n }
  have hlogState := State.log_chanState (c := .admitOk) (by decide) e { chan := some n }
  generalize e.log .admitOk { chan := some n } = t at hlog hlogState
  have htchan (m : Nat) : t.chan m = e.chan m := by rw [State.chan, hlog.mem]; rfl
  have hbchan (m : Nat) : b.chan m = a.chan m := by rw [State.chan, hset]; rfl
  have htslice : t.slice n = b.slice n := by rw [State.slice, hlog.mem, hrest]; rfl
  have hq' : t.noRequests := by
    refine ⟨?_, fun m => ?_⟩
    · rw [hlog.ports, hrest, hset, hpoison.rest]
      exact hq.1
    · rw [htchan, hretry, hbchan, hpoison.retry, hq.2]
  rw [State.moveOn_idle (by rw [htslice]; exact hlate') hq']
  have hraw (l : Loc) : t.rawSector l = a.rawSector l ∧ t.rawChecks l = a.rawChecks l := by
    constructor
    · rw [State.rawSector, hlog.mem, hrest, hset]
      rfl
    · rw [State.rawChecks, hlog.mem, hrest, hset]
      rfl
  have hregs (m : Nat) : b.chanState m = s.chanState m := State.fld_congr (by rw [hset, hpoison.rest]) _ _
  refine ⟨(hlogState n).trans hstate, ?_, ?_, ?_, fun m _ hm => ?_, ?_, ?_, fun l _ hl hne => ?_, ?_, ?_⟩
  · rw [htchan, hchan]
  · rw [htchan, hchan]
  · rw [htchan, hchan]
  · rw [hlogState, hothers m hm, hregs]
  · rw [(hraw _).1, hpoison.data]
  · rw [(hraw _).2, hpoison.checks]
  · have hx := hpoison.others l fun e => hne (Loc.index_injective hl hk e)
    exact ⟨(hraw l).1.trans hx.1, (hraw l).2.trans hx.2⟩
  · rw [hlog.anv, hrest, hset, hpoison.rest]
  · rw [hlog.draws, hrest, hset, hpoison.rest]

end

end Sys2Proof.Machine
end

section
/-!
PROOF of O31: channels are retired, admitted, reset and returned.
-/

namespace Sys2Proof.Machine

theorem Cmd.arg_lt (c : Cmd) (i lo n : Nat) : c.arg i lo n < 2 ^ n := Nat.mod_lt _ (Nat.two_pow_pos n)

theorem Cmd.channel_lt (c : Cmd) : 32 * c.arg 1 0 3 + c.arg 1 3 5 < 256 := by
  have h : c.arg 1 0 3 < 2 ^ 3 := Cmd.arg_lt _ _ _ _
  have h' : c.arg 1 3 5 < 2 ^ 5 := Cmd.arg_lt _ _ _ _
  omega

theorem retireSet_one {c : Cmd} (h : c.argBit 1 8 = false) : retireSet c = [32 * c.arg 1 0 3 + c.arg 1 3 5] := by
  simp only [retireSet, h, Bool.false_eq_true, if_false]

theorem retireSet_site {c : Cmd} (h : c.argBit 1 8 = true) : retireSet c = (List.range 32).map (32 * c.arg 1 0 3 + ·) := by
  simp only [retireSet, h, if_true]

/-- The Bureau lists the channel as retired. -/
theorem State.RetiredBy.listed {s t : State} {n : Nat} {auto : Bool} (h : s.RetiredBy t n auto) (hn : n < 256) :
    t.life.bureau.retired.getLsbD n = true := by
  have hbit : (1#256 <<< n).getLsbD n = true := by simp [hn]
  rw [h.bureau, BitVec.getLsbD_or, hbit, Bool.or_true]

section
variable {d pos n : Nat} {c : Cmd} {s : State}

/-- R128, R250: one channel is retired. -/
theorem exec_channelRetire_one (h : s.fresh d pos .channelRetire c) (hn : n = 32 * c.arg 1 0 3 + c.arg 1 3 5) (hone : c.argBit 1 8 = false)
    (h0 : s.chanState n = 0) (hg : s.groupRetired n = false) (hq : s.noRequests) :
    ∃ t b, exec (.channelRetire d pos) s = .next t ∧ s.RetiredBy { t with draws := (s.retire n false).draws } n false ∧
      t.cmd d pos = some ({ c with lostRing := b }.ended .ok (s.losing n).dedup.length 0) := by
  have hlt : n < 256 := hn ▸ c.channel_lt
  have hset : retireSet c = [n] := by rw [retireSet_one hone, hn]
  have hby := State.retire_retired false hlt (by omega) (by omega) hq
  have hall : s.retireAll c = s.retire n false := by
    simp only [State.retireAll, hset, List.filter_cons, List.filter_nil, h0]
    rfl
  have hlost : ((retireSet c).filter fun n => s.chanState n != 3).flatMap s.losing = s.losing n := by
    simp [hset, h0]
  have hexec := exec_channelRetire h (by simp [hset, hone, h0])
    (fun m hm => by rw [hset, List.mem_singleton] at hm; exact .inr (hm ▸ hg))
    (fun m hm => by rw [hset, List.mem_singleton] at hm; rw [hm, h0]; decide)
  rw [hlost, hall] at hexec
  obtain ⟨b, hb⟩ := State.cmd_retired (s := s) h.1 hby.cmds (s.losing n).dedup.length
  exact ⟨_, b, hexec, hby, hb⟩

/-- R128, R250: a whole site is retired. -/
theorem exec_channelRetire_site {ns : List Nat} (h : s.fresh d pos .channelRetire c) (hsite : c.argBit 1 8 = true) (h5 : c.arg 1 3 5 = 0)
    (hns : ns = (List.range 32).map (32 * c.arg 1 0 3 + ·))
    (hstate : ∀ n ∈ ns, (s.chanState n = 0 ∧ s.groupRetired n = false) ∨ s.chanState n = 3) (hq : s.noRequests) :
    ∃ t, exec (.channelRetire d pos) s = .next t ∧
      (∃ b, t.cmd d pos = some ({ c with lostRing := b }.ended .ok
        ((ns.filter fun n => s.chanState n != 3).flatMap s.losing).dedup.length 0)) ∧ (∀ n ∈ ns, t.chanState n = 3) ∧
      (∀ m < 256, m ∉ ns → t.chanState m = s.chanState m) ∧ t.mem.dram = s.mem.dram ∧ t.mem.chk = s.mem.chk ∧ t.anv = s.anv := by
  have hset : retireSet c = ns := by rw [retireSet_site hsite, hns]
  have hlt : ∀ n ∈ ns, n < 256 := fun n hn => by
    have h3 : c.arg 1 0 3 < 2 ^ 3 := Cmd.arg_lt _ _ _ _
    rw [hns] at hn
    obtain ⟨k, hk, rfl⟩ := List.mem_map.mp hn
    have := List.mem_range.mp hk
    omega
  have hfirst : 32 * c.arg 1 0 3 ∈ ns := hns ▸ List.mem_map.mpr ⟨0, by decide, rfl⟩
  have hnodup : (ns.filter fun n => s.chanState n != 3).Nodup :=
    (hns ▸ List.Nodup.map (fun _ _ h => Nat.add_left_cancel h) List.nodup_range).filter _
  have hexec := exec_channelRetire h
    (by
      have : ns.all (fun n => s.chanState n == 4) = false := List.all_eq_false.mpr ⟨_, hfirst, by
        rcases hstate _ hfirst with ⟨h, -⟩ | h <;> simp [h]⟩
      simp [hset, h5, this])
    (fun m hm => (hstate m (hset ▸ hm)).elim (fun h => .inr h.2) .inl)
    (fun m hm => by rcases hstate m (hset ▸ hm) with ⟨h, -⟩ | h <;> rw [h] <;> decide)
  rw [hset] at hexec
  have hin : ∀ m ∈ ns.filter fun n => s.chanState n != 3, m < 256 ∧ s.chanState m ≠ 3 ∧ s.chanState m ≠ 4 := fun m hm => by
    obtain ⟨hm, h3⟩ := List.mem_filter.mp hm
    have h0 := (hstate m hm).resolve_right (by simpa using h3)
    exact ⟨hlt m hm, by omega, by omega⟩
  obtain ⟨hgone, hothers, -, ⟨hdram, hchk⟩, hanv, hcmds⟩ := State.goOut_fold RetireStands.refl RetireStands.trans
    (fun u n => State.retire_goesOut u n false) _ hnodup s hin hq
  have hall : s.retireAll c = (ns.filter fun n => s.chanState n != 3).foldl (fun s n => s.retire n false) s := by rw [State.retireAll, hset]
  rw [← hall] at hgone hothers hdram hchk hanv hcmds
  refine ⟨_, hexec, State.cmd_retired h.1 hcmds _, fun n hn => ?_, fun m hm hmn => ?_, hdram, hchk, hanv⟩
  · by_cases h3 : s.chanState n = 3
    · exact (hothers n (hlt n hn) (by simp [h3])).trans h3
    · exact hgone n (List.mem_filter.mpr ⟨hn, by simpa using h3⟩)
  · exact hothers m hm fun hin => hmn (List.mem_filter.mp hin).1

/-- R251: an admission begins. -/
theorem exec_channelAdmit_begins (h : s.fresh d pos .channelAdmit c) (hn : n = 32 * c.arg 1 0 3 + c.arg 1 3 5) (h3 : s.chanState n = 3) :
    ∃ t, exec (.channelAdmit d pos) s = .next t ∧ OnlyCmd s t d pos { c with phase := .running } ∧
      t.reg .CE_STATE n = Fld.into F.CE_STATE_STATE (s.reg .CE_STATE n) 2 ∧ RegsBut s t (fun o => o = Reg.offset .CE_STATE n) ∧
      t.chan n = { s.chan n with resetAt := some s.tick, stoppedTicks := 0, cause := none, admitBy := some (d, pos) } ∧
      t.mem.dram = s.mem.dram ∧ t.mem.slices = s.mem.slices ∧ t.ports = s.ports ∧ t.anv = s.anv := by
  have hexec : exec (.channelAdmit d pos) s = .next (((s.running d c).put F.CE_STATE_STATE n 2).setChan n
      { s.chan n with resetAt := some s.tick, stoppedTicks := 0, cause := none, admitBy := some (d, pos) }) := by
    show execChannelAdmit d pos s = _
    rw [execChannelAdmit, h.runCmd _ (pureCheck_passes (by simp [← hn, h3])), hn]
    rfl
  have hput : s.Wrote (s.put F.CE_STATE_STATE n 2) (fun o => o = Reg.offset .CE_STATE n) :=
    (State.Wrote.refl s fun o => o = Reg.offset .CE_STATE n).put _ _ _ rfl
  have hreg : (s.put F.CE_STATE_STATE n 2).reg .CE_STATE n = Fld.into F.CE_STATE_STATE (s.reg .CE_STATE n) 2 := reg_put_same _ _ _ _
  rw [hexec, show ((s.running d c).put F.CE_STATE_STATE n 2) = (s.put F.CE_STATE_STATE n 2).running d c from rfl]
  generalize s.put F.CE_STATE_STATE n 2 = u at hput hreg
  refine ⟨_, rfl, ?_, hreg, .congr rfl hput.regs, State.chan_setChan_same _ _ _, (congrArg Mem.dram hput.mem :),
    (congrArg Mem.slices hput.mem :), hput.ports, hput.anv⟩
  have honly := State.onlyCmd_setCmd (x := { c with phase := .running }) (congrArg Draws.drawer hput.draws) h.1
    (show c.pos = pos from State.cmd_pos h.1)
  exact honly

theorem channelRetire_notPermitted (h : s.fresh d pos .channelRetire c) (hn : n = 32 * c.arg 1 0 3 + c.arg 1 3 5)
    (hone : c.argBit 1 8 = false) (hforce : c.argBit 1 9 = false) (h3 : s.chanState n < 3) (hg : s.groupRetired n = true) :
    ∃ t, exec (.channelRetire d pos) s = .next t ∧ OnlyCmd s t d pos (c.ended .notPermitted 0 0) ∧ DrawersOnly s t := by
  have hset : retireSet c = [n] := by rw [retireSet_one hone, hn]
  have h4 : (s.chanState n == 4) = false := beq_false_of_ne (by omega)
  have hne : (s.chanState n != 3) = true := bne_iff_ne.mpr (by omega)
  refine h.refused rfl ?_
  simp only [hset, hone, hforce, List.all_cons, List.all_nil, List.any_cons, List.any_nil, h4, hne, hg, Bool.false_and, Bool.and_true,
    Bool.or_false, Bool.not_false]
  rfl

theorem channelRetire_badArg (h : s.fresh d pos .channelRetire c) (hone : c.argBit 1 8 = false)
    (h4 : s.chanState (32 * c.arg 1 0 3 + c.arg 1 3 5) = 4) :
    ∃ t, exec (.channelRetire d pos) s = .next t ∧ OnlyCmd s t d pos (c.ended .badArg 0 0) ∧ DrawersOnly s t := by
  refine h.refused rfl ?_
  simp only [retireSet_one hone, hone, List.all_cons, List.all_nil, h4, Bool.false_and, Bool.false_or]
  rfl

theorem channelAdmit_badArg (h : s.fresh d pos .channelAdmit c) (h3 : s.chanState (32 * c.arg 1 0 3 + c.arg 1 3 5) ≠ 3) :
    ∃ t, exec (.channelAdmit d pos) s = .next t ∧ OnlyCmd s t d pos (c.ended .badArg 0 0) ∧ DrawersOnly s t := by
  refine h.refused rfl ?_
  simp only [bne_iff_ne.mpr h3]
  rfl

/-- R239, R240: an error from outside the data resets a channel in service. -/
theorem exec_outside_resets {i : Instr} (hi : i = .caPar n ∨ i = .phy n) (hn : n < 256) (h0 : s.chanState n = 0) :
    ∃ t, exec i s = .next t ∧ t.chanState n = 1 ∧
      t.fld F.CE_STATE_RESETS n = Nat.min (s.fld F.CE_STATE_RESETS n + 1) (2 ^ F.CE_STATE_RESETS.w - 1) ∧
      t.fld F.CE_PL_STAT_BG_MODE n = 0 ∧ t.fld F.IN_STAT_UE 0 = 1 ∧ (t.chan n).selfRefresh = true ∧
      (t.chan n).resetAt = some s.tick ∧ (t.chan n).cause = none ∧ (∀ m, m ≠ n → t.chan m = s.chan m) ∧
      (∀ m < 256, m ≠ n → t.chanState m = s.chanState m) ∧ t.mem.dram = s.mem.dram ∧ t.mem.chk = s.mem.chk ∧
      t.mem.slices = s.mem.slices ∧ t.draws = s.draws ∧ t.anv = s.anv ∧ t.ports = s.ports := by
  obtain ⟨k, hk, hexec⟩ := exec_outside s hi
  obtain ⟨hfree, hstat⟩ := LogClass.limited_outside hk
  have hreset := State.chanError_resets hk hn h0
  have hlog := State.log_wrote hfree s { chan := some n }
  have hsets := State.log_sets s hfree hstat { chan := some n }
  have hstate := State.log_chanState hfree s { chan := some n }
  generalize s.log k { chan := some n } = u at hreset hlog hsets hstate
  generalize s.chanError n k = t at hreset hexec
  have hresets : u.fld F.CE_STATE_RESETS n = s.fld F.CE_STATE_RESETS n := hlog.regs.fld_eq (not_logRegs
    (by simp only [F.CE_STATE_RESETS, Reg.offset, Reg.base, Reg.stride]; omega)
    (.inr (.inl (by simp only [F.CE_STATE_RESETS, Reg.offset, Reg.base, Reg.stride]; omega))))
  have hchan (m : Nat) : u.chan m = s.chan m := by rw [State.chan, hlog.mem]; rfl
  have htick : u.tick = s.tick := by rw [hlog.rest]
  refine ⟨t, hexec, hreset.state, ?_, hreset.modes, hreset.stays _ (by decide) hsets, ?_, ?_, ?_, fun m hm => ?_, fun m hm hmn => ?_,
    ?_, ?_, ?_, ?_, ?_, ?_⟩
  · rw [hreset.resets, hresets]
  · rw [hreset.chan]
    rfl
  · rw [hreset.chan, htick]
    rfl
  · rw [hreset.chan]
    rfl
  · rw [hreset.others m hm, hchan]
  · refine (hreset.regs.fld_eq (f := F.CE_STATE_STATE) ?_).trans (hstate m)
    rintro ((e | e) | (e | e | ⟨g, hg, e⟩)) <;> simp only [F.CE_STATE_STATE, Reg.offset, Reg.base, Reg.stride] at e <;> omega
  · rw [hreset.rest, hlog.mem]
  · rw [hreset.rest, hlog.mem]
  · rw [hreset.rest, hlog.mem]
  · rw [hreset.rest, hlog.draws]
  · rw [hreset.rest, hlog.anv]
  · rw [hreset.rest, hlog.ports]

/-- An error from outside the data says nothing of a channel that is not in service. -/
theorem exec_outside_stays {i : Instr} (hi : i = .caPar n ∨ i = .phy n) (h0 : s.chanState n ≠ 0) : exec i s = .next s := by
  obtain ⟨k, -, hexec⟩ := exec_outside s hi
  rw [hexec, State.chanError, if_pos (by omega)]

/-- A channel that is overdue is one in reset or admission. -/
theorem State.overdue_recovers (h : s.overdue n = true) : n < 256 ∧ (s.chanState n = 1 ∨ s.chanState n = 2) := by
  obtain ⟨hlt, hstate, -⟩ := State.inAdmission_iff.mp (Bool.and_eq_true_iff.mp h).1
  exact ⟨hlt, hstate⟩

/-- R243: a deadline that one channel alone has reached. -/
theorem exec_admissionDeadline_one {m : Nat} (h : s.overdue n = true) (hm : m / 32 = n / 32) (h0 : s.chanState m = 0) :
    exec (.admissionDeadline n) s = .next (s.admitFail n) := by
  have hlive : ((s.siteLive n).all s.overdue) = false := List.all_eq_false.mpr ⟨m, State.mem_siteLive.mpr ⟨hm, by omega⟩, fun ho => by
    have := (State.overdue_recovers ho).2
    omega⟩
  rw [exec_admissionDeadline h, hlive]
  rfl

/-- R243: an admission of the block's own that fails or lasts a second retires its channel. -/
theorem exec_admission_retires {i : Instr} {u : Nat} {o : AdmitOutcome} (hn : n < 256) (h1 : s.chanState n = 1)
    (hp : s.life.paused = false) (hd : s.drained = false) (hw : (s.chan n).admitBy = none) (hq : s.noRequests)
    (hu : (s.chan n).resetAt = some u) (hsite : ∃ m, m / 32 = n / 32 ∧ s.chanState m = 0)
    (hi : (i = .admission n o ∧ (o.trained = false ∨ o.selfTest = false)) ∨
      (i = .admissionDeadline n ∧ u + (s.chan n).stoppedTicks + 1600000000 ≤ s.tick)) :
    ∃ t, exec i s = .next t ∧ t.chanState n = 3 ∧ t.fld F.CE_STATE_AUTO_RETIRED n = 1 ∧
      t.life.bureau.retired = s.life.bureau.retired ||| 1#256 <<< n ∧ (∀ m < 256, m ≠ n → t.chanState m = s.chanState m) ∧
      t.mem.dram = s.mem.dram ∧ t.mem.chk = s.mem.chk ∧ t.fld F.IN_STAT_RETIRE 0 = 1 := by
  have hin : s.inAdmission n = true := State.inAdmission_iff.mpr ⟨hn, .inl h1, hp, hd⟩
  have hexec : exec i s = .next (s.admitFail n) := by
    rcases hi with ⟨rfl, ho⟩ | ⟨rfl, hlate⟩
    · exact exec_admission_fails hin ho
    · obtain ⟨m, hm, h0⟩ := hsite
      exact exec_admissionDeadline_one ((State.overdue_iff hu).mpr ⟨hin, hlate⟩) hm h0
  obtain ⟨hstate, hothers, -, hdram, hchk⟩ := s.admitFail_goesOut n hn (by omega) (by omega) hq
  obtain ⟨hauto, hbureau, htold⟩ := State.admitFail_retired hn (by omega) (by omega) hq hw
  exact ⟨_, hexec, hstate, hauto, hbureau, hothers, hdram, hchk, htold⟩

/-- R252: a whole site whose channels have all reached the deadline is retired. -/
theorem exec_admissionDeadline_site (ho : s.overdue n = true) (hq : s.noRequests)
    (hsite : ∀ m, m / 32 = n / 32 → s.chanState m = 3 ∨ s.overdue m = true) : ∃ t, exec (.admissionDeadline n) s = .next t ∧
      (∀ m, m / 32 = n / 32 → t.chanState m = 3) ∧ (∀ m < 256, m / 32 ≠ n / 32 → t.chanState m = s.chanState m) ∧
      t.mem.dram = s.mem.dram ∧ t.mem.chk = s.mem.chk := by
  have hlive {m : Nat} (hm : m ∈ s.siteLive n) : s.overdue m = true := by
    obtain ⟨hm, h3⟩ := State.mem_siteLive.mp hm
    exact (hsite m hm).resolve_left h3
  obtain ⟨hgone, hothers, -, hdram, hchk⟩ := State.goOut_fold ArrayStood.refl ArrayStood.trans State.admitFail_goesOut _ (s.siteLive_nodup n) s
    (fun m hm => by
      obtain ⟨hlt, hstate⟩ := State.overdue_recovers (hlive hm)
      exact ⟨hlt, by omega, by omega⟩) hq
  have hlt := (State.overdue_recovers ho).1
  refine ⟨_, (exec_admissionDeadline ho).trans (by rw [if_pos (List.all_eq_true.mpr fun m hm => hlive hm)]), fun m hm => ?_,
    fun m hm hne => ?_, hdram, hchk⟩
  · by_cases h3 : s.chanState m = 3
    · exact (hothers m (by omega) fun hin => (State.mem_siteLive.mp hin).2 h3).trans h3
    · exact hgone m (State.mem_siteLive.mpr ⟨hm, h3⟩)
  · exact hothers m hm fun hin => hne (State.mem_siteLive.mp hin).1

/-- R243: a deadline that has not come changes nothing. -/
theorem exec_admissionDeadline_early {u : Nat} (hu : (s.chan n).resetAt = some u)
    (h : s.tick < u + (s.chan n).stoppedTicks + 1600000000) : exec (.admissionDeadline n) s = .next s := by
  have ho : s.overdue n = false := Bool.eq_false_iff.mpr fun ho => by
    have := ((State.overdue_iff hu).mp ho).2
    omega
  show execAdmissionDeadline n s = _
  rw [execAdmissionDeadline, ho]
  rfl

end

/-- Settles O31: a retirement, a reset and a failed admission each write the registers and the parts of their own channel, one after the
other over a site; a successful admission poisons the sector at fault and writes the channel's state. -/
theorem channelsRetireAndReturn : Obligations.ChannelsRetireAndReturn := by
  refine ⟨⟨?_, ?_, ?_, ?_, ?_, ?_⟩, ?_, ?_, ?_, ?_, ?_⟩
  · intro d pos n c s h hn hone h0 hg hq
    have hlt : n < 256 := hn ▸ c.channel_lt
    obtain ⟨t, b, hexec, hby, hcmd⟩ := exec_channelRetire_one h hn hone h0 hg hq
    exact ⟨t, hexec, ⟨b, hcmd⟩, hby.state, fun m _ hm => hby.others hlt m hm, hby.shown, hby.lost, fun e he hne => hby.gran he hne,
      hby.listed hlt, hby.array.1, hby.array.2, hby.anv⟩
  · intro d pos ns c s h hsite h5 hns hstate hq
    exact exec_channelRetire_site h hsite h5 hns hstate hq
  · intro d pos n c s h hn hone hforce h3 hg
    exact channelRetire_notPermitted h hn hone hforce h3 hg
  · intro d pos n c s h hn h3
    exact exec_channelAdmit_begins h hn h3
  · intro d pos c s h hone h4
    exact channelRetire_badArg h hone h4
  · intro d pos c s h h3
    exact channelAdmit_badArg h h3
  · intro i n s hi hn
    exact ⟨exec_outside_resets hi hn, exec_outside_stays hi⟩
  · intro n k o s hn h1 hp hd ht hs hlate hmends hcause hk hw hmended _ hq hstore hrepair
    exact exec_admission_returns (State.inAdmission_iff.mpr ⟨hn, .inl h1, hp, hd⟩) ht hs hlate hmends hcause hk hw hmended hq hstore hrepair
  · intro i n u o s hn h1 hp hd hw hq hu hsite hi
    exact exec_admission_retires hn h1 hp hd hw hq hu hsite hi
  · intro n s _ ho hq hsite
    exact exec_admissionDeadline_site ho hq hsite
  · intro n u s _ hu h
    exact exec_admissionDeadline_early hu h

end Sys2Proof.Machine
end

section
/-!
SUPPORT. Steps of the memory that keep what a change of granules rests on (R131, R213): the address map, the channels' states, and
sectors that can be read.
-/

namespace Sys2Proof.Machine

/-! ## Sectors that can be read -/

/-- Is an uncorrectable word in a sector as it stands with its check bytes (R230), where it is not poisoned? -/
def unreadable (d : SectorBits) (cs : List Byte) : Bool :=
  !isPoisoned d cs && (List.range 8).any fun k => verdict (syndrome (sectorWord d k) (cs.getD k 0)) == .uncorrectable

theorem State.ueAt_eq (s : State) (l : Loc) : s.ueAt l = (!s.locPlainClass l && unreadable (s.rawSector l) (s.rawChecks l)) :=
  Bool.and_assoc _ _ _

theorem getD_sectorChecks (d : SectorBits) {k : Nat} (hk : k < 8) : (sectorChecks d).getD k 0 = checkByte (sectorWord d k) := by
  simp [sectorChecks, List.getD, hk]

/-- R229, R230: encoded check bytes give no error. -/
theorem unreadable_encoded (d : SectorBits) : unreadable d (sectorChecks d) = false := by
  refine Bool.and_eq_false_iff.mpr (.inr (List.any_eq_false.mpr fun k hk => ?_))
  rw [getD_sectorChecks d (List.mem_range.mp hk), syndrome, BitVec.xor_self]
  decide

theorem sectorWord_allOnes {k : Nat} (hk : k < 8) : sectorWord allOnes k = BitVec.allOnes 64 := by
  refine BitVec.eq_of_getLsbD_eq fun i hi => ?_
  have hbit : allOnes.toNat.testBit (64 * k + i) = true := by
    rw [← BitVec.getLsbD, allOnes, BitVec.getLsbD_allOnes]
    exact decide_eq_true (by omega)
  rw [sectorWord, BitVec.getLsbD_ofNat, Nat.testBit_shiftRight, hbit, BitVec.getLsbD_allOnes, Bool.and_true]

/-- R231: the poisoned sector reads as poisoned. -/
theorem isPoisoned_poison : isPoisoned allOnes (List.replicate 8 0xFF#8) = true := by
  have hsyn : syndrome (BitVec.allOnes 64) 0xFF#8 = 0xFF#8 := by decide
  have hall : ((List.range 8).filter fun k => sectorWord allOnes k == BitVec.allOnes 64 &&
      syndrome (sectorWord allOnes k) ((List.replicate 8 0xFF#8).getD k 0) == 0xFF#8) = List.range 8 := by
    refine List.filter_eq_self.mpr fun k hk => ?_
    have hk := List.mem_range.mp hk
    have hget : (List.replicate 8 0xFF#8).getD k 0 = 0xFF#8 := by
      rw [List.getD_eq_getElem _ _ (by simpa using hk), List.getElem_replicate]
    rw [sectorWord_allOnes hk, hget, hsyn]
    rfl
  rw [isPoisoned, hall]
  rfl

theorem unreadable_poison : unreadable allOnes (List.replicate 8 0xFF#8) = false := by
  rw [unreadable, isPoisoned_poison]
  rfl

/-! ## The frame -/

/-- The offsets of the counters and of the log, which memory writes on its way. -/
def MemRegs (o : Nat) : Prop :=
  LogRegs o ∨ o = Reg.offset .AV_SPILL_OPS 0 ∨ o = Reg.offset .IN_INTCNT 0 ∨ ∃ n, o = Reg.offset .CE_CORR n

/-- From `s` to `t` memory has moved, no request with it; a sector that could be read still can. -/
structure State.Quiet (s t : State) : Prop where
  draws : t.draws = s.draws
  waits : t.ports.waits = s.ports.waits
  chans : ∀ n, (t.chan n).retry = (s.chan n).retry ∧ (t.chan n).selfRefresh = (s.chan n).selfRefresh
  regs : RegsBut s t MemRegs
  ground : t.mem.ground = s.mem.ground
  upsets : t.mem.upsets = s.mem.upsets
  readable : (∀ l, s.ueAt l = false) → ∀ l, t.ueAt l = false

/-- The address map reads as it did, the class of each granule included. -/
structure State.GranKept (s t : State) : Prop where
  config : t.reg .MW_CONFIG 0 = s.reg .MW_CONFIG 0
  gran : ∀ g < 4096, t.reg .RG_GRAN g = s.reg .RG_GRAN g

theorem State.GranKept.locPlainClass {s t : State} (h : s.GranKept t) (l : Loc) : t.locPlainClass l = s.locPlainClass l := by
  have hplain : t.addrPlain l = s.addrPlain l := by rw [State.addrPlain, State.addrPlain, State.tiers_of_config h.config]
  unfold State.locPlainClass
  rw [hplain]
  cases ha : s.addrPlain l with
  | none => rfl
  | some a =>
    have hlt := (State.addrPlain_lt ha).2
    have hg : a / gib < 4096 := by
      unfold gib
      omega
    have hfld : t.fld F.RG_GRAN_CLASS (a / gib) = s.fld F.RG_GRAN_CLASS (a / gib) := congrArg (Fld.of F.RG_GRAN_CLASS) (h.gran _ hg)
    show t.isPlain a = s.isPlain a
    rw [State.isPlain, State.isPlain, State.granClass, State.granClass, hfld]

theorem not_memRegs {r : Reg} {i : Nat} (h : r = .RG_GRAN ∧ i < 4096 ∨ r = .MW_CONFIG ∧ i = 0 ∨ r = .CE_STATE ∨ r = .CE_PL_STAT) :
    ¬MemRegs (r.offset i) := by
  rintro ((e | e | e | e | ⟨j, hj, e⟩) | e | e | ⟨n, e⟩) <;> rcases h with ⟨rfl, hi⟩ | ⟨rfl, rfl⟩ | rfl | rfl <;>
    simp only [Reg.offset, Reg.base, Reg.stride] at e <;> omega

theorem RegsBut.granKept {s t : State} (h : RegsBut s t MemRegs) : s.GranKept t :=
  ⟨h.reg_eq (not_memRegs (.inr (.inl ⟨rfl, rfl⟩))), fun _ hg => h.reg_eq (not_memRegs (.inl ⟨rfl, hg⟩))⟩

theorem RegsBut.ueAt {s t : State} (h : RegsBut s t MemRegs) {l : Loc} (hd : t.rawSector l = s.rawSector l)
    (hc : t.rawChecks l = s.rawChecks l) : t.ueAt l = s.ueAt l := by
  rw [State.ueAt_eq, State.ueAt_eq, h.granKept.locPlainClass, hd, hc]

/-- The readable sectors stay so where the array has stood. -/
theorem RegsBut.readable {s t : State} (h : RegsBut s t MemRegs) (hd : t.mem.dram = s.mem.dram) (hc : t.mem.chk = s.mem.chk)
    (hg : t.mem.ground = s.mem.ground) (hs : ∀ l, s.ueAt l = false) (l : Loc) : t.ueAt l = false := by
  have hblank : t.mem.blank = s.mem.blank := funext fun i => funext fun j => by rw [Mem.blank, Mem.blank, hg]
  have hdata : t.mem.dataBlank = s.mem.dataBlank := funext fun a => by rw [Mem.dataBlank, Mem.dataBlank, hblank]
  have hchk : t.mem.chkBlank = s.mem.chkBlank := funext fun a => by rw [Mem.chkBlank, Mem.chkBlank, hblank]
  rw [h.ueAt (by rw [State.rawSector, State.rawSector, hd, hdata]) (by rw [State.rawChecks, State.rawChecks, hc, hchk]), hs l]

namespace State.Quiet

theorem refl (s : State) : s.Quiet s := ⟨rfl, rfl, fun _ => ⟨rfl, rfl⟩, .refl _ _, rfl, rfl, fun h => h⟩

section
variable {s t u : State} (h : s.Quiet t)
include h

theorem trans (g : t.Quiet u) : s.Quiet u where
  draws := g.draws.trans h.draws
  waits := g.waits.trans h.waits
  chans n := ⟨(g.chans n).1.trans (h.chans n).1, (g.chans n).2.trans (h.chans n).2⟩
  regs := h.regs.trans g.regs
  ground := g.ground.trans h.ground
  upsets := g.upsets.trans h.upsets
  readable hs := g.readable (h.readable hs)

theorem noRequests (hq : s.noRequests) : t.noRequests := ⟨h.waits.trans hq.1, fun n => (h.chans n).1.trans (hq.2 n)⟩

theorem fld {f : Fld} {i : Nat} (hi : f.reg = .RG_GRAN ∧ i < 4096 ∨ f.reg = .MW_CONFIG ∧ i = 0 ∨ f.reg = .CE_STATE ∨ f.reg = .CE_PL_STAT) :
    t.fld f i = s.fld f i := h.regs.fld_eq (not_memRegs hi)

end

theorem fold {α : Type} {s t : State} {f : State → α → State} {l : List α} (h : s.Quiet t)
    (hf : ∀ u : State, s.Quiet u → ∀ x ∈ l, u.Quiet (f u x)) : s.Quiet (l.foldl f t) :=
  List.foldlRecOn (motive := fun u : State => s.Quiet u) l f h fun u hu x hx => hu.trans (hf u hu x hx)

end State.Quiet

/-- Steps that write registers alone. -/
theorem State.Wrote.quiet {s t : State} (h : s.Wrote t MemRegs) : s.Quiet t where
  draws := h.draws
  waits := by rw [h.ports]
  chans n := by
    have : t.chan n = s.chan n := by rw [State.chan, h.mem]; rfl
    rw [this]
    exact ⟨rfl, rfl⟩
  regs := h.regs
  ground := by rw [h.mem]
  upsets := by rw [h.mem]
  readable := h.regs.readable (by rw [h.mem]) (by rw [h.mem]) (by rw [h.mem])

section
variable (s : State)

theorem State.quiet_setSlice (n : Nat) (x : Slice) : s.Quiet (s.setSlice n x) :=
  ⟨rfl, rfl, fun _ => ⟨rfl, rfl⟩, .congr rfl (.refl s _), rfl, rfl, RegsBut.readable (.congr rfl (.refl s _)) rfl rfl rfl⟩

theorem State.quiet_setChan {n : Nat} {v : Chan} (hr : v.retry = (s.chan n).retry) (hf : v.selfRefresh = (s.chan n).selfRefresh) :
    s.Quiet (s.setChan n v) where
  draws := rfl
  waits := rfl
  chans m := by
    by_cases hm : m = n
    · rw [hm, State.chan_setChan_same]
      exact ⟨hr, hf⟩
    · rw [State.chan_setChan_other s v hm]
      exact ⟨rfl, rfl⟩
  regs := .congr rfl (.refl s _)
  ground := rfl
  upsets := rfl
  readable := RegsBut.readable (.congr rfl (.refl s _)) rfl rfl rfl

theorem State.quiet_writeRaw (l : Loc) {d : SectorBits} {cs : List Byte} (hc : cs.length = 8) (hu : unreadable d cs = false) :
    s.Quiet (s.writeRaw l d cs) where
  draws := rfl
  waits := rfl
  chans _ := ⟨rfl, rfl⟩
  regs := .congr rfl (.refl s _)
  ground := rfl
  upsets := rfl
  readable hs x := by
    by_cases hx : x.index = l.index
    · have hd : (s.writeRaw l d cs).rawSector x = d :=
        (show _ = (s.writeRaw l d cs).rawSector l by simp only [State.rawSector, hx]).trans (State.rawSector_writeRaw_same _ _ _ _)
      have hk : (s.writeRaw l d cs).rawChecks x = cs :=
        (show _ = (s.writeRaw l d cs).rawChecks l by simp only [State.rawChecks, hx]).trans (State.rawChecks_writeRaw_same _ _ _ _ hc)
      rw [State.ueAt_eq, hd, hk, hu, Bool.and_false]
    · have hregs : RegsBut s (s.writeRaw l d cs) MemRegs := .congr rfl (.refl s _)
      rw [hregs.ueAt (State.rawSector_writeRaw_other _ _ _ _ _ hx) (State.rawChecks_writeRaw_other _ _ _ _ _ hc hx), hs x]

end

end Sys2Proof.Machine
end

section
/-!
SUPPORT. The operations of the memory that keep what a change of granules rests on (R221, R230 to R232, R261).
-/

namespace Sys2Proof.Machine

/-- Memory has moved quietly, and the slices hold what they held. -/
structure State.Tidied (s t : State) : Prop where
  quiet : s.Quiet t
  slices : t.mem.slices = s.mem.slices

namespace State.Tidied

theorem refl (s : State) : s.Tidied s := ⟨.refl s, rfl⟩

theorem trans {s t u : State} (h : s.Tidied t) (g : t.Tidied u) : s.Tidied u := ⟨h.quiet.trans g.quiet, g.slices.trans h.slices⟩

theorem fold {α : Type} {s t : State} {f : State → α → State} {l : List α} (h : s.Tidied t)
    (hf : ∀ u : State, s.Tidied u → ∀ x ∈ l, u.Tidied (f u x)) : s.Tidied (l.foldl f t) :=
  List.foldlRecOn (motive := fun u : State => s.Tidied u) l f h fun u hu x hx => hu.trans (hf u hu x hx)

/-- Steps that leave registers, memory, Drawers and held requests. -/
theorem of_rest {s t : State} (hr : t.regs = s.regs) (hm : t.mem = s.mem) (hd : t.draws = s.draws)
    (hw : t.ports.waits = s.ports.waits) : s.Tidied t where
  quiet := {
    draws := hd
    waits := hw
    chans := fun n => by
      have : t.chan n = s.chan n := by rw [State.chan, hm]; rfl
      rw [this]
      exact ⟨rfl, rfl⟩
    regs := .congr hr (.refl s _)
    ground := by rw [hm]
    upsets := by rw [hm]
    readable := RegsBut.readable (.congr hr (.refl s _)) (by rw [hm]) (by rw [hm]) (by rw [hm]) }
  slices := by rw [hm]

theorem ite {s t u : State} {p : Prop} [Decidable p] (ht : s.Tidied t) (hu : s.Tidied u) : s.Tidied (if p then t else u) := by
  split
  · exact ht
  · exact hu

theorem when {s t : State} {b : Bool} {f : State → State} (h : t.Tidied (f t)) (g : s.Tidied t) : s.Tidied (t.when b f) := by
  cases b with
  | false => exact g
  | true => exact g.trans h

end State.Tidied

theorem State.Wrote.tidied {s t : State} (h : s.Wrote t MemRegs) : s.Tidied t := ⟨h.quiet, by rw [h.mem]⟩

section
variable (s : State)

theorem State.tidied_setChan {n : Nat} {v : Chan} (hr : v.retry = (s.chan n).retry) (hf : v.selfRefresh = (s.chan n).selfRefresh) :
    s.Tidied (s.setChan n v) := ⟨s.quiet_setChan hr hf, rfl⟩

theorem State.tidied_charge (part cls k : Nat) : s.Tidied (s.charge part cls k) := by
  unfold State.charge
  dsimp only
  split
  · exact .refl s
  · exact .of_rest rfl rfl rfl rfl

theorem State.tidied_chargeBurst (part cls : Nat) : s.Tidied (s.chargeBurst part cls) := by
  have hdrawn : (s.charge part cls 1).Tidied { s.charge part cls 1 with freeCtr := s.freeCtr + 1 } := .of_rest rfl rfl rfl rfl
  exact ((s.tidied_charge _ _ _).trans hdrawn).trans (State.tidied_charge _ _ _ _)

theorem State.tidied_chargeBursts (part cls k : Nat) : s.Tidied (s.chargeBursts part cls k) := by
  have hdrawn : (s.charge part cls k).Tidied { s.charge part cls k with freeCtr := s.freeCtr + 1 } := .of_rest rfl rfl rfl rfl
  unfold State.chargeBursts
  split
  · exact .refl s
  · exact ((s.tidied_charge _ _ _).trans hdrawn).trans (State.tidied_charge _ _ _ _)

theorem State.tidied_spend (part bytes : Nat) : s.Tidied (s.spend part bytes) := by
  unfold State.spend
  split
  · exact .refl s
  · exact .of_rest rfl rfl rfl rfl

theorem State.tidied_inStat {f : Option Fld} (hf : ∀ g, f = some g → g.reg = .IN_STAT) : s.Tidied (s.inStat f) :=
  ((State.inStat_wrote hf).mono fun _ h => .inl h).tidied

theorem State.tidied_logAppend (c : LogClass) (i : Info) (merged : Nat) : s.Tidied (s.logAppend c i merged) :=
  ((s.logAppend_wrote c i merged).mono fun _ h => .inl h).tidied

/-- R260 to R263: an entry in the log, limited or not. -/
theorem State.tidied_log (c : LogClass) (i : Info) : s.Tidied (s.log c i) := by
  have hstat : s.Tidied (s.inStat c.stat) := s.tidied_inStat fun g hg => (LogClass.stat_reg hg).1
  unfold State.log
  dsimp only
  generalize s.inStat c.stat = t at hstat
  have happend (merged n : Nat) : (t.logAppend c i merged).chan n = t.chan n := by
    rw [State.chan, (t.logAppend_wrote c i merged).mem]
    rfl
  have hlimits (merged n : Nat) (v : Chan) (hr : v.retry = (t.chan n).retry) (hf : v.selfRefresh = (t.chan n).selfRefresh) :
      (t.logAppend c i merged).Tidied ((t.logAppend c i merged).setChan n v) :=
    State.tidied_setChan _ (hr.trans (by rw [happend])) (hf.trans (by rw [happend]))
  split
  case h_4 => exact hstat.trans (t.tidied_logAppend _ _ _)
  all_goals
    exact .ite hstat (.ite ((hstat.trans (t.tidied_logAppend _ _ _)).trans (hlimits _ _ _ rfl rfl)) (hstat.trans (t.tidied_setChan rfl rfl)))

theorem State.tidied_writeNew (l : Loc) {d : SectorBits} {cs : List Byte} (hc : cs.length = 8) (hu : unreadable d cs = false) :
    s.Tidied (s.writeNew l d cs) := by
  have hvoid : s.Tidied (s.voidBack l) := by
    unfold State.voidBack
    split
    · exact s.tidied_setChan rfl rfl
    · exact .refl s
  exact hvoid.trans ⟨State.quiet_writeRaw _ l hc hu, rfl⟩

theorem State.tidied_writeEncoded (l : Loc) (d : SectorBits) : s.Tidied (s.writeEncoded l d) :=
  s.tidied_writeNew l (by simp [sectorChecks]) (unreadable_encoded d)

theorem State.tidied_writePoison (l : Loc) : s.Tidied (s.writePoison l) := s.tidied_writeNew l rfl unreadable_poison

theorem State.tidied_queueRow (n row : Nat) : s.Tidied (s.queueRow n row) := by
  unfold State.queueRow
  dsimp only
  split
  · exact .refl s
  · split
    · exact ((State.Wrote.refl s MemRegs).put _ _ _ (.inr (.inr (.inl rfl)))).tidied
    · exact s.tidied_setChan rfl rfl

/-- R232: corrected words are counted, and their write-back is queued. -/
theorem State.tidied_corrected (l : Loc) (d : SectorBits) (k : Nat) (i : Info) : s.Tidied (s.corrected l d k i) := by
  have hcount : s.Tidied (s.count F.CE_CORR_COUNT F.CE_CORR_OVF l.n k) :=
    ((State.Wrote.refl s MemRegs).count _ _ _ _ (.inr (.inr (.inr ⟨_, rfl⟩))) (.inr (.inr (.inr ⟨_, rfl⟩))) (.inl (.inr (.inl rfl)))).tidied
  have hlog := hcount.trans (State.tidied_log _ .ce i)
  unfold State.corrected
  dsimp only
  exact State.Tidied.when (State.tidied_queueRow _ _ _) (hlog.trans (State.tidied_setChan _ rfl rfl))

end

/-! ## Reads and writes of the array where no bit flips -/

section
variable {s : State} (hup : s.mem.upsets = [])
include hup

theorem State.passGap_still (l : Loc) (g : Gap) (d : SectorBits) : s.passGap l g d = (some d, s) := by
  rw [State.passGap, hup]
  rfl

theorem State.deliver_still (l : Loc) (d : SectorBits) (st : Status) (i : Info) : s.deliver l d st i = (⟨mkSec d, st, false⟩, s) := by
  rw [State.deliver, State.passGap_still hup]

/-- R234, R235: a sound sector goes to DRAM with encoded check bytes. -/
theorem State.writeDram_sound {x : Sec} (hg : x.good = true) (hf : x.fault = false) (l : Loc) (part : Option Nat) :
    s.writeDram l x part = s.writeEncoded l x.data := by
  simp only [State.writeDram, hg, Bool.not_true, State.when_false, State.passGap_still hup, hf, Bool.or_self, Bool.false_eq_true, if_false]

/-- R230 to R232: the judgement of a sector that can be read. -/
theorem State.judge_readable {l : Loc} (hue : s.ueAt l = false) (part : Option Nat) (reset : Bool) :
    (s.judge l part reset).1.ue = false ∧ s.Tidied (s.judge l part reset).2 := by
  have hcorrected (d : SectorBits) (k : Nat) (i : Info) : (s.corrected l d k i).mem.upsets = [] :=
    (s.tidied_corrected l d k i).quiet.upsets.trans hup
  rw [State.ueAt_eq, unreadable, ← Bool.and_assoc, Bool.and_eq_false_iff, Bool.and_eq_false_iff, Bool.not_eq_false', Bool.not_eq_false'] at hue
  unfold State.judge
  dsimp only
  split
  · dsimp only
    exact ⟨rfl, s.tidied_log _ _⟩
  · next hpoison =>
    split
    · rw [State.deliver_still hup]
      exact ⟨rfl, .refl s⟩
    · next hplain =>
      have hnone := List.any_eq_false.mp (hue.resolve_left (by simp [hplain, hpoison]))
      split
      · next k hk =>
        refine absurd hk ?_
        rw [List.findIdx?_eq_none_iff.mpr]
        · nofun
        · intro v hv
          obtain ⟨j, hj, rfl⟩ := List.mem_map.mp hv
          exact eq_false_of_ne_true (hnone j hj)
      · split
        · rw [State.deliver_still hup]
          exact ⟨rfl, .refl s⟩
        · rw [State.deliver_still (hcorrected _ _ _)]
          exact ⟨rfl, s.tidied_corrected _ _ _ _⟩

/-- R213: a sector that can be read is laid out anew. -/
theorem State.tidied_relay {l : Loc} (hue : s.ueAt l = false) (d : Nat) : s.Tidied (s.relay d l) := by
  obtain ⟨hjudge, htidied⟩ := State.judge_readable hup hue (some d) true
  unfold State.relay
  dsimp only
  rw [hjudge]
  simp only [Bool.false_eq_true, if_false]
  split
  · exact htidied.trans (State.tidied_writePoison _ _)
  · exact htidied.trans (State.tidied_writeEncoded _ _ _)

end

end Sys2Proof.Machine
end

section
/-!
SUPPORT. Lines of a range that go back to DRAM and are dropped (R131, R221).
-/

namespace Sys2Proof.Machine

/-! ## Write-backs -/

/-- What the slices hold is sound, and none of it waits for DRAM in a store or for want of a way. -/
def State.LinesGood (s : State) : Prop :=
  ∀ n, (s.slice n).store = [] ∧ (s.slice n).late = [] ∧
    ∀ y ∈ (s.slice n).lines, n < 256 ∧ ∀ e ∈ y.heldSecs, e.2.sec.good = true ∧ e.2.sec.fault = false

theorem State.sound.linesGood {s : State} (h : s.sound) : s.LinesGood := fun n => by
  obtain ⟨hfit, hgood, hstore, -⟩ := h
  exact ⟨(hstore n).1, (hstore n).2, fun y hy => ⟨((hfit n).2 y hy).1, hgood n y hy⟩⟩

/-- A clean line holds the sectors it held. -/
theorem Line.mem_heldSecs_clean {y : Line} {e : Nat × Held} (h : e ∈ y.clean.heldSecs) : ∃ e' ∈ y.heldSecs, e.2.sec = e'.2.sec := by
  obtain ⟨a, ha, he⟩ := List.mem_filterMap.mp h
  obtain ⟨b, hb, rfl⟩ := List.mem_map.mp ha
  obtain ⟨k, hk, rfl⟩ := Option.map_eq_some_iff.mp he
  obtain ⟨g, hg, rfl⟩ := Option.map_eq_some_iff.mp hk
  exact ⟨(8 * y.unit + b.1, g), List.mem_filterMap.mpr ⟨b, hb, by rw [hg]; rfl⟩, rfl⟩

/-- Slices whose lines become clean hold what they held. -/
theorem State.LinesGood.setSlice {s : State} (h : s.LinesGood) (n m : Nat) : (s.setSlice n { s.slice n with
    lines := (s.slice n).lines.map fun y => if y.unit / 4 = m then y.clean else y }).LinesGood := fun k => by
  rw [State.slice_setSlice]
  by_cases hk : k = n
  · obtain ⟨hstore, hlate, hlines⟩ := h n
    rw [if_pos hk]
    refine ⟨hstore, hlate, fun y hy => ?_⟩
    obtain ⟨z, hz, rfl⟩ := List.mem_map.mp hy
    obtain ⟨hn, hgood⟩ := hlines z hz
    refine ⟨hk ▸ hn, fun e he => ?_⟩
    split at he
    · obtain ⟨e', he', hsec⟩ := Line.mem_heldSecs_clean he
      rw [hsec]
      exact hgood e' he'
    · exact hgood e he
  · rw [if_neg hk]
    exact h k

theorem State.tidied_spillOps (s : State) (n : Nat) (units : List Nat) : s.Tidied (s.spillOps n units) := by
  refine .fold (.refl s) fun t _ u _ => ?_
  split
  · split
    · have hcount : t.Wrote (t.count F.AV_SPILL_OPS_COUNT F.AV_SPILL_OPS_OVF 0 1) MemRegs :=
        (State.Wrote.refl t MemRegs).count _ _ _ _ (.inr (.inl rfl)) (.inr (.inl rfl)) (.inl (.inr (.inl rfl)))
      exact hcount.tidied.trans (State.tidied_spend _ _ _)
    · exact .refl t
  · exact .refl t

/-- R221: the dirty sectors of a burst go to DRAM, and its lines are clean. -/
theorem State.writeBackBurst_quiet {s : State} (hup : s.mem.upsets = []) (hg : s.LinesGood) (n m part : Nat) :
    s.Quiet (s.writeBackBurst n m part) ∧ (s.writeBackBurst n m part).LinesGood := by
  unfold State.writeBackBurst
  dsimp only
  split
  · exact ⟨.refl s, hg⟩
  · generalize hls : (s.slice n).lines.filter (fun y => y.unit / 4 == m && !y.dirtySecs.isEmpty) = ls
    have hsound : ∀ e ∈ ls.flatMap Line.dirtySecs, e.2.sec.good = true ∧ e.2.sec.fault = false := fun e he => by
      obtain ⟨y, hy, he⟩ := List.mem_flatMap.mp he
      rw [← hls] at hy
      exact ((hg n).2.2 y (List.mem_filter.mp hy).1).2 e (List.mem_filter.mp he).1
    have hwrites : s.Tidied ((ls.flatMap Line.dirtySecs).foldl (fun s e => s.writeDram ⟨n, e.1⟩ e.2.sec none) s) :=
      .fold (.refl s) fun u hu e he => by
        obtain ⟨hgood, hfault⟩ := hsound e he
        rw [State.writeDram_sound (hu.quiet.upsets.trans hup) hgood hfault]
        exact u.tidied_writeEncoded _ _
    generalize (ls.flatMap Line.dirtySecs).foldl (fun s e => s.writeDram ⟨n, e.1⟩ e.2.sec none) s = a at hwrites
    have htidied : s.Tidied (if (s.chanState n == 3) = true then s
        else (a.chargeWrite (s.writeBackPart n (ls.map Line.unit) part)).spillOps n (ls.map Line.unit)) :=
      .ite (.refl s) ((hwrites.trans (a.tidied_chargeBurst _ _)).trans (State.tidied_spillOps _ _ _))
    generalize (if (s.chanState n == 3) = true then s
        else (a.chargeWrite (s.writeBackPart n (ls.map Line.unit) part)).spillOps n (ls.map Line.unit)) = t at htidied
    have hslice (k : Nat) : t.slice k = s.slice k := by rw [State.slice, htidied.slices]; rfl
    have htg : t.LinesGood := fun k => by
      rw [hslice]
      exact hg k
    exact ⟨htidied.quiet.trans (t.quiet_setSlice _ _), htg.setSlice n m⟩

/-- R131: the dirty lines of a range go to DRAM. -/
theorem State.writeBackWhere_quiet {s : State} (hup : s.mem.upsets = []) (hg : s.LinesGood) (p : Nat → Bool) (part : Nat) :
    s.Quiet (s.writeBackWhere p part) ∧ (s.writeBackWhere p part).LinesGood := by
  refine List.foldlRecOn (motive := fun t : State => s.Quiet t ∧ t.LinesGood) _ _ ⟨.refl s, hg⟩ fun t ht n _ => ?_
  refine List.foldlRecOn (motive := fun t : State => s.Quiet t ∧ t.LinesGood) _ _ ht fun u hu m _ => ?_
  obtain ⟨hquiet, hgood⟩ := hu
  obtain ⟨hburst, hgood'⟩ := State.writeBackBurst_quiet (hquiet.upsets.trans hup) hgood n m part
  exact ⟨hquiet.trans hburst, hgood'⟩

/-! ## Nothing waits -/

theorem State.tiers_sites (s : State) : ∀ t ∈ s.tiers, ∀ x ∈ t.sites, x < 8 := by
  refine List.foldlRecOn (motive := fun acc : List Tier × Nat × Nat => ∀ t ∈ acc.1, ∀ x ∈ t.sites, x < 8) _ s.tierStep (by nofun)
    fun acc hacc c _ t ht => ?_
  rcases List.mem_append.mp ht with ht | ht
  · exact hacc t ht
  · rw [List.mem_singleton.mp ht]
    exact fun x hx => List.mem_range.mp (List.mem_filter.mp hx).1

theorem State.Quiet.allServed {s t : State} (h : s.Quiet t) (hs : s.allServed) : t.allServed := fun n hn => by
  obtain ⟨hstate, hfresh, hmodes⟩ := hs n hn
  have hst : t.chanState n = s.chanState n := h.fld (.inr (.inr (.inl rfl)))
  exact ⟨by rw [hst]; exact hstate, (h.chans n).2.trans hfresh, (h.fld (.inr (.inr (.inr rfl)))).trans hmodes⟩

section
variable {s : State} (hs : s.allServed)
include hs

/-- Where every channel takes writes, no burst of a slice is held. -/
theorem State.burstsHeld_none (hg : s.LinesGood) (n : Nat) : s.burstsHeld n = [] := by
  refine List.filter_eq_nil_iff.mpr fun m hm => ?_
  obtain ⟨y, hy, -⟩ := List.mem_map.mp (List.mem_dedup.mp hm)
  obtain ⟨hstate, hfresh, hmodes⟩ := hs n ((hg n).2.2 y (List.mem_filter.mp hy).1).1
  have hrecovering : s.recovering n = false := by
    rcases hstate with h | h <;> simp [State.recovering, h]
  have hgoes (z : Line) : s.lineGoes n z = true := by
    simp only [State.lineGoes, hfresh, State.bankInMode, hmodes]
    simp
  simp [hrecovering, hgoes]

theorem State.dirtyWaits_none (hg : s.LinesGood) (p : Nat → Bool) : s.dirtyWaits p = false := by
  refine List.any_eq_false.mpr fun n _ => ?_
  obtain ⟨hstore, hlate, -⟩ := hg n
  simp [State.burstsHeld_none hs hg, hstore, hlate, Tab.keys]

theorem State.someOut_none : s.someOut = false := by
  refine List.any_eq_false.mpr fun n hn => ?_
  rcases (hs n (List.mem_range.mp hn)).1 with h | h <;> simp [h]

end

theorem State.granRetired_none {s : State} (h : ∀ n < 256, s.chanState n ≠ 3) (g : Nat) : s.granRetired g = false := by
  unfold State.granRetired
  split
  · next t ht =>
    refine List.any_eq_false.mpr fun x hx => ?_
    rw [Bool.not_eq_true]
    refine List.any_eq_false.mpr fun c hc => ?_
    have hx8 : x < 8 := s.tiers_sites t (List.mem_of_find?_eq_some ht) x hx
    have hc32 := List.mem_range.mp hc
    simp [h (32 * x + c) (by omega)]
  · rfl

/-! ## Dropped lines -/

theorem Tab.get_unlisted {α : Type} {d : Nat → α} {t : Tab α} {i : Nat} (h : i ∉ Tab.keys t) : Tab.get d t i = d i := by
  induction t with
  | nil => rfl
  | cons e t ih =>
    rw [Tab.keys, List.map_cons, List.mem_cons, not_or] at h
    exact (if_neg h.1).trans (ih h.2)

theorem Tab.not_mem_keys_restrict {α : Type} {p : Nat → Bool} {i : Nat} (h : p i = false) (t : Tab α) : i ∉ Tab.keys (Tab.restrict p t) :=
  fun hi => by
    obtain ⟨e, he, rfl⟩ := List.mem_map.mp hi
    rw [(List.mem_filter.mp he).2] at h
    cases h

theorem Tab.get_restrict_none {α : Type} {d : Nat → α} {p : Nat → Bool} {i : Nat} (h : p i = false) (t : Tab α) :
    Tab.get d (Tab.restrict p t) i = d i := Tab.get_unlisted (Tab.not_mem_keys_restrict h t)

/-- A slice without the sectors of `gone`. -/
def Slice.without (x : Slice) (gone : Nat → Bool) : Slice :=
  { lines := (x.lines.map fun y => { y with secs := Tab.restrict (fun i => !gone (8 * y.unit + i)) y.secs }).filter
      fun y => !y.secs.isEmpty
    store := Tab.restrict (fun k => !gone k) x.store
    late := x.late.filter fun e => !gone e.1 }

theorem Slice.has_without {x : Slice} {gone : Nat → Bool} {k : Nat} (h : gone k = true) : (x.without gone).has k = none := by
  have hfind : (x.without gone).find k = none := by
    unfold Slice.find
    split
    · next y hy =>
      have hunit : y.unit = k / 8 := beq_iff_eq.mp (List.find?_some (p := fun y : Line => y.unit == k / 8) hy)
      obtain ⟨z, -, rfl⟩ := List.mem_map.mp (List.mem_filter.mp (List.mem_of_find?_eq_some hy)).1
      have hz : 8 * z.unit + k % 8 = k := by
        dsimp only at hunit
        omega
      exact Tab.get_restrict_none (p := fun i => !gone (8 * z.unit + i)) (by rw [hz, h]; rfl) _
    · rfl
  have hstore : Tab.get (fun _ => none) (x.without gone).store k = none := Tab.get_restrict_none (p := fun k => !gone k) (by rw [h]; rfl) _
  rw [Slice.has, hfind, hstore]
  rfl

/-- Steps that change slices alone keep the address map. -/
theorem SlicesOnly.addrOf {s t : State} (h : SlicesOnly s t) (l : Loc) : t.addrOf l = s.addrOf l := by
  rw [h]
  rfl

theorem State.dropWhere_slices (s : State) (p : Nat → Bool) : SlicesOnly s (s.dropWhere p) := by
  refine List.foldlRecOn (motive := fun t : State => SlicesOnly s t) _ _ rfl fun t ht n _ => ?_
  rw [SlicesOnly, ht]
  rfl

/-- One slice loses the sectors of the range. -/
def State.dropSlice (s : State) (p : Nat → Bool) (n : Nat) : State := s.setSlice n ((s.slice n).without (s.secIn p n))

theorem State.dropWhere_eq (s : State) (p : Nat → Bool) : s.dropWhere p = s.slicesHeld.foldl (fun s n => s.dropSlice p n) s := rfl

/-- A slice that is not listed holds nothing. -/
theorem State.sliceHas_unlisted {s : State} {l : Loc} (h : l.n ∉ s.slicesHeld) : s.sliceHas l = none := by
  have hslice : s.slice l.n = .empty := Tab.get_unlisted h
  rw [State.sliceHas_eq, hslice]
  rfl

/-- R131: no slice holds a sector of the range any more. -/
theorem State.sliceHas_dropWhere {s : State} {p : Nat → Bool} {l : Loc} {a : Nat} (ha : s.addrOf l = some a) (hp : p a = true) :
    (s.dropWhere p).sliceHas l = none := by
  have hstep (u : State) (hu : SlicesOnly s u) (n : Nat) : (u.dropSlice p n).sliceHas l =
      if l.n = n then none else u.sliceHas l := by
    have hin : u.secIn p l.n l.k = true := by
      rw [State.secIn, hu.addrOf, ha]
      exact hp
    rw [State.sliceHas_eq, State.dropSlice, State.slice_setSlice]
    split
    · next hn =>
      rw [← hn]
      exact Slice.has_without hin
    · rfl
  have hkeep : ∀ (ns : List Nat) (u : State), SlicesOnly s u → (l.n ∈ ns ∨ u.sliceHas l = none) →
      (ns.foldl (fun s n => s.dropSlice p n) u).sliceHas l = none := fun ns => by
    induction ns with
    | nil => exact fun u _ h => h.resolve_left (by nofun)
    | cons n ns ih =>
      intro u hu h
      have hu' : SlicesOnly s (u.dropSlice p n) := by
        rw [SlicesOnly, hu]
        rfl
      refine ih _ hu' ?_
      rw [hstep u hu n]
      by_cases hn : l.n = n
      · exact .inr (if_pos hn)
      · rw [if_neg hn]
        exact h.imp_left fun hm => (List.mem_cons.mp hm).resolve_left hn
  rw [State.dropWhere_eq]
  exact hkeep _ s rfl ((em (l.n ∈ s.slicesHeld)).imp_right State.sliceHas_unlisted)

end Sys2Proof.Machine
end

section
/-!
SUPPORT. A range of granules that takes another class and owner, and the zeroing of its sectors (R131).
-/

namespace Sys2Proof.Machine

/-! ## The address map -/

/-- The tiers, and which granules are Mended, are as they were. -/
structure State.MendKept (s t : State) : Prop where
  config : t.reg .MW_CONFIG 0 = s.reg .MW_CONFIG 0
  mended : ∀ g < 4096, t.granClass g = 2 ↔ s.granClass g = 2

theorem State.MendKept.trans {s t u : State} (h : s.MendKept t) (g : t.MendKept u) : s.MendKept u :=
  ⟨g.config.trans h.config, fun k hk => (g.mended k hk).trans (h.mended k hk)⟩

theorem State.GranKept.mendKept {s t : State} (h : s.GranKept t) : s.MendKept t :=
  ⟨h.config, fun g hg => by
    have hfld : t.fld F.RG_GRAN_CLASS g = s.fld F.RG_GRAN_CLASS g := congrArg (Fld.of F.RG_GRAN_CLASS) (h.gran g hg)
    rw [State.granClass, State.granClass, hfld]⟩

/-- R210 to R216: where a sector's address is rests on the tiers and on which granules are Mended. -/
theorem State.MendKept.addrOf {s t : State} (h : s.MendKept t) (l : Loc) : t.addrOf l = s.addrOf l := by
  have htiers := State.tiers_of_config h.config
  have hplain : t.addrPlain l = s.addrPlain l := by rw [State.addrPlain, State.addrPlain, htiers]
  have hmended : t.locMended l = s.locMended l := by
    unfold State.locMended
    rw [hplain]
    cases ha : s.addrPlain l with
    | none => rfl
    | some a =>
      have hlt := (State.addrPlain_lt ha).2
      have hg : a / gib < 4096 := by
        unfold gib
        omega
      exact Bool.eq_iff_iff.mpr (by
        show (t.granClass (a / gib) == 2) = true ↔ (s.granClass (a / gib) == 2) = true
        rw [beq_iff_eq, beq_iff_eq]
        exact h.mended _ hg)
  have hn : t.mendN = s.mendN := by rw [State.mendN, State.mendN, htiers]
  have hsites : t.mendSites = s.mendSites := by rw [State.mendSites, State.mendSites, htiers]
  have hq : t.mendQ = s.mendQ := by rw [State.mendQ, State.mendQ, hn]
  have hp : t.parityIdx = s.parityIdx := funext fun c => funext fun m => by rw [State.parityIdx, State.parityIdx, hn]
  unfold State.addrOf
  rw [hmended, hplain, hn, hsites, hq, hp]

/-! ## The registers of the range -/

theorem mem_granList {lo hi g : Nat} : g ∈ granList lo hi ↔ lo ≤ g ∧ g < hi := by
  simp only [granList, List.mem_map, List.mem_range]
  constructor
  · rintro ⟨k, hk, rfl⟩
    omega
  · exact fun h => ⟨g - lo, by omega, by omega⟩

/-- The granules of a list take a class and an owner. -/
def State.setGrans (s : State) (gs : List Nat) (cls owner : Nat) : State :=
  gs.foldl (fun s g => (s.put F.RG_GRAN_CLASS g cls).put F.RG_GRAN_OWNER g owner) s

/-- The offsets of the registers of the granules in a list. -/
def ListedGran (gs : List Nat) (o : Nat) : Prop := ∃ g ∈ gs, o = Reg.offset .RG_GRAN g

theorem gran_offset_inj {g e : Nat} (h : g ≠ e) : Reg.offset .RG_GRAN g ≠ Reg.offset .RG_GRAN e := by
  simp only [Reg.offset, Reg.base, Reg.stride]
  omega

theorem not_listedGran {gs : List Nat} {g : Nat} (h : g ∉ gs) : ¬ListedGran gs (Reg.offset .RG_GRAN g) := fun ⟨e, he, ho⟩ =>
  gran_offset_inj (fun hge : g = e => h (hge ▸ he)) ho

section
variable (s : State) (gs : List Nat)

theorem State.setGrans_wrote (cls owner : Nat) : s.Wrote (s.setGrans gs cls owner) (ListedGran gs) :=
  .fold (.refl s _) fun u g hg => ((State.Wrote.refl u _).put _ _ _ ⟨g, hg, rfl⟩).put _ _ _ ⟨g, hg, rfl⟩

theorem State.setBusy_wrote (b : Nat) : s.Wrote (s.setBusy gs b) (ListedGran gs) :=
  .fold (.refl s _) fun u g hg => (State.Wrote.refl u _).put _ _ _ ⟨g, hg, rfl⟩

theorem State.setGrans_fields (cls owner : Nat) : ∀ g ∈ gs, (s.setGrans gs cls owner).granClass g = cls % 4 ∧
    (s.setGrans gs cls owner).granOwner g = owner % 64 := by
  refine foldl_each (P := fun g (t : State) => t.granClass g = cls % 4 ∧ t.granOwner g = owner % 64) (fun u g _ => ?_)
    (fun u g _ e _ h => ?_) s
  · exact ⟨(fld_put_field _ F.RG_GRAN_OWNER F.RG_GRAN_CLASS _ _ rfl (by decide)).trans (fld_put_same _ _ _ _ (by decide)),
      fld_put_same _ _ _ _ (by decide)⟩
  · by_cases heg : e = g
    · rw [heg]
      exact ⟨(fld_put_field _ F.RG_GRAN_OWNER F.RG_GRAN_CLASS _ _ rfl (by decide)).trans (fld_put_same _ _ _ _ (by decide)),
        fld_put_same _ _ _ _ (by decide)⟩
    · have hfar (f v : _) (w : State) (k : Fld) (hf : f.reg = .RG_GRAN) (hk : k.reg = .RG_GRAN) : (w.put f g v).fld k e = w.fld k e :=
        fld_put_other _ _ _ _ _ _ (by rw [hf, hk]; exact gran_offset_inj heg)
      exact ⟨((hfar _ _ _ F.RG_GRAN_CLASS rfl rfl).trans (hfar _ _ _ F.RG_GRAN_CLASS rfl rfl)).trans h.1,
        ((hfar _ _ _ F.RG_GRAN_OWNER rfl rfl).trans (hfar _ _ _ F.RG_GRAN_OWNER rfl rfl)).trans h.2⟩

theorem State.setBusy_busy (b : Nat) : ∀ g ∈ gs, (s.setBusy gs b).fld F.RG_GRAN_BUSY g = b % 2 := by
  refine foldl_each (P := fun g (t : State) => t.fld F.RG_GRAN_BUSY g = b % 2) (fun u g _ => fld_put_same _ _ _ _ (by decide))
    (fun u g _ e _ h => ?_) s
  by_cases heg : e = g
  · rw [heg]
    exact fld_put_same _ _ _ _ (by decide)
  · exact (fld_put_other _ F.RG_GRAN_BUSY _ _ _ _ (gran_offset_inj heg)).trans h

/-- BUSY leaves the other fields of the granules. -/
theorem State.setBusy_others (b : Nat) {f : Fld} (hf : f.reg = .RG_GRAN) (ha : f.lo + f.w ≤ 13) (g : Nat) :
    (s.setBusy gs b).fld f g = s.fld f g := by
  refine List.foldlRecOn (motive := fun t : State => t.fld f g = s.fld f g) _ _ rfl fun u hu e _ => ?_
  by_cases heg : g = e
  · rw [← heg, fld_put_field _ F.RG_GRAN_BUSY f _ _ hf (.inl ha), hu]
  · rw [fld_put_other _ F.RG_GRAN_BUSY _ _ _ _ (by rw [hf]; exact gran_offset_inj heg), hu]

end

/-! ## Zero data (R131 step 3) -/

section
variable {s : State} {lo hi : Nat}

/-- Does INIT of `[lo, hi)` leave a sector of the block as it is? -/
def State.initKeeps (s : State) (lo hi i : Nat) : Bool :=
  s.chanState (i / 2 ^ 26) == 3 || !s.zeroed lo hi ⟨i / 2 ^ 26, i % 2 ^ 26⟩

/-- The array after INIT. -/
def State.initArray (s : State) (lo hi : Nat) : State :=
  { s with mem := { s.mem.reground (fun i => !s.initKeeps lo hi i) (s.mem.ground.filter fun g => s.initKeeps lo hi g.lo) with
    touched := Tab.restrict (fun g => decide (g < lo / gib ∨ hi / gib ≤ g)) s.mem.touched } }

theorem State.partParity_none {a : Nat} (h : s.isMended a = false) : s.partParity a lo hi = [] := by
  simp only [State.partParity, h, Bool.false_eq_true, if_false]

/-- The lost rows of a Mend unit after INIT. -/
def State.initLost (s : State) (lo hi c : Nat) (u : Mend) : Mend :=
  { u with lost := Tab.restrict (fun m => s.initKeeps lo hi ((32 * s.mendSites.getD 0 0 + c) * 2 ^ 26 + m * 32)) u.lost }

/-- The Mend units after INIT of the array. -/
def State.initMends (s : State) (f : Nat → Mend → Mend) : State :=
  (List.range 32).foldl (fun t c => if (t.mend c).lost.isEmpty then t else t.setMend c (f c (t.mend c))) s

theorem State.initMends_rest (s : State) (f : Nat → Mend → Mend) :
    s.initMends f = { s with mem := { s.mem with mends := (s.initMends f).mem.mends } } := by
  unfold State.initMends
  generalize List.range 32 = l
  refine List.foldlRecOn (motive := fun t : State => t = { s with mem := { s.mem with mends := t.mem.mends } }) l _ rfl fun t ht c _ => ?_
  split
  · exact ht
  · rw [State.setMend, ht]

/-- Outside Mended granules INIT changes the array, and the lost rows of Mend units alone. -/
theorem State.initRange_eq (hlo : s.isMended lo = false) (hhi : s.isMended (hi - 1) = false) :
    s.initRange lo hi = (s.initArray lo hi).initMends (s.initLost lo hi) := by
  simp only [State.initRange, State.partParity_none hlo, State.partParity_none hhi, List.append_nil, List.foldl_nil]
  rfl

theorem ofBytes_zero (n : Nat) : ofBytes (List.replicate n 0#8) = 0 := by
  induction n with
  | zero => rfl
  | succ n ih => rw [List.replicate_succ, ofBytes, List.foldr_cons, ← ofBytes, ih]; rfl

/-- A byte that INIT takes away reads as zero. -/
theorem readBytes_none {d : Nat → Byte} {t : List Host.Cell} {a n : Nat} (h : ∀ i < n, a + i ∉ Tab.keys t) (hd : ∀ i < n, d (a + i) = 0#8) :
    readBytes d t a n = List.replicate n 0#8 :=
  List.eq_replicate_iff.mpr ⟨by simp [readBytes], fun b hb => by
    obtain ⟨i, hi, rfl⟩ := List.mem_map.mp hb
    have hi := List.mem_range.mp hi
    rw [Tab.get_unlisted (h i hi), hd i hi]⟩

theorem Tab.not_mem_keys_filter {α : Type} {p : Nat → Bool} {q : Nat × α → Bool} {i : Nat} (h : p i = false) (t : Tab α) :
    i ∉ Tab.keys ((Tab.restrict p t).filter q) := fun hi => by
  obtain ⟨e, he, rfl⟩ := List.mem_map.mp hi
  exact Tab.not_mem_keys_restrict h t (List.mem_map.mpr ⟨e, (List.mem_filter.mp he).1, rfl⟩)

/-- R131: a sector that INIT zeroes holds zero data with valid check bits. -/
theorem State.initArray_zero (hg : s.mem.ground = []) {l : Loc} {a : Nat} (ha : s.addrOf l = some a) (hin : lo ≤ a ∧ a < hi)
    (hk : l.k < 2 ^ 26) (h3 : s.chanState l.n ≠ 3) :
    (s.initArray lo hi).rawSector l = 0 ∧ (s.initArray lo hi).rawChecks l = List.replicate 8 0#8 := by
  have hground : (s.initArray lo hi).mem.ground = [] := by
    show s.mem.ground.filter _ = []
    rw [hg]
    rfl
  have hblank (i j : Nat) : (s.initArray lo hi).mem.blank i j = 0#8 := by
    rw [Mem.blank, hground]
    rfl
  have hkeep : s.initKeeps lo hi l.index = false := by
    have hn : l.index / 2 ^ 26 = l.n := by
      unfold Loc.index
      omega
    have hm : l.index % 2 ^ 26 = l.k := by
      unfold Loc.index
      omega
    rw [State.initKeeps, hn, hm, State.zeroed, ha]
    simp [h3, hin]
  have hdata : readBytes (s.initArray lo hi).mem.dataBlank (s.initArray lo hi).mem.dram (l.index * 64) 64 = List.replicate 64 0#8 :=
    readBytes_none (fun i hi64 => by
      refine Tab.not_mem_keys_filter (p := fun a => !!s.initKeeps lo hi (a / 64)) ?_ _
      rw [show (l.index * 64 + i) / 64 = l.index by omega, hkeep]
      rfl) fun _ _ => hblank _ _
  refine ⟨?_, readBytes_none (fun i hi8 => ?_) fun _ _ => hblank _ _⟩
  · rw [State.rawSector, hdata, ofBytes_zero]
    rfl
  · refine Tab.not_mem_keys_filter (p := fun a => !!s.initKeeps lo hi (a / 8)) ?_ _
    rw [show (l.index * 8 + i) / 8 = l.index by omega, hkeep]
    rfl

end

end Sys2Proof.Machine
end

section
/-!
PROOF of O22, first part: the change of a range (R131, R213).
-/

namespace Sys2Proof.Machine

/-! ## The change of a range -/

/-- The granules `[lo, hi)` take a class and an owner, and zero data where `init` asks for it (R131 steps 3 and 4). -/
def State.regrant (s : State) (lo hi cls owner : Nat) (init : Bool) : State :=
  (s.setGrans (granList lo hi) cls owner).when init (·.initRange (lo * gib) (hi * gib))

/-- What a changed range comes to, BUSY set or cleared. -/
structure State.Regranted (s t : State) (lo hi cls owner busy : Nat) (init : Bool) : Prop where
  draws : t.draws = s.draws
  requests : s.noRequests → t.noRequests
  slices : t.mem.slices = s.mem.slices
  inside : ∀ g, lo ≤ g → g < hi → t.granClass g = cls ∧ t.granOwner g = owner ∧ t.fld F.RG_GRAN_BUSY g = busy
  outside : RegsBut s t (ListedGran (granList lo hi))
  map : s.MendKept t
  zero : init = true → ∀ l a, t.addrOf l = some a → l.n < 256 → l.k < 2 ^ 26 → lo * gib ≤ a → a < hi * gib →
    t.rawSector l = 0 ∧ t.rawChecks l = List.replicate 8 0#8

theorem mul_gib_div (g : Nat) : g * gib / gib = g := Nat.mul_div_cancel g (by decide)

theorem pred_mul_gib_div {g : Nat} (h : 0 < g) : (g * gib - 1) / gib = g - 1 := by
  unfold gib
  omega

section
variable {s : State} {lo hi cls owner : Nat}

/-- A range of granules below 768 that takes a class other than Mended. -/
structure State.Regrants (s : State) (lo hi cls owner : Nat) : Prop where
  nonempty : lo < hi
  low : hi ≤ 768
  class_lt : cls < 4
  owner_lt : owner < 64
  unmended : cls ≠ 2
  old : ∀ g < 768, s.granClass g ≠ 2
  served : ∀ n < 256, s.chanState n ≠ 3
  ground : s.mem.ground = []

theorem listedGran_far {o : Nat} (hhi : hi ≤ 768) (h : ListedGran (granList lo hi) o) : 0x40000 ≤ o ∧ o < 0x41800 := by
  obtain ⟨g, hg, rfl⟩ := h
  have := (mem_granList.mp hg).2
  simp only [Reg.offset, Reg.base, Reg.stride]
  omega

section
variable (h : s.Regrants lo hi cls owner)
include h

theorem State.Regrants.setGrans_inside {g : Nat} (hg : lo ≤ g ∧ g < hi) :
    (s.setGrans (granList lo hi) cls owner).granClass g = cls ∧ (s.setGrans (granList lo hi) cls owner).granOwner g = owner := by
  have hf := s.setGrans_fields (granList lo hi) cls owner g (mem_granList.mpr hg)
  rwa [Nat.mod_eq_of_lt h.class_lt, Nat.mod_eq_of_lt h.owner_lt] at hf

theorem State.Regrants.setGrans_map : s.MendKept (s.setGrans (granList lo hi) cls owner) := by
  have hw := s.setGrans_wrote (granList lo hi) cls owner
  refine ⟨hw.regs.reg_eq fun hl => ?_, fun g _ => ?_⟩
  · have := listedGran_far h.low hl
    simp only [Reg.offset, Reg.base, Reg.stride] at this
    omega
  · by_cases hin : lo ≤ g ∧ g < hi
    · have hlt : g < 768 := by
        have := h.low
        omega
      rw [(h.setGrans_inside hin).1]
      exact iff_of_false h.unmended (h.old g hlt)
    · have hreg : (s.setGrans (granList lo hi) cls owner).fld F.RG_GRAN_CLASS g = s.fld F.RG_GRAN_CLASS g :=
        hw.regs.fld_eq (not_listedGran fun hm => hin (mem_granList.mp hm))
      rw [State.granClass, State.granClass, hreg]

theorem State.Regrants.setGrans_state (n : Nat) : (s.setGrans (granList lo hi) cls owner).chanState n = s.chanState n :=
  (s.setGrans_wrote _ _ _).regs.fld_eq fun hl => by
    have := listedGran_far h.low hl
    simp only [F.CE_STATE_STATE, Reg.offset, Reg.base, Reg.stride] at this
    omega

/-- The range's registers written, the zeroing is that of the array, and of the lost rows of Mend units. -/
theorem State.Regrants.regrant_init : s.regrant lo hi cls owner true =
    ((s.setGrans (granList lo hi) cls owner).initArray (lo * gib) (hi * gib)).initMends
      ((s.setGrans (granList lo hi) cls owner).initLost (lo * gib) (hi * gib)) := by
  have hlo := h.nonempty
  refine State.initRange_eq ?_ ?_
  · rw [State.isMended, mul_gib_div, (h.setGrans_inside ⟨Nat.le_refl _, hlo⟩).1]
    exact beq_false_of_ne h.unmended
  · rw [State.isMended, pred_mul_gib_div (by omega), (h.setGrans_inside (g := hi - 1) ⟨by omega, by omega⟩).1]
    exact beq_false_of_ne h.unmended

theorem State.Regrants.regrant_rest (init : Bool) : ∃ m, s.regrant lo hi cls owner init =
    { s.setGrans (granList lo hi) cls owner with mem := m } ∧ m.slices = s.mem.slices ∧ m.chans = s.mem.chans ∧
      (init = true → ∀ l a, (s.setGrans (granList lo hi) cls owner).addrOf l = some a → l.n < 256 → l.k < 2 ^ 26 →
        lo * gib ≤ a → a < hi * gib →
        (s.regrant lo hi cls owner init).rawSector l = 0 ∧ (s.regrant lo hi cls owner init).rawChecks l = List.replicate 8 0#8) := by
  have hmem := (s.setGrans_wrote (granList lo hi) cls owner).mem
  cases init with
  | false => exact ⟨(s.setGrans (granList lo hi) cls owner).mem, rfl, congrArg Mem.slices hmem, congrArg Mem.chans hmem, nofun⟩
  | true =>
    have hstate := h.setGrans_state
    rw [h.regrant_init]
    generalize s.setGrans (granList lo hi) cls owner = u at hmem hstate
    have hrest := (u.initArray (lo * gib) (hi * gib)).initMends_rest (u.initLost (lo * gib) (hi * gib))
    have hzero {l : Loc} {a : Nat} (ha : u.addrOf l = some a) (hin : lo * gib ≤ a ∧ a < hi * gib) (hk : l.k < 2 ^ 26) (hn : l.n < 256) :=
      State.initArray_zero (s := u) (by rw [hmem]; exact h.ground) ha hin hk (by rw [hstate]; exact h.served _ hn)
    have harray : u.initArray (lo * gib) (hi * gib) = { u with mem := (u.initArray (lo * gib) (hi * gib)).mem } := rfl
    have hslices : (u.initArray (lo * gib) (hi * gib)).mem.slices = u.mem.slices := rfl
    have hchans : (u.initArray (lo * gib) (hi * gib)).mem.chans = u.mem.chans := rfl
    generalize u.initArray (lo * gib) (hi * gib) = v at hrest hzero harray hslices hchans
    generalize v.initMends (u.initLost (lo * gib) (hi * gib)) = t at hrest
    refine ⟨t.mem, ?_, ?_, ?_, fun _ l a ha hn hk h1 h2 => ?_⟩
    · rw [hrest, harray]
    · rw [hrest, ← hmem]
      exact hslices
    · rw [hrest, ← hmem]
      exact hchans
    · obtain ⟨hd, hc⟩ := hzero ha ⟨h1, h2⟩ hk hn
      rw [hrest]
      exact ⟨hd, hc⟩

theorem State.Regrants.regrant_state (init : Bool) (n : Nat) : (s.regrant lo hi cls owner init).chanState n = s.chanState n := by
  obtain ⟨m, hrest, -⟩ := h.regrant_rest init
  exact (State.fld_congr (by rw [hrest]) _ _).trans (h.setGrans_state n)

/-- R131: what the change of the range's registers and sectors comes to. -/
theorem State.Regrants.regranted (init : Bool) (busy : Nat) :
    s.Regranted ((s.regrant lo hi cls owner init).setBusy (granList lo hi) busy) lo hi cls owner (busy % 2) init := by
  obtain ⟨m, hrest, hslices, hchans, hzero⟩ := h.regrant_rest init
  have hwrote := s.setGrans_wrote (granList lo hi) cls owner
  have hinside {g : Nat} (hg : lo ≤ g ∧ g < hi) := h.setGrans_inside hg
  have hmap := h.setGrans_map
  generalize s.setGrans (granList lo hi) cls owner = u at hrest hzero hwrote hinside hmap
  generalize s.regrant lo hi cls owner init = v at hrest hzero
  have hbusy := v.setBusy_wrote (granList lo hi) busy
  have hset := v.setBusy_busy (granList lo hi) busy
  have hothers {f : Fld} (hf : f.reg = .RG_GRAN) (ha : f.lo + f.w ≤ 13) (g : Nat) := v.setBusy_others (granList lo hi) busy hf ha g
  generalize v.setBusy (granList lo hi) busy = t at hbusy hset hothers
  have hvregs : v.regs = u.regs := by rw [hrest]
  have hbut : RegsBut s t (ListedGran (granList lo hi)) := (RegsBut.congr hvregs hwrote.regs).trans hbusy.regs
  have hclass (g : Nat) : t.granClass g = u.granClass g := (hothers (f := F.RG_GRAN_CLASS) rfl (by decide) g).trans (State.fld_congr hvregs _ _)
  have hut : u.MendKept t := ⟨by
      rw [hbusy.regs.reg_eq fun hl => by
        have := listedGran_far h.low hl
        simp only [Reg.offset, Reg.base, Reg.stride] at this
        omega, hrest]
      rfl, fun g _ => by rw [hclass]⟩
  refine ⟨?_, fun hq => ?_, ?_, fun g hlo hhi => ⟨?_, ?_, ?_⟩, hbut, hmap.trans hut, fun hi l a ha hn hk h1 h2 => ?_⟩
  · rw [hbusy.draws, hrest, ← hwrote.draws]
  · refine State.noRequests_of ?_ ?_ hq
    · rw [hbusy.mem, hrest]
      exact hchans
    · rw [hbusy.ports, hrest]
      exact congrArg Ports.waits hwrote.ports
  · rw [hbusy.mem, hrest]
    exact hslices
  · exact (hclass g).trans (hinside ⟨hlo, hhi⟩).1
  · exact ((hothers (f := F.RG_GRAN_OWNER) rfl (by decide) g).trans (State.fld_congr hvregs _ _)).trans (hinside ⟨hlo, hhi⟩).2
  · exact hset g (mem_granList.mpr ⟨hlo, hhi⟩)
  · obtain ⟨hd, hc⟩ := hzero hi l a (by rw [← hut.addrOf]; exact ha) hn hk h1 h2
    constructor
    · rw [State.rawSector, hbusy.mem]
      exact hd
    · rw [State.rawChecks, hbusy.mem]
      exact hc

end

end

/-! ## Before the change -/

/-- Where slices alone change, the rest is quiet. -/
theorem SlicesOnly.quiet {s t : State} (h : SlicesOnly s t) : s.Quiet t := by
  have hregs : t.regs = s.regs := by rw [h]
  have hchan (n : Nat) : t.chan n = s.chan n := by
    rw [h]
    rfl
  exact ⟨by rw [h], by rw [h], fun n => by rw [hchan]; exact ⟨rfl, rfl⟩, .congr hregs (.refl s _), by rw [h], by rw [h],
    RegsBut.readable (.congr hregs (.refl s _)) (by rw [h]) (by rw [h]) (by rw [h])⟩

/-- The addresses of a range of granules. -/
def granRange (lo hi a : Nat) : Bool := within (lo * gib) ((hi - lo) * gib) a

theorem granRange_of_mem {lo hi a : Nat} (h : lo * gib ≤ a) (h' : a < hi * gib) : granRange lo hi a = true := by
  rw [granRange, within, decide_eq_true_eq, Nat.sub_mul]
  omega

section
variable {d pos lo hi : Nat} {c : Cmd} {s : State}

/-- The range's lines dropped, and its sectors laid out for a class without check bytes where the range takes one (R213). -/
def State.relayRange (s : State) (d : Nat) (c : Cmd) (lo hi : Nat) : State :=
  if c.argBit 1 28 || c.arg 1 20 2 != 0 then s.dropWhere (granRange lo hi)
  else ((s.dropWhere (granRange lo hi)).relaid lo hi).foldl (fun s l => s.relay d l) (s.dropWhere (granRange lo hi))

/-- The range before its registers change, its bursts charged. -/
def State.readyRange (s : State) (d : Nat) (c : Cmd) (lo hi : Nat) : State :=
  let t := s.relayRange d c lo hi
  let bursts := gib / 2048 * (if c.argBit 1 28 then (granList lo hi).length
    else ((granList lo hi).filter fun g => t.granClass g != c.arg 1 20 2).length)
  (t.chargeBursts d 3 (if c.argBit 1 28 then 0 else bursts)).chargeBursts d 4 bursts

theorem State.relayRange_tidied (hup : s.mem.upsets = []) (hue : c.argBit 1 28 = true ∨ c.arg 1 20 2 ≠ 0 ∨ ∀ l, s.ueAt l = false) :
    (s.dropWhere (granRange lo hi)).Tidied (s.relayRange d c lo hi) := by
  have hdrop := (s.dropWhere_slices (granRange lo hi)).quiet
  unfold State.relayRange
  split
  · exact .refl _
  · next hcond =>
    rw [Bool.or_eq_true, bne_iff_ne, not_or] at hcond
    have hread := hdrop.readable ((hue.resolve_left hcond.1).resolve_left hcond.2)
    exact .fold (.refl _) fun u hu l _ => State.tidied_relay (hu.quiet.upsets.trans (hdrop.upsets.trans hup)) (hu.quiet.readable hread l) d

theorem State.readyRange_quiet (hup : s.mem.upsets = []) (hue : c.argBit 1 28 = true ∨ c.arg 1 20 2 ≠ 0 ∨ ∀ l, s.ueAt l = false) :
    s.Quiet (s.readyRange d c lo hi) ∧ ∀ l a, s.addrOf l = some a → lo * gib ≤ a → a < hi * gib →
      (s.readyRange d c lo hi).sliceHas l = none := by
  have htidied : (s.dropWhere (granRange lo hi)).Tidied (s.readyRange d c lo hi) :=
    ((State.relayRange_tidied hup hue).trans (State.tidied_chargeBursts _ _ _ _)).trans (State.tidied_chargeBursts _ _ _ _)
  refine ⟨(s.dropWhere_slices _).quiet.trans htidied.quiet, fun l a ha hlo hhi => ?_⟩
  have hslice : (s.readyRange d c lo hi).slice l.n = (s.dropWhere (granRange lo hi)).slice l.n := by
    rw [State.slice, htidied.slices]
    rfl
  rw [State.sliceHas_eq, hslice]
  exact State.sliceHas_dropWhere ha (granRange_of_mem hlo hhi)

theorem granList_length (lo hi : Nat) : (granList lo hi).length = hi - lo := by simp [granList]

/-- R131: the change, where no channel of the block is retired. -/
theorem State.regionChange_eq (h : ∀ n < 256, ((s.readyRange d c lo hi).regrant lo hi (c.arg 1 20 2) (c.arg 1 22 6)
    (c.argBit 1 28)).chanState n ≠ 3) : s.regionChange d c lo hi =
      ((((s.readyRange d c lo hi).regrant lo hi (c.arg 1 20 2) (c.arg 1 22 6) (c.argBit 1 28)).setBusy (granList lo hi) 0).finish d c .ok 0
        (if c.argBit 1 28 then hi - lo else 0)).settle := by
  have hlive := State.granRetired_none h
  have heq : s.regionChange d c lo hi =
      let t := (s.readyRange d c lo hi).regrant lo hi (c.arg 1 20 2) (c.arg 1 22 6) (c.argBit 1 28)
      ((t.setBusy (granList lo hi) 0).finish d c (if c.argBit 1 28 && (granList lo hi).any t.granRetired then .degraded else .ok)
        (if c.argBit 1 28 then ((granList lo hi).filter fun g => c.arg 1 20 2 != 2 && t.granRetired g).length else 0)
        (if c.argBit 1 28 then (granList lo hi).length else 0)).settle := rfl
  rw [heq]
  dsimp only
  generalize (s.readyRange d c lo hi).regrant lo hi (c.arg 1 20 2) (c.arg 1 22 6) (c.argBit 1 28) = t at hlive
  have hany : (granList lo hi).any t.granRetired = false := List.any_eq_false.mpr fun g _ => by rw [hlive]; decide
  simp only [hany, hlive, Bool.and_false, Bool.false_eq_true, if_false, List.filter_false, List.length_nil, ite_self, granList_length]

end

end Sys2Proof.Machine
end

section
/-!
PROOF of O22: REGION_SET gives its granules their class and owner.
-/

namespace Sys2Proof.Machine

section
variable {d pos lo hi : Nat} {c : Cmd} {s : State}

/-- A command that goes on runs no earlier than itself. -/
theorem State.earlierRuns_running (h : s.earlierRuns d c true = false) : (s.running d c).earlierRuns d c true = false := by
  refine eq_false_of_ne_true fun hr => ?_
  obtain ⟨e, he, -, x, hx, ho⟩ := State.earlierRuns_eq_true.mp hr
  refine ne_of_beq_false (b := true) (by rw [h]; rfl) (State.earlierRuns_eq_true.mpr ⟨e, he, .inl rfl, x, ?_, ho⟩)
  by_cases hd : e = d
  · have hcmds : ((s.running d c).drawer d).cmds = (s.drawer d).cmds.map fun x => if x.pos = c.pos then { c with phase := .running } else x :=
      congrArg Drawer.cmds (Tab.get_set_same _ _ _ _)
    rw [hd, hcmds] at hx
    obtain ⟨y, hy, rfl⟩ := List.mem_map.mp hx
    split at ho
    · exact absurd ho (Nat.lt_irrefl _)
    · next hne =>
      rw [if_neg hne, hd]
      exact hy
  · rw [State.running, State.drawer_setCmd_other _ _ hd] at hx
    exact hx

/-- The state in which a REGION_SET finds nothing that holds it up. -/
def State.regionReady (s : State) (d : Nat) (c : Cmd) (lo hi : Nat) : State :=
  ((s.running d c).setBusy (granList lo hi) 1).writeBackWhere (granRange lo hi) d

theorem exec_regionSet (h : s.fresh d pos .regionSet c) (hlo : lo = c.arg 1 0 10) (hhi : hi = lo + c.arg 1 10 10) (hlt : lo < hi)
    (h768 : hi ≤ 768) (hend : hi * gib ≤ s.windowEnd) (hcls : c.arg 1 20 2 < 3) (hrun : s.earlierRuns d c true = false)
    (hcheck : s.fld F.RG_GRAN_BUSY lo = 0 → ∀ e ∈ s.regionChecks lo hi (c.arg 1 20 2) (c.argBit 1 28), e.1 = false)
    (hdirty : (s.regionReady d c lo hi).dirtyWaits (granRange lo hi) = false) (hout : (s.regionReady d c lo hi).someOut = false)
    (hue : c.argBit 1 28 = true ∨ c.arg 1 20 2 ≠ 0 ∨ ∀ l, (s.regionReady d c lo hi).ueAt l = false) :
    exec (.regionSet d pos) s = .next ((s.regionReady d c lo hi).regionChange d c lo hi) := by
  have hfirst : (decide (c.arg 1 10 10 = 0 ∨ 768 < c.arg 1 0 10 + c.arg 1 10 10 ∨ s.windowEnd < (c.arg 1 0 10 + c.arg 1 10 10) * gib) ||
      c.arg 1 20 2 == 3) = false := by
    rw [← hlo, ← hhi, Bool.or_eq_false_iff, decide_eq_false_iff_not, beq_eq_false_iff_ne]
    omega
  have hfail : (if (s.running d c).flag F.RG_GRAN_BUSY lo = true then none
      else firstFail ((s.running d c).regionChecks lo hi (c.arg 1 20 2) (c.argBit 1 28))) = none := by
    split
    · rfl
    · next hbusy =>
      have h0 : s.fld F.RG_GRAN_BUSY lo = 0 := by
        have : (s.fld F.RG_GRAN_BUSY lo != 0) = false := eq_false_of_ne_true hbusy
        simpa using this
      exact firstFail_eq_none.mpr (hcheck h0)
  have hues : (if (c.argBit 1 28 || c.arg 1 20 2 != 0) = true then []
      else ((s.regionReady d c lo hi).relaid lo hi).filter (s.regionReady d c lo hi).ueAt) = [] := by
    split
    · rfl
    · next hcond =>
      rw [Bool.or_eq_true, bne_iff_ne, not_or] at hcond
      exact List.filter_eq_nil_iff.mpr fun l _ => by
        rw [((hue.resolve_left hcond.1).resolve_left hcond.2) l]
        decide
  show execRegionSet d pos s = _
  rw [execRegionSet, h.runCmd _ (pureCheck_passes (by
    intro e he
    rw [List.mem_singleton.mp he]
    exact hfirst))]
  dsimp only
  rw [← hlo, ← hhi, State.earlierRuns_running hrun, if_neg (by decide)]
  have hready : ((s.running d c).setBusy (granList lo hi) 1).writeBackWhere (within (lo * gib) ((hi - lo) * gib)) d =
      s.regionReady d c lo hi := rfl
  have hrange : within (lo * gib) ((hi - lo) * gib) = granRange lo hi := rfl
  rw [hfail]
  dsimp only
  rw [hready, hues, hrange, hdirty, hout]
  simp only [Bool.and_false, Bool.or_self, Bool.false_eq_true, if_false, List.isEmpty_nil, if_true]

/-- The state of a REGION_SET with its range BUSY. -/
def State.regionBusy (s : State) (d : Nat) (c : Cmd) (lo hi : Nat) : State := (s.running d c).setBusy (granList lo hi) 1

/-- The range BUSY, all else is as it was, but for the command's phase. -/
structure State.BusySet (s t : State) (d : Nat) (c : Cmd) (lo hi : Nat) : Prop where
  wrote : (s.running d c).Wrote t (ListedGran (granList lo hi))
  classes : ∀ g, t.granClass g = s.granClass g

theorem State.regionBusy_sets (s : State) (d : Nat) (c : Cmd) (lo hi : Nat) : s.BusySet (s.regionBusy d c lo hi) d c lo hi :=
  ⟨State.setBusy_wrote _ _ _, State.setBusy_others (s.running d c) _ 1 (f := F.RG_GRAN_CLASS) rfl (by decide)⟩

section
variable {t : State} (h : s.BusySet t d c lo hi) (h768 : hi ≤ 768)
include h

theorem State.BusySet.slice (n : Nat) : t.slice n = s.slice n := by
  rw [State.slice, h.wrote.mem]
  rfl

theorem State.BusySet.linesGood (hg : s.LinesGood) : t.LinesGood := fun n => by
  rw [h.slice]
  exact hg n

theorem State.BusySet.noRequests (hq : s.noRequests) : t.noRequests :=
  State.noRequests_of (t := t) (by rw [h.wrote.mem]; rfl) (by rw [h.wrote.ports]; rfl) hq

include h768

theorem State.BusySet.chanState (n : Nat) : t.chanState n = s.chanState n :=
  (h.wrote.regs.fld_eq fun hl => by
    have := listedGran_far h768 hl
    simp only [F.CE_STATE_STATE, Reg.offset, Reg.base, Reg.stride] at this
    omega).trans (State.fld_congr rfl _ _)

theorem State.BusySet.allServed (hs : s.allServed) : t.allServed := fun n hn => by
  obtain ⟨hstate, hfresh, hmodes⟩ := hs n hn
  refine ⟨by rw [h.chanState h768]; exact hstate, ?_, ?_⟩
  · rw [State.chan, h.wrote.mem]
    exact hfresh
  · refine Eq.trans (h.wrote.regs.fld_eq fun hl => ?_) hmodes
    have := listedGran_far h768 hl
    simp only [F.CE_PL_STAT_BG_MODE, Reg.offset, Reg.base, Reg.stride] at this
    omega

/-- Which sectors can be read rests on the classes and the array. -/
theorem State.BusySet.ueAt (l : Loc) : t.ueAt l = s.ueAt l := by
  have hconfig : t.reg .MW_CONFIG 0 = s.reg .MW_CONFIG 0 := h.wrote.regs.reg_eq fun hl => by
    have := listedGran_far h768 hl
    simp only [Reg.offset, Reg.base, Reg.stride] at this
    omega
  have hplain : t.locPlainClass l = s.locPlainClass l := by
    have haddr : t.addrPlain l = s.addrPlain l := by rw [State.addrPlain, State.addrPlain, State.tiers_of_config hconfig]
    have hclass : t.isPlain = s.isPlain := funext fun a => by rw [State.isPlain, State.isPlain, h.classes]
    rw [State.locPlainClass, State.locPlainClass, haddr, hclass]
  have hdata : t.rawSector l = s.rawSector l := by
    rw [State.rawSector, h.wrote.mem]
    rfl
  have hchecks : t.rawChecks l = s.rawChecks l := by
    rw [State.rawChecks, h.wrote.mem]
    rfl
  rw [State.ueAt_eq, State.ueAt_eq, hplain, hdata, hchecks]

end

end

/-- The state in which the range changes: its lines are gone, and what the change rests on is as the command found it. -/
structure State.ReadyFor (s u : State) (d : Nat) (c : Cmd) (lo hi : Nat) : Prop where
  draws : u.draws = (s.running d c).draws
  requests : u.noRequests
  gone : ∀ l a, u.addrOf l = some a → lo * gib ≤ a → a < hi * gib → u.sliceHas l = none
  grans : ∀ g < 768, g < lo ∨ hi ≤ g → u.reg .RG_GRAN g = s.reg .RG_GRAN g
  regrants : u.Regrants lo hi (c.arg 1 20 2) (c.arg 1 22 6)

/-- R131: nothing holds the command up, and the range is ready for its change. -/
theorem State.regionReady_ready {s : State} {d lo hi : Nat} {c : Cmd} (hlt : lo < hi) (h768 : hi ≤ 768) (hserved : s.allServed)
    (hsound : s.sound) (hq : s.noRequests) (hground : s.mem.ground = []) (hold : ∀ g < 768, s.granClass g ≠ 2)
    (hunmended : c.arg 1 20 2 ≠ 2) (hue : c.argBit 1 28 = true ∨ c.arg 1 20 2 ≠ 0 ∨ ∀ l, s.ueAt l = false) :
    (s.regionReady d c lo hi).dirtyWaits (granRange lo hi) = false ∧ (s.regionReady d c lo hi).someOut = false ∧
      (c.argBit 1 28 = true ∨ c.arg 1 20 2 ≠ 0 ∨ ∀ l, (s.regionReady d c lo hi).ueAt l = false) ∧
      s.ReadyFor ((s.regionReady d c lo hi).readyRange d c lo hi) d c lo hi := by
  have hbusy := s.regionBusy_sets d c lo hi
  have hup : (s.regionBusy d c lo hi).mem.upsets = [] := by
    rw [hbusy.wrote.mem]
    exact hsound.2.2.2
  obtain ⟨hwrites, hgood⟩ := State.writeBackWhere_quiet hup (hbusy.linesGood hsound.linesGood) (granRange lo hi) d
  have hready : (s.regionBusy d c lo hi).writeBackWhere (granRange lo hi) d = s.regionReady d c lo hi := rfl
  rw [hready] at hwrites hgood
  generalize s.regionBusy d c lo hi = b at hbusy hup hwrites
  generalize s.regionReady d c lo hi = r at hwrites hgood
  have hserved' := hwrites.allServed (hbusy.allServed h768 hserved)
  have hue' : c.argBit 1 28 = true ∨ c.arg 1 20 2 ≠ 0 ∨ ∀ l, r.ueAt l = false :=
    hue.imp_right fun h => h.imp_right fun h => hwrites.readable fun l => (hbusy.ueAt h768 l).trans (h l)
  obtain ⟨hquiet, hgone⟩ := State.readyRange_quiet (s := r) (d := d) (lo := lo) (hi := hi) (hwrites.upsets.trans hup) hue'
  refine ⟨State.dirtyWaits_none hserved' hgood _, State.someOut_none hserved', hue', ?_⟩
  have hmap := hquiet.regs.granKept.mendKept
  have hall := hwrites.trans hquiet
  generalize r.readyRange d c lo hi = u at hquiet hgone hmap hall
  have hclass {g : Nat} (hg : g < 768) : u.granClass g = s.granClass g :=
    (hall.fld (f := F.RG_GRAN_CLASS) (.inl ⟨rfl, by omega⟩)).trans (hbusy.classes g)
  refine ⟨hall.draws.trans hbusy.wrote.draws, hall.noRequests (hbusy.noRequests hq), fun l a ha => hgone l a ((hmap.addrOf l).symm.trans ha),
    fun g hg hout => ?_, hlt, h768, ?_, ?_, hunmended, fun g hg => by rw [hclass hg]; exact hold g hg, fun n hn => ?_, ?_⟩
  · refine (hall.regs.reg_eq (not_memRegs (.inl ⟨rfl, by omega⟩))).trans (hbusy.wrote.regs.reg_eq (not_listedGran fun hm => ?_))
    have := mem_granList.mp hm
    omega
  · exact (c.arg_lt 1 20 2).trans_le (by decide)
  · exact (c.arg_lt 1 22 6).trans_le (by decide)
  · rcases (hquiet.allServed hserved' n hn).1 with h | h <;> rw [h] <;> decide
  · rw [hall.ground, hbusy.wrote.mem]
    exact hground

/-- Settles O22: the range's lines go back and are dropped, and its registers and sectors are written, in steps of which each keeps the
address map and the channels' states. -/
theorem regionSetTakesEffect : Obligations.RegionSetTakesEffect := by
  intro d pos lo hi c s h hlo hhi hlt h768 hend hcls hrun hcheck hserved hsound hq hground _ hold hunmended hue
  obtain ⟨hdirty, hout, hue', hready⟩ :=
    State.regionReady_ready (d := d) (c := c) hlt h768 hserved hsound hq hground hold hunmended hue
  have hexec := exec_regionSet h hlo hhi hlt h768 hend hcls hrun hcheck hdirty hout hue'
  have hchanged := hready.regrants.regranted (c.argBit 1 28) 0
  rw [State.regionChange_eq fun n hn => by rw [hready.regrants.regrant_state]; exact hready.regrants.served n hn] at hexec
  generalize s.regionReady d c lo hi = r at hexec hready hchanged
  generalize r.readyRange d c lo hi = u at hexec hready hchanged
  generalize (u.regrant lo hi (c.arg 1 20 2) (c.arg 1 22 6) (c.argBit 1 28)).setBusy (granList lo hi) 0 = t at hexec hchanged
  have hrequests : (t.finish d c .ok 0 (if c.argBit 1 28 then hi - lo else 0)).noRequests :=
    State.noRequests_of rfl rfl (hchanged.requests hready.requests)
  have hdraws : t.draws = (s.running d c).draws := hchanged.draws.trans hready.draws
  have hcmd : t.cmd d pos = some { c with phase := .running } := by
    rw [State.cmd, State.drawer, hdraws]
    exact State.cmd_setCmd h.1 (show c.pos = pos from State.cmd_pos h.1)
  rw [State.settle_noRequests hrequests] at hexec
  refine ⟨_, hexec, State.cmd_finish hcmd (State.cmd_pos h.1) _ _ _, fun e he => ?_, hchanged.inside, fun g hg hgo => ?_,
    fun l a ha h1 h2 => ?_, hchanged.zero⟩
  · rw [State.drawer_finish_other _ _ _ _ _ he, State.drawer, hdraws]
    exact s.drawer_setCmd_other _ he
  · refine (hchanged.outside.reg_eq (not_listedGran fun hm => ?_)).trans (hready.grans g hg hgo)
    have := mem_granList.mp hm
    omega
  · have haddr : u.addrOf l = some a := (hchanged.map.addrOf l).symm.trans ha
    have hslice : (t.finish d c .ok 0 (if c.argBit 1 28 then hi - lo else 0)).sliceHas l = u.sliceHas l := by
      rw [State.sliceHas_eq, State.sliceHas_eq, State.slice, State.slice, ← hchanged.slices]
      rfl
    rw [hslice]
    exact hready.gone l a haddr h1 h2

end Sys2Proof.Machine
end

section
/-!
PROOF of O45's negation: a sector whose write-back is queued twice.
-/

namespace Sys2Proof.Machine

namespace TwiceQueued

/-- The write-back that an earlier read of sector 0 of channel 0 has queued. -/
def back : WBack := ⟨0, 1, some 0⟩

/-- An RD of that sector waits for DRAM. -/
def desc : Desc := ⟨⟨0, 0, .rd, ⟨⟨0, 0, 0, 0, 0, 0, 0, 0, 0, 0, 0, 0⟩, []⟩, false, false⟩, [0]⟩

/-- One stack with channel 0 in service and granule 0 Guarded.  Sector 0 has the check bytes of the value 1 and a wrong bit 1; its
write-back waits, and its slice has let the clean line go. -/
def reread : State :=
  { State.reset with
    regs := [(Reg.offset .MW_CONFIG 0, 0x3000001), (Reg.offset .RG_GRAN 0, Fld.into F.RG_GRAN_CLASS 0 1), (Reg.offset .CE_STATE 0, 0)]
    mem := { Mem.reset with
      dram := [(0, 3)]
      chk := [(0, 7)]
      chans := [(0, { Chan.empty with retry := [desc], wback := [back] })] } }

/-- The block after the read has returned: it was corrected once more. -/
def state : State := match exec (.dramReadDone 0 [] []) reread with
  | .next t => t
  | _ => reread

/-- What waits on the channels: the write-back twice, and no request. -/
theorem chans : state.mem.chans =
    [(0, { Chan.empty with limits := [(1, ⟨some 0, 0⟩)], rowCorr := [(0, 1)], wback := [back, back] })] := by decide +kernel

theorem retry (n : Nat) : (state.chan n).retry = [] := by
  rw [State.chan, chans]
  simp only [Tab.get]
  split <;> rfl

/-- The slice holds the sector clean. -/
theorem held : state.sliceHas ⟨0, 0⟩ = some ⟨mkSec 1, false⟩ := by decide +kernel

/-- The write-backs that are queued on channel 0 in the next state. -/
def nextQueue : Host.Outcome State Fault Refusal → Option (List WBack)
  | .next t => some (t.chan 0).wback
  | _ => none

/-- The first write-back is a write to the sector, which voids the second. -/
theorem queue_after : nextQueue (exec (.correctWriteBack 0) state) = some [] := by decide +kernel

end TwiceQueued

/-- Refutes O45 in its clause on a write-back that is performed: the sector's read has been corrected twice before its first write-back, and
that write voids the second (R232, R199), while the clause says that what stands behind the oldest write-back stays queued. -/
theorem not_readsReturn : ¬ Obligations.ReadsReturn := by
  unfold Obligations.ReadsReturn
  rintro ⟨-, -, -, -, hback⟩
  obtain ⟨-, hperformed, -⟩ := hback 0 0 1 (some 0) [TwiceQueued.back] TwiceQueued.state (by decide) (by decide +kernel) (by decide +kernel)
    (by decide +kernel) (by decide +kernel) (fun m _ => TwiceQueued.retry m) (TwiceQueued.retry 0)
  have hclean : ∀ h, TwiceQueued.state.sliceHas ⟨0, 0⟩ = some h → h.dirty = false := fun h hh => by
    rw [← Option.some.inj (TwiceQueued.held.symm.trans hh)]
  obtain ⟨t, ht, -, -, -, hchan, -⟩ := hperformed (by decide +kernel) hclean (by decide +kernel)
  have hqueue := TwiceQueued.queue_after
  rw [ht, TwiceQueued.nextQueue, hchan] at hqueue
  exact absurd hqueue (by decide)

end Sys2Proof.Machine
end

section
/-!
PROOF of O57: a Hallmark finds one flipped bit.
-/

namespace Sys2Proof

/-! ## One byte into the CRC (R166) -/

/-- One bit of a byte into the CRC: a shift, and the polynomial where a one leaves. -/
def crc16Bit (c : BitVec 16) : BitVec 16 := if c.msb then (c <<< 1) ^^^ 0x8BB7#16 else c <<< 1

theorem crc16Byte_eq (c : BitVec 16) (b : Byte) : crc16Byte c b = crc16Bit^[8] (c ^^^ (b.setWidth 16 <<< 8)) := rfl

theorem getLsbD_crc16Bit (c : BitVec 16) {k : Nat} (hk : k < 16) : (crc16Bit c).getLsbD k =
    ((c.msb && (0x8BB7#16).getLsbD k) ^^ (decide (0 < k) && c.getLsbD (k - 1))) := by
  have hpos : (!decide (k < 1)) = decide (0 < k) := by
    rw [← decide_not]
    exact decide_eq_decide.mpr (by omega)
  have hshift : (c <<< 1).getLsbD k = (decide (0 < k) && c.getLsbD (k - 1)) := by
    rw [BitVec.getLsbD_shiftLeft, decide_eq_true hk, Bool.true_and, hpos]
  unfold crc16Bit
  cases c.msb with
  | false => rw [if_neg Bool.false_ne_true, hshift, Bool.false_and, Bool.false_xor]
  | true => rw [if_pos rfl, BitVec.getLsbD_xor, hshift, Bool.true_and, Bool.xor_comm]

/-- The polynomial is odd, so the lowest bit tells what has left, and the others what has stayed. -/
theorem crc16Bit_injective : Function.Injective crc16Bit := fun c d h => by
  have hbit {k : Nat} (hk : k < 16) := congrArg (BitVec.getLsbD · k) h
  have hmsb : c.msb = d.msb := by
    have hlow := hbit (k := 0) (by decide)
    simpa only [getLsbD_crc16Bit _ (show 0 < 16 by decide), Nat.lt_irrefl, decide_false, Bool.false_and, Bool.xor_false,
      show (0x8BB7#16).getLsbD 0 = true from rfl, Bool.and_true] using hlow
  refine BitVec.eq_of_getLsbD_eq fun k hk => ?_
  by_cases hlast : k = 15
  · rw [hlast]
    exact hmsb
  · have hup := hbit (k := k + 1) (by omega)
    simpa only [getLsbD_crc16Bit _ (show k + 1 < 16 by omega), hmsb, Nat.succ_pos, decide_true, Bool.true_and, Bool.xor_right_inj,
      Nat.add_sub_cancel] using hup

theorem crc16Byte_injective_left (b : Byte) : Function.Injective (crc16Byte · b) := fun c d h => by
  simp only [crc16Byte_eq] at h
  exact (BitVec.xor_left_inj _).mp (crc16Bit_injective.iterate 8 h)

theorem crc16Byte_injective_right (c : BitVec 16) : Function.Injective (crc16Byte c) := fun a b h => by
  rw [crc16Byte_eq, crc16Byte_eq] at h
  have hshift := (BitVec.xor_right_inj _).mp (crc16Bit_injective.iterate 8 h)
  refine BitVec.eq_of_getLsbD_eq fun k hk => ?_
  have hbit := congrArg (BitVec.getLsbD · (k + 8)) hshift
  simpa only [BitVec.getLsbD_shiftLeft, BitVec.getLsbD_setWidth, show k + 8 < 16 by omega, show ¬k + 8 < 8 by omega,
    show k < 16 by omega, Nat.add_sub_cancel, decide_true, decide_false, Bool.not_false, Bool.true_and] using hbit

/-! ## One byte of many -/

/-- Two runs of bytes that differ in one place leave different CRCs. -/
theorem foldl_crc16_ne {f g : Nat → Byte} {i : Nat} (hne : f i ≠ g i) (heq : ∀ j, j ≠ i → f j = g j) (init : BitVec 16) {n : Nat}
    (hi : i < n) : crc16 init ((List.range n).map f) ≠ crc16 init ((List.range n).map g) := by
  have hsucc (h : Nat → Byte) (m : Nat) :
      crc16 init ((List.range (m + 1)).map h) = crc16Byte (crc16 init ((List.range m).map h)) (h m) := by
    simp [crc16, List.range_succ]
  induction n with
  | zero => exact absurd hi (Nat.not_lt_zero i)
  | succ m ih =>
    rw [hsucc, hsucc]
    by_cases him : i = m
    · subst him
      have hprefix : (List.range i).map f = (List.range i).map g :=
        List.map_congr_left fun j hj => heq j (List.mem_range.mp hj).ne
      rw [hprefix]
      exact fun h => hne (crc16Byte_injective_right _ h)
    · rw [heq m (Ne.symm him)]
      exact fun h => ih (by omega) (crc16Byte_injective_left _ h)

theorem getLsbD_byteOf {w : Nat} (x : BitVec w) (k : Nat) {i : Nat} (hi : i < 8) : (byteOf x k).getLsbD i = x.getLsbD (8 * k + i) := by
  rw [byteOf, BitVec.getLsbD_ofNat, Nat.testBit_shiftRight, decide_eq_true hi, Bool.true_and, BitVec.getLsbD]

theorem getLsbD_flip (d : SectorBits) {k j : Nat} (hk : k < 512) : (d ^^^ 1#512 <<< k).getLsbD j = (d.getLsbD j ^^ decide (j = k)) := by
  have hone : (1#512 <<< k).getLsbD j = decide (j = k) := by
    rw [BitVec.getLsbD_shiftLeft, BitVec.getLsbD_one]
    by_cases h : j = k
    · simp [h, hk]
    · simp [h]
      omega
  rw [BitVec.getLsbD_xor, hone]

/-- Settles O57: the flipped bit lies in one byte, whose place in the run the CRC tells. -/
theorem hallmarkFindsAFlippedBit : Obligations.HallmarkFindsAFlippedBit := by
  intro d k hk
  refine foldl_crc16_ne (i := k / 8) (fun h => ?_) (fun j hj => ?_) _ (by omega)
  · have hbit := congrArg (BitVec.getLsbD · (k % 8)) h
    have hmod : k % 8 < 8 := Nat.mod_lt _ (by decide)
    rw [getLsbD_byteOf _ _ hmod, getLsbD_byteOf _ _ hmod, Nat.div_add_mod, getLsbD_flip d hk] at hbit
    simp at hbit
  · refine BitVec.eq_of_getLsbD_eq fun i hi => ?_
    have hne : 8 * j + i ≠ k := by omega
    rw [getLsbD_byteOf _ _ hi, getLsbD_byteOf _ _ hi, getLsbD_flip d hk]
    simp [hne]

end Sys2Proof
end

section
/-!
SUPPORT. What a port's credits, tags and answers leave alone (R168 to R171, R224), and the requests that a port takes (R172 steps 1 to 3).
-/

namespace Sys2Proof.Machine

/-! ## The frames -/

/-- From `s` to `t` only the ports' traffic, what was sent and the energy have moved, of the ports only `p`; what waits stays. -/
structure State.PortMoved (s t : State) (p : Nat) : Prop where
  rest : t = { s with sent := t.sent, power := t.power, ports := { t.ports with waits := s.ports.waits } }
  others : s.otherPorts t p

/-- What was sent, beside credit returns. -/
def State.answers (s : State) : List Sent := s.sent.filter fun o => !o.isCredit

/-- From `s` to `t` only credits have moved, with the counts of traffic: no tag has, and beside credit returns nothing was sent. -/
structure State.CreditsMoved (s t : State) (p : Nat) : Prop where
  moved : s.PortMoved t p
  tags : (t.port p).tags = (s.port p).tags
  answers : t.answers = s.answers

/-- From `s` to `t` only the accounts and pools of port `p` have changed, and credit returns were sent. -/
structure State.Recredited (s t : State) (p : Nat) : Prop where
  only : PortsOnly s t
  others : s.otherPorts t p
  port : t.port p = { s.port p with accounts := (t.port p).accounts, pools := (t.port p).pools }
  answers : t.answers = s.answers

namespace State.PortMoved

theorem refl (s : State) (p : Nat) : s.PortMoved s p := ⟨rfl, fun _ _ => rfl⟩

section
variable {s t u : State} {p : Nat} (h : s.PortMoved t p)
include h

theorem trans (g : t.PortMoved u p) : s.PortMoved u p :=
  ⟨by rw [g.rest, h.rest], fun q hq => (g.others q hq).trans (h.others q hq)⟩

/-- Whatever reads neither the ports' traffic nor what was sent nor the energy reads the same. -/
theorem congr {α : Type} (f : State → α)
    (hf : ∀ (u : State) (a : List Sent) (b : Power) (c : Ports), f { u with sent := a, power := b, ports := { c with waits := u.ports.waits } } = f u) :
    f t = f s := by rw [h.rest, hf]

theorem regs : t.regs = s.regs := by rw [h.rest]
theorem mem : t.mem = s.mem := by rw [h.rest]
theorem draws : t.draws = s.draws := by rw [h.rest]
theorem anv : t.anv = s.anv := by rw [h.rest]
theorem pl : t.pl = s.pl := by rw [h.rest]
theorem waits : t.ports.waits = s.ports.waits := by rw [h.rest]
theorem regsBut (q : Nat → Prop) : RegsBut s t q := .congr h.regs (.refl s q)

end

theorem setPort (s : State) (p : Nat) (x : Port) : s.PortMoved (s.setPort p x) p := ⟨rfl, fun _ hq => State.port_setPort_other _ _ _ _ hq⟩

theorem emit (s : State) (p : Nat) (o : Sent) : s.PortMoved (s.emit o) p := ⟨rfl, fun _ _ => rfl⟩

end State.PortMoved

namespace State.Recredited

theorem refl (s : State) (p : Nat) : s.Recredited s p := ⟨rfl, fun _ _ => rfl, rfl, rfl⟩

section
variable {s t u : State} {p : Nat} (h : s.Recredited t p)
include h

theorem trans (g : t.Recredited u p) : s.Recredited u p :=
  ⟨h.only.trans g.only, fun q hq => (g.others q hq).trans (h.others q hq), by rw [g.port, h.port], g.answers.trans h.answers⟩

theorem moved : s.PortMoved t p := ⟨by rw [h.only], h.others⟩

theorem sizes : (t.port p).sizes = (s.port p).sizes := by rw [h.port]
theorem returns : (t.port p).returns = (s.port p).returns := by rw [h.port]
theorem btags : (t.port p).btags = (s.port p).btags := by rw [h.port]

theorem credits : s.CreditsMoved t p := ⟨h.moved, by rw [h.port], h.answers⟩

end

variable (s : State) (p : Nat)

theorem setPort {x : Port} (h : x = { s.port p with accounts := x.accounts, pools := x.pools }) : s.Recredited (s.setPort p x) p :=
  ⟨rfl, fun _ hq => State.port_setPort_other _ _ _ _ hq, by rw [State.port_setPort_same]; exact h, rfl⟩

theorem credit (tc part a b : Nat) : s.Recredited (s.emit (.credit p tc part a b)) p := ⟨rfl, fun _ _ => rfl, rfl, rfl⟩

theorem sendCredit (part tc : Nat) (c : Credits) : s.Recredited (s.sendCredit p part tc c) p := by
  unfold State.sendCredit
  dsimp only
  split <;> split
  · exact refl s p
  · exact credit ..
  · exact credit ..
  · exact (credit ..).trans (credit ..)

theorem topUp (part tc : Nat) : s.Recredited (s.topUp p part tc) p := by
  unfold State.topUp
  exact (setPort s p rfl).trans (sendCredit ..)

theorem rebalance (tc : Nat) : s.Recredited (s.rebalance p tc) p :=
  List.foldlRecOn (motive := fun u : State => s.Recredited u p) _ _ (refl s p) fun u hu n _ => hu.trans (topUp u p n tc)

theorem giveBack (h : HeldReturn) : s.Recredited (s.giveBack p h) p := by
  unfold State.giveBack
  dsimp only
  split
  · exact (setPort s p rfl).trans (sendCredit ..)
  · exact ((setPort s p rfl).trans (sendCredit ..)).trans (rebalance ..)

end State.Recredited

namespace State.CreditsMoved

theorem refl (s : State) (p : Nat) : s.CreditsMoved s p := ⟨.refl s p, rfl, rfl⟩

theorem trans {s t u : State} {p : Nat} (h : s.CreditsMoved t p) (g : t.CreditsMoved u p) : s.CreditsMoved u p :=
  ⟨h.moved.trans g.moved, g.tags.trans h.tags, g.answers.trans h.answers⟩

/-- Steps that leave the ports themselves, and what was sent. -/
theorem of_rest {s t : State} (p : Nat) (hr : t = { s with power := t.power, ports := { t.ports with waits := s.ports.waits } })
    (hp : t.ports.port = s.ports.port) : s.CreditsMoved t p := by
  have hport (q : Nat) : t.port q = s.port q := by rw [State.port, hp, State.port]
  have hsent : t.sent = s.sent := by rw [hr]
  refine ⟨⟨by rw [hr], fun q _ => hport q⟩, by rw [hport], by rw [State.answers, hsent, State.answers]⟩

variable (s : State) (p : Nat)

theorem setPort {x : Port} (h : x.tags = (s.port p).tags) : s.CreditsMoved (s.setPort p x) p :=
  ⟨.setPort s p x, by rw [State.port_setPort_same, h], rfl⟩

/-- R171: a credit return, given or held back. -/
theorem returnCredit (part tc a b : Nat) : s.CreditsMoved (s.returnCredit p part tc a b) p := by
  have hold (t : State) (h : HeldReturn) : t.CreditsMoved (t.setPort p { t.port p with returns := (t.port p).returns ++ [h] }) p :=
    setPort t p rfl
  unfold State.returnCredit
  split
  · exact refl s p
  · split
    · have hstalls (x : Tab Nat) : s.CreditsMoved { s with ports := { s.ports with stalls := x } } p := of_rest p rfl rfl
      exact (hstalls _).trans (hold _ _)
    · split
      · exact hold _ _
      · exact (Recredited.giveBack ..).credits

theorem charge (part cls k : Nat) : s.CreditsMoved (s.charge part cls k) p := by
  unfold State.charge
  dsimp only
  split
  · exact refl s p
  · exact of_rest p rfl rfl

theorem spend (part bytes : Nat) : s.CreditsMoved (s.spend part bytes) p := by
  unfold State.spend
  split
  · exact refl s p
  · exact of_rest p rfl rfl

/-- R224: the bytes that go in or out are counted. -/
theorem traffic (part n : Nat) (inbound : Bool) : s.CreditsMoved (s.traffic part n inbound) p := by
  unfold State.traffic
  dsimp only
  refine trans (trans ?_ (spend _ p _ _)) (charge _ p _ _ _)
  split <;> exact of_rest p rfl rfl

theorem takeCredits (h : ReqHdr) (n : Nat) : s.CreditsMoved (s.takeCredits p h n) p :=
  (Recredited.setPort s p rfl).credits

end State.CreditsMoved

/-! ## Answers (R162, R168) -/

section
variable {s t u : State} {p : Nat} {h : ReqHdr} {st : Status} {hm : Bool} {xs : List Sec}

theorem State.answered.credits (g : s.answered t p h st hm xs) (m : t.CreditsMoved u p) : s.answered u p h st hm xs :=
  ⟨m.answers.trans g.1, by rw [m.tags, g.2]⟩

theorem State.answered.of_answers (g : t.answered u p h st hm xs) (e : t.answers = s.answers) : s.answered u p h st hm xs :=
  ⟨g.1.trans (congrArg (_ :: ·) e), g.2⟩

theorem egress_good {x : Sec} (hx : x.good = true) : egress x = x := if_pos hx

/-- An answer whose sectors pass their check on the way out. -/
theorem State.respond_answers (s : State) (p : Nat) (h : ReqHdr) (st : Status) (hm : Bool) (hx : ∀ x ∈ xs, x.good = true) :
    s.PortMoved (s.respond p h st hm xs) p ∧ s.answered (s.respond p h st hm xs) p h st hm xs := by
  have hbad : (xs.any fun x => !x.good) = false := List.any_eq_false.mpr fun x hm => by simp [hx x hm]
  have hmap : xs.map egress = xs := (List.map_congr_left fun x hm => egress_good (hx x hm)).trans (List.map_id xs)
  simp only [State.respond, hbad, State.when_false, Bool.false_eq_true, if_false, hmap]
  generalize hsent : s.emit (.rsp p h.tag h.part h.tc st hm xs) = e
  have htraffic := State.CreditsMoved.traffic e p h.part.toNat xs.length false
  generalize e.traffic h.part.toNat xs.length false = t at htraffic
  have hreturn := State.CreditsMoved.returnCredit
    (t.setPort p { t.port p with tags := Tab.set (fun _ => false) (t.port p).tags h.tag.toNat false }) p h.part.toNat h.tc.toNat 1 0
  refine ⟨?_, ?_, ?_⟩
  · exact (((hsent ▸ .emit s p _ : s.PortMoved e p).trans htraffic.moved).trans (.setPort t p _)).trans hreturn.moved
  · exact hreturn.answers.trans (htraffic.answers.trans (by rw [← hsent]; rfl))
  · rw [hreturn.tags, State.port_setPort_same, Tab.get_set_same]

end

/-! ## Headers that a port takes (R172 steps 1 to 3) -/

/-- The port takes the header of TYPE `code`, which carries `n` sectors. -/
structure State.HeaderPasses (s : State) (p : Nat) (code : BitVec 4) (h : ReqHdr) (n : Nat) : Prop where
  powered : s.life.porstN = true
  serving : s.life.closing = false
  sound : s.flag F.PT_STAT_FAULT p = false
  good : h.good code = true
  tc : h.tc.toNat < 2
  hdr : 1 ≤ ((s.port p).account h.p h.tc.toNat).held.hdr
  sect : n ≤ ((s.port p).account h.p h.tc.toNat).held.sect
  tag : Tab.get (fun _ => false) (s.port p).tags h.tag.toNat = false

section
variable {s : State} {p : Nat} {code : BitVec 4} {h : ReqHdr} {n : Nat}

theorem State.HeaderPasses.entry (g : s.HeaderPasses p code h n) : s.entry p code h n = (true, s.takeCredits p h n) := by
  have htag : Tab.get (fun _ => false) ((s.takeCredits p h n).port p).tags h.tag.toNat = false := by
    rw [(State.CreditsMoved.takeCredits s p h n).tags, g.tag]
  have henough : ¬(2 ≤ h.tc.toNat ∨ ((s.port p).account h.p h.tc.toNat).held.hdr < 1 ∨ ((s.port p).account h.p h.tc.toNat).held.sect < n) := by
    have htc := g.tc
    have hhdr := g.hdr
    have hsect := g.sect
    omega
  simp only [State.entry, g.powered, g.serving, g.sound, g.good, henough, htag, Bool.not_true, Bool.false_and, Bool.false_eq_true, if_false]

/-- The state once a port has taken a header: its credits are used, its tag is busy, and nothing was sent. -/
structure State.TookHeader (s u : State) (p : Nat) (h : ReqHdr) : Prop where
  moved : s.PortMoved u p
  sent : u.sent = s.sent
  nextSeq : u.ports.nextSeq = s.ports.nextSeq
  tag : Tab.get (fun _ => false) (u.port p).tags h.tag.toNat = true

theorem State.sent_traffic (s : State) (part n : Nat) (b : Bool) :
    (s.traffic part n b).sent = s.sent ∧ (s.traffic part n b).ports.nextSeq = s.ports.nextSeq := by
  have hspend (t : State) (k : Nat) : (t.spend part k).sent = t.sent ∧ (t.spend part k).ports.nextSeq = t.ports.nextSeq := by
    unfold State.spend
    split <;> exact ⟨rfl, rfl⟩
  have hcharge (t : State) (k : Nat) : (t.charge part 0 k).sent = t.sent ∧ (t.charge part 0 k).ports.nextSeq = t.ports.nextSeq := by
    unfold State.charge
    dsimp only
    split <;> exact ⟨rfl, rfl⟩
  unfold State.traffic
  dsimp only
  rw [(hcharge _ _).1, (hcharge _ _).2, (hspend _ _).1, (hspend _ _).2]
  cases b <;> exact ⟨rfl, rfl⟩

theorem State.HeaderPasses.ingress (g : s.HeaderPasses p code h n) : ∃ u, s.ingress p code h n = (true, u) ∧ s.TookHeader u p h := by
  have hcredits := State.CreditsMoved.takeCredits s p h n
  generalize hv : (s.takeCredits p h n).setPort p
    { (s.takeCredits p h n).port p with tags := Tab.set (fun _ => false) ((s.takeCredits p h n).port p).tags h.tag.toNat true } = v
  have htraffic := State.CreditsMoved.traffic v p h.p n true
  obtain ⟨hsent, hseq⟩ := v.sent_traffic h.p n true
  refine ⟨v.traffic h.p n true, ?_, ?_, ?_, ?_, ?_⟩
  · rw [State.ingress, g.entry, ← hv]
  · exact (hcredits.moved.trans (hv ▸ .setPort _ p _)).trans htraffic.moved
  · rw [hsent, ← hv]
    rfl
  · rw [hseq, ← hv]
    rfl
  · rw [htraffic.tags, ← hv, State.port_setPort_same, Tab.get_set_same]

end

theorem State.taken.passes {s : State} {p : Nat} {k : ReqType} {r : PortReq} (h : s.taken p k r) :
    p < 32 ∧ s.HeaderPasses p k.code r.hdr (carried k r.hdr) := by
  obtain ⟨hp, powered, serving, sound, good, tc, hdr, sect, tag⟩ := h
  exact ⟨hp, powered, serving, sound, good, tc, hdr, sect, tag⟩

/-! ## Requests (R172) -/

theorem exec_request (k : ReqType) (p : Nat) (r : PortReq) (s : State) : exec (k.instr p r) s = .next (s.request p k r) := by
  cases k <;> rfl

end Sys2Proof.Machine
end

section
/-!
SUPPORT. The steps of R172 for a request that its port has taken, one by one.
-/

namespace Sys2Proof.Machine

/-! ## Ranges of one request (R173) -/

theorem granulesOf_burst {a len : Nat} (h0 : 0 < len) (h : a % 2048 + len ≤ 2048) : granulesOf a len = [a / gib] := by
  have hlast : (a + len - 1) / gib + 1 - a / gib = 1 := by
    unfold gib
    omega
  rw [granulesOf, if_neg h0.ne', hlast]
  rfl

theorem ReqType.kind_ne_acc {k : ReqType} (h : k ≠ .acc) : k.kind ≠ .acc := by
  cases k with
  | acc => exact absurd rfl h
  | rd | wr | wrFinal | atom | rndrd | door => exact ReqKind.noConfusion

section
variable {s : State} {k : ReqType} {h : ReqHdr}

/-- A well-formed request to memory, but an ACC, lies in one burst. -/
theorem State.formOk_burst (hf : s.formOk k h = true) (hw : windowOf h.a = .memory) (hk : k ≠ .acc) :
    0 < reqBytes k.kind.type h ∧ h.a % 2048 + reqBytes k.kind.type h ≤ 2048 := by
  have hlen : 0 < h.len := Nat.succ_pos _
  simp only [State.formOk, hw, Bool.and_eq_true] at hf
  obtain ⟨-, hf⟩ := hf
  cases k with
  | rd | wr | wrFinal =>
    have hburst : inBurst h = true := by simp_all
    exact ⟨by change 0 < 64 * h.len; omega, of_decide_eq_true hburst⟩
  | atom =>
    have hal : h.a % (if h.asz = 1#1 then 8 else 4) = 0 := by simp_all
    change 0 < (if h.asz = 1#1 then 8 else 4) ∧ h.a % 2048 + (if h.asz = 1#1 then 8 else 4) ≤ 2048
    split at hal <;> simp only [*, if_true, if_false] <;> omega
  | rndrd | door => simp at hf
  | acc => exact absurd rfl hk

/-- R131: a request of one burst meets a REGION_SET only in its own granule. -/
theorem State.rangeStops_ne_region {q : Req} (hk : q.kind ≠ .acc) (h0 : 0 < reqBytes q.kind.type q.r.hdr)
    (h : q.r.hdr.a % 2048 + reqBytes q.kind.type q.r.hdr ≤ 2048) (hr : s.regionHeld q.r.hdr.a = false) : s.rangeStops q ≠ some .region := by
  have hrange : s.reqRange q = (q.r.hdr.a, reqBytes q.kind.type q.r.hdr) := by
    unfold State.reqRange
    split
    · contradiction
    · rfl
  have hbusy : s.flag F.RG_GRAN_BUSY (q.r.hdr.a / gib) = false := hr
  simp only [State.rangeStops, hrange, granulesOf_burst h0 h, List.any_cons, List.any_nil, hbusy, Bool.or_self, Bool.false_eq_true, if_false]
  split <;> simp

end

/-! ## What becomes of a request (R172 steps 5 to 9) -/

section
variable {s u : State} {p : Nat} {k : ReqType} {r : PortReq} (hp : p < 32)
  (hi : s.ingress p k.code r.hdr (carried k r.hdr) = (true, u))
include hp hi

theorem State.request_foreign (hpart : u.partOk p r.hdr = false) :
    s.request p k r = u.refuse p k r.hdr .notPermitted false (carried k r.hdr) := by
  simp only [State.request, if_neg (show ¬32 ≤ p by omega), hi, hpart, Bool.not_false, if_true]

variable (hpart : u.partOk p r.hdr = true)
include hpart

theorem State.request_malformed (hform : u.formOk k r.hdr = false) (hw : windowOf r.hdr.a = .memory) :
    s.request p k r = u.refuse p k r.hdr .badArg false (carried k r.hdr) := by
  have hcount : countsDoorErr k r.hdr = false := by rw [countsDoorErr, hw]; rfl
  simp only [State.request, if_neg (show ¬32 ≤ p by omega), hi, hpart, hform, hcount, Bool.not_true, Bool.not_false, Bool.false_eq_true,
    if_false, if_true, State.when_false]

variable (hform : u.formOk k r.hdr = true)
  (hregion : windowOf r.hdr.a = .memory → u.rangeStops ⟨p, u.ports.nextSeq, k.kind, r, true, false⟩ ≠ some .region)
include hform hregion

theorem State.request_judged : s.request p k r = match u.lateCheck k r with
    | some x => u.refuseLate p k r x (carried k r.hdr)
    | none => u.act p k r := by
  have hfree : (windowOf r.hdr.a == .memory && u.rangeStops ⟨p, u.ports.nextSeq, k.kind, r, true, false⟩ == some .region) = false := by
    by_cases hw : windowOf r.hdr.a = .memory
    · simp [hregion hw]
    · simp [hw]
  simp only [State.request, if_neg (show ¬32 ≤ p by omega), hi, hpart, hform, hfree, Bool.not_true, Bool.false_eq_true,
    if_false] <;> rfl

end

/-! ## Refusals -/

/-- An accepted request that is refused is answered, and its credits return (R171). -/
theorem State.refuse_answers (s : State) (p : Nat) (k : ReqType) (h : ReqHdr) (st : Status) (hm : Bool) (n : Nat) :
    s.PortMoved (s.refuse p k h st hm n) p ∧
      s.answered (s.refuse p k h st hm n) p h st hm (if k = .atom ∧ st = .dataFault ∧ hm = false then [faultSec] else []) := by
  have hxs : (if (k == .atom && st == .dataFault && !hm) = true then [faultSec] else []) =
      if k = .atom ∧ st = .dataFault ∧ hm = false then [faultSec] else [] := by
    simp [and_assoc]
  obtain ⟨hmoved, hanswered⟩ := s.respond_answers (xs := if k = .atom ∧ st = .dataFault ∧ hm = false then [faultSec] else []) p h st hm
    fun x hx => by
      split at hx
      · rw [List.mem_singleton.mp hx]
        simp [Sec.good, faultSec]
      · cases hx
  rw [State.refuse, hxs]
  generalize s.respond p h st hm _ = t at hmoved hanswered
  have hreturn := State.CreditsMoved.returnCredit t p h.p h.tc.toNat 0 n
  exact ⟨hmoved.trans hreturn.moved, hanswered.credits hreturn⟩

end Sys2Proof.Machine
end

section
/-!
PROOF of O32: the admission steps drop or refuse a request.
-/

namespace Sys2Proof.Machine

/-! ## Headers that a port drops (R172 steps 1 to 3, R182, R321) -/

/-- What counting an event of port `p` in PT_PROTOp may write (R182, R327). -/
def ProtoRegs (p o : Nat) : Prop := o = Reg.offset .PT_PROTO p ∨ o = Reg.offset .MW_IRQ_CAUSE 0

section
variable {s : State} {p : Nat}

theorem State.protoErr_wrote : s.Wrote (s.protoErr p) (ProtoRegs p) := (State.Wrote.refl s _).count _ _ _ _ (.inl rfl) (.inl rfl) (.inr rfl)

theorem proto_ne_irq : Reg.offset .PT_PROTO p ≠ Reg.offset .MW_IRQ_CAUSE 0 := by
  simp only [Reg.offset, Reg.base, Reg.stride]
  omega

theorem State.protoErr_count : (s.protoErr p).fld F.PT_PROTO_COUNT p = (s.fld F.PT_PROTO_COUNT p + 1) % 2 ^ 48 :=
  State.fld_count _ _ _ _ _ (by decide) rfl (by decide) proto_ne_irq

/-- R187: a flag of PT_FLAGSp is set, with the port interrupt. -/
theorem State.portFlag_wrote {f : Fld} (hf : f.reg = .PT_FLAGS) :
    s.Wrote (s.portFlag f p) fun o => o = Reg.offset .PT_FLAGS p ∨ o = Reg.offset .MW_IRQ_CAUSE 0 :=
  ((State.Wrote.refl s _).put f p 1 (.inl (by rw [hf]))).raise _ (.inr rfl)

theorem flags_ne_irq : Reg.offset .PT_FLAGS p ≠ Reg.offset .MW_IRQ_CAUSE 0 := by
  simp only [Reg.offset, Reg.base, Reg.stride]
  omega

theorem State.portFlag_sets {f : Fld} (hf : f.reg = .PT_FLAGS) (h1 : f.w = 1) (hlo : f.lo < 64) : (s.portFlag f p).fld f p = 1 := by
  rw [State.portFlag, State.fld_raise _ _ (by rw [hf]; exact flags_ne_irq), fld_put_same _ _ _ _ (by omega), h1]
  rfl

theorem State.protoErr_flag_wrote {f : Fld} (hf : f.reg = .PT_FLAGS) : s.Wrote ((s.protoErr p).portFlag f p) fun o =>
    o = Reg.offset .PT_PROTO p ∨ o = Reg.offset .PT_FLAGS p ∨ o = Reg.offset .MW_IRQ_CAUSE 0 :=
  (State.protoErr_wrote.mono fun _ h => h.imp_right .inr).trans ((State.portFlag_wrote hf).mono fun _ h => .inr h)

theorem State.portFlag_interrupts (f : Fld) : (s.portFlag f p).bit F.MW_IRQ_CAUSE_EVENT 0 1 = true := State.bit_raise _ .port

theorem proto_ne_flags : Reg.offset .PT_PROTO p ≠ Reg.offset .PT_FLAGS p := by
  simp only [Reg.offset, Reg.base, Reg.stride]
  omega

theorem State.portFlag_proto {f : Fld} (hf : f.reg = .PT_FLAGS) : (s.portFlag f p).fld F.PT_PROTO_COUNT p = s.fld F.PT_PROTO_COUNT p :=
  (State.portFlag_wrote hf).regs.fld_eq fun h => h.elim proto_ne_flags proto_ne_irq

end

section
variable {s t : State} {p : Nat} {k : ReqType} {r : PortReq}

/-- A header that is dropped leaves what the drop has made. -/
theorem exec_dropped (hp : p < 32) (h : s.entry p k.code r.hdr (carried k r.hdr) = (false, t)) : exec (k.instr p r) s = .next t := by
  rw [exec_request]
  simp only [State.request, if_neg (show ¬32 ≤ p by omega), State.ingress, h]

variable {code : BitVec 4} {h : ReqHdr} {n : Nat} (hpow : s.life.porstN = true)
include hpow

theorem State.entry_closing (hc : s.life.closing = true) (hr : s.flag F.PT_STAT_RELEASED p = true) :
    s.entry p code h n = (false, s.count F.LC_DROPS_COUNT F.LC_DROPS_OVF 0 1) := by
  simp only [State.entry, hpow, hc, hr, Bool.not_true, Bool.false_eq_true, if_false, Bool.and_self, if_true]

variable (hopen : s.life.closing = false ∨ s.flag F.PT_STAT_RELEASED p = false)
include hopen

theorem State.entry_fault (hf : s.flag F.PT_STAT_FAULT p = true) : s.entry p code h n = (false, s.protoErr p) := by
  simp only [State.entry, hpow, Bool.and_eq_false_iff.mpr hopen, hf, Bool.not_true, Bool.false_eq_true, if_false, if_true]

variable (hf : s.flag F.PT_STAT_FAULT p = false)
include hf

theorem State.entry_badHcrc (hg : h.good code = false) :
    s.entry p code h n = (false, ((s.protoErr p).portFlag F.PT_FLAGS_HCRC_ERR p).put F.PT_STAT_FAULT p 1) := by
  simp only [State.entry, hpow, Bool.and_eq_false_iff.mpr hopen, hf, hg, Bool.not_true, Bool.not_false, Bool.false_eq_true, if_false, if_true]

theorem State.entry_noCredit (hg : h.good code = true) (hlow : ((s.port p).account h.p h.tc.toNat).held.hdr = 0 ∨
      ((s.port p).account h.p h.tc.toNat).held.sect < n) :
    s.entry p code h n = (false, (s.protoErr p).portFlag F.PT_FLAGS_NO_CREDIT p) := by
  have hshort : 2 ≤ h.tc.toNat ∨ ((s.port p).account h.p h.tc.toNat).held.hdr < 1 ∨ ((s.port p).account h.p h.tc.toNat).held.sect < n := by
    omega
  simp only [State.entry, hpow, Bool.and_eq_false_iff.mpr hopen, hf, hg, Bool.not_true, Bool.false_eq_true, if_false, if_pos hshort]

end

section
variable {s : State} {p : Nat} {k : ReqType} {r : PortReq} (hp : p < 32) (hpow : s.life.porstN = true)
include hp hpow

/-- R321: while a released block closes. -/
theorem request_dropped_closing (hc : s.life.closing = true) (hr : s.flag F.PT_STAT_RELEASED p = true) :
    ∃ t, exec (k.instr p r) s = .next t ∧ t = { s with regs := t.regs } ∧
      t.fld F.LC_DROPS_COUNT 0 = (s.fld F.LC_DROPS_COUNT 0 + 1) % 2 ^ 48 ∧
      RegsBut s t (fun o => o = Reg.offset .LC_DROPS 0 ∨ o = Reg.offset .MW_IRQ_CAUSE 0) := by
  have hw : s.Wrote (s.count F.LC_DROPS_COUNT F.LC_DROPS_OVF 0 1) fun o => o = Reg.offset .LC_DROPS 0 ∨ o = Reg.offset .MW_IRQ_CAUSE 0 :=
    (State.Wrote.refl s _).count _ _ _ _ (.inl rfl) (.inl rfl) (.inr rfl)
  exact ⟨_, exec_dropped hp (State.entry_closing hpow hc hr), hw.rest, State.fld_count _ _ _ _ _ (by decide) rfl (by decide) (by decide),
    hw.regs⟩

variable (hopen : s.life.closing = false ∨ s.flag F.PT_STAT_RELEASED p = false)
include hopen

/-- R182: by a port in FAULT. -/
theorem request_dropped_fault (hf : s.flag F.PT_STAT_FAULT p = true) : ∃ t, exec (k.instr p r) s = .next t ∧ t = { s with regs := t.regs } ∧
    t.fld F.PT_PROTO_COUNT p = (s.fld F.PT_PROTO_COUNT p + 1) % 2 ^ 48 ∧
    RegsBut s t (fun o => o = Reg.offset .PT_PROTO p ∨ o = Reg.offset .MW_IRQ_CAUSE 0) :=
  ⟨_, exec_dropped hp (State.entry_fault hpow hopen hf), State.protoErr_wrote.rest, State.protoErr_count, State.protoErr_wrote.regs⟩

variable (hf : s.flag F.PT_STAT_FAULT p = false)
include hf

/-- R172 step 1: for a failing HCRC. -/
theorem request_dropped_badHcrc (hg : r.hdr.good k.code = false) : ∃ t, exec (k.instr p r) s = .next t ∧ t = { s with regs := t.regs } ∧
    t.fld F.PT_PROTO_COUNT p = (s.fld F.PT_PROTO_COUNT p + 1) % 2 ^ 48 ∧ t.fld F.PT_FLAGS_HCRC_ERR p = 1 ∧
    t.fld F.PT_STAT_FAULT p = 1 ∧ t.bit F.MW_IRQ_CAUSE_EVENT 0 1 = true ∧
    RegsBut s t (fun o => o = Reg.offset .PT_PROTO p ∨ o = Reg.offset .PT_FLAGS p ∨ o = Reg.offset .PT_STAT p ∨
      o = Reg.offset .MW_IRQ_CAUSE 0) := by
  have hstat : Reg.offset .PT_PROTO p ≠ Reg.offset .PT_STAT p ∧ Reg.offset .PT_FLAGS p ≠ Reg.offset .PT_STAT p ∧
      Reg.offset .MW_IRQ_CAUSE 0 ≠ Reg.offset .PT_STAT p := by
    simp only [Reg.offset, Reg.base, Reg.stride]
    omega
  obtain ⟨hproto, hflags, hirq⟩ := hstat
  have hw := ((State.protoErr_flag_wrote (s := s) (p := p) (f := F.PT_FLAGS_HCRC_ERR) rfl).mono fun o h =>
    show o = Reg.offset .PT_PROTO p ∨ o = Reg.offset .PT_FLAGS p ∨ o = Reg.offset .PT_STAT p ∨ o = Reg.offset .MW_IRQ_CAUSE 0 from
      h.imp_right (·.imp_right .inr)).put F.PT_STAT_FAULT p 1 (.inr (.inr (.inl rfl)))
  refine ⟨_, exec_dropped hp (State.entry_badHcrc hpow hopen hf hg), hw.rest, ?_, ?_, fld_put_same _ _ _ _ (by decide), ?_, hw.regs⟩
  · rw [fld_put_other _ F.PT_STAT_FAULT F.PT_PROTO_COUNT _ _ _ hproto, State.portFlag_proto rfl, State.protoErr_count]
  · rw [fld_put_other _ F.PT_STAT_FAULT F.PT_FLAGS_HCRC_ERR _ _ _ hflags, State.portFlag_sets rfl rfl (by decide)]
  · rw [State.bit, fld_put_other _ F.PT_STAT_FAULT F.MW_IRQ_CAUSE_EVENT _ _ _ hirq]
    exact State.portFlag_interrupts _

/-- R172 step 2: for want of credits. -/
theorem request_dropped_noCredit (hg : r.hdr.good k.code = true) (hlow : ((s.port p).account r.hdr.p r.hdr.tc.toNat).held.hdr = 0 ∨
      ((s.port p).account r.hdr.p r.hdr.tc.toNat).held.sect < carried k r.hdr) :
    ∃ t, exec (k.instr p r) s = .next t ∧ t = { s with regs := t.regs } ∧
      t.fld F.PT_PROTO_COUNT p = (s.fld F.PT_PROTO_COUNT p + 1) % 2 ^ 48 ∧ t.fld F.PT_FLAGS_NO_CREDIT p = 1 ∧
      RegsBut s t (fun o => o = Reg.offset .PT_PROTO p ∨ o = Reg.offset .PT_FLAGS p ∨ o = Reg.offset .MW_IRQ_CAUSE 0) := by
  have hw := State.protoErr_flag_wrote (s := s) (p := p) (f := F.PT_FLAGS_NO_CREDIT) rfl
  refine ⟨_, exec_dropped hp (State.entry_noCredit hpow hopen hf hg hlow), hw.rest, ?_, State.portFlag_sets rfl rfl (by decide), hw.regs⟩
  rw [State.portFlag_proto rfl, State.protoErr_count]

end

/-! ## Requests that a port refuses (R172 steps 5 to 9) -/

/-- A request that its port has taken, refused once registers of `R` have been written. -/
theorem State.TookHeader.refused {s u w : State} {p : Nat} {h : ReqHdr} {R : Nat → Prop} (hu : s.TookHeader u p h) (hw : u.Wrote w R)
    (k : ReqType) (st : Status) (hm : Bool) (n : Nat) : ∃ t, w.refuse p k h st hm n = t ∧ t.regs = w.regs ∧ RegsBut s t R ∧
      s.answered t p h st hm (if k = .atom ∧ st = .dataFault ∧ hm = false then [faultSec] else []) ∧ s.otherPorts t p ∧ t.mem = s.mem ∧
      t.draws = s.draws ∧ t.anv = s.anv ∧ t.pl = s.pl ∧ t.ports.waits = s.ports.waits := by
  obtain ⟨hmoved, hanswered⟩ := w.refuse_answers p k h st hm n
  have hsent : w.answers = s.answers := by rw [State.answers, State.answers, hw.rest, hu.sent]
  have hpl : w.pl = u.pl := by rw [hw.rest]
  refine ⟨_, rfl, hmoved.regs, ?_, hanswered.of_answers hsent, fun q hq => ?_, ?_, ?_, ?_, ?_, ?_⟩
  · exact ((hu.moved.regsBut R).trans hw.regs).trans (hmoved.regsBut R)
  · rw [hmoved.others q hq, State.port, hw.ports]
    exact hu.moved.others q hq
  · rw [hmoved.mem, hw.mem, hu.moved.mem]
  · rw [hmoved.draws, hw.draws, hu.moved.draws]
  · rw [hmoved.anv, hw.anv, hu.moved.anv]
  · rw [hmoved.pl, hpl, hu.moved.pl]
  · rw [hmoved.waits, hw.ports, hu.moved.waits]

/-- R167: the sectors that fail their Hallmark are counted. -/
def State.countFailing (s : State) (p : Nat) (k : ReqType) (r : PortReq) : State :=
  (s.count F.PT_HM_COUNT F.PT_HM_OVF p (failing (inbound k r))).portFlag F.PT_FLAGS_HM_IN p

/-- What counting them may write. -/
def FailingRegs (p o : Nat) : Prop := o = Reg.offset .PT_HM p ∨ o = Reg.offset .PT_FLAGS p ∨ o = Reg.offset .MW_IRQ_CAUSE 0

theorem State.countFailing_spec (s : State) (p : Nat) (k : ReqType) (r : PortReq) : s.Wrote (s.countFailing p k r) (FailingRegs p) ∧
    (s.countFailing p k r).fld F.PT_HM_COUNT p = (s.fld F.PT_HM_COUNT p + failing (inbound k r)) % 2 ^ 48 ∧
    (s.countFailing p k r).fld F.PT_FLAGS_HM_IN p = 1 := by
  have hoff : Reg.offset .PT_HM p ≠ Reg.offset .PT_FLAGS p ∧ Reg.offset .PT_HM p ≠ Reg.offset .MW_IRQ_CAUSE 0 := by
    simp only [Reg.offset, Reg.base, Reg.stride]
    omega
  obtain ⟨hflags, hirq⟩ := hoff
  refine ⟨((State.Wrote.refl s _).count _ _ _ _ (.inl rfl) (.inl rfl) (.inr (.inr rfl))).trans ((State.portFlag_wrote rfl).mono fun o => .inr),
    ?_, State.portFlag_sets rfl rfl (by decide)⟩
  rw [State.countFailing, (State.portFlag_wrote rfl).regs.fld_eq fun h => h.elim hflags hirq]
  exact State.fld_count _ _ _ _ _ (by decide) rfl (by decide) hirq

theorem State.refuseLate_eq (s : State) (p : Nat) {k : ReqType} (hk : k ≠ .acc) (r : PortReq) (st : Status) (hm : Bool) (n : Nat) :
    s.refuseLate p k r (st, hm) n = (s.when hm fun s => s.countFailing p k r).refuse p k r.hdr st hm n := by
  have hacc : (k == .acc && st == .notPermitted) = false := by simp [hk]
  rw [State.refuseLate]
  dsimp only
  rw [hacc]
  rfl

section
variable {s : State} {p : Nat} {k : ReqType} {r : PortReq} {st : Status} {hm : Bool}

/-- R172 steps 7 to 9: which check turns a request away. -/
theorem State.lateCheck_some (hw : windowOf r.hdr.a = .memory)
    (h : (st, hm) = if s.permitted k r.hdr = false then (.notPermitted, false)
      else if s.classOk k r.hdr = false then (.regionClass, false)
      else if failing (inbound k r) ≠ 0 then (.dataFault, true) else ((badOperand k r).getD .ok, false)) (hst : st ≠ .ok) :
    s.lateCheck k r = some (st, hm) := by
  unfold State.lateCheck
  split at h
  · next hp => simp [hp, h]
  · next hp =>
    split at h
    · next hc => simp [hp, hc, h]
    · next hc =>
      split at h
      · next hf => simp [hp, hc, hf, h]
      · next hf =>
        obtain ⟨rfl, rfl⟩ := Prod.mk.inj h
        cases hb : badOperand k r with
        | none => simp [hb] at hst
        | some x => simp [hp, hc, hf, hw]

/-- R172 steps 5 to 9: a request that is turned away is refused, once sectors that fail are counted. -/
theorem exec_refused (ht : s.taken p k r) (hk : k ≠ .acc) (hw : windowOf r.hdr.a = .memory) (hr : s.regionHeld r.hdr.a = false)
    (h : (st, hm) = if s.partOk p r.hdr = false then (.notPermitted, false)
      else if s.formOk k r.hdr = false then (.badArg, false)
      else if s.permitted k r.hdr = false then (.notPermitted, false)
      else if s.classOk k r.hdr = false then (.regionClass, false)
      else if failing (inbound k r) ≠ 0 then (.dataFault, true) else ((badOperand k r).getD .ok, false)) (hst : st ≠ .ok) :
    ∃ u, s.TookHeader u p r.hdr ∧
      exec (k.instr p r) s = .next ((u.when hm fun u => u.countFailing p k r).refuse p k r.hdr st hm (carried k r.hdr)) := by
  obtain ⟨hp, hpasses⟩ := ht.passes
  obtain ⟨u, hi, hu⟩ := hpasses.ingress
  have hpart : u.partOk p r.hdr = s.partOk p r.hdr := hu.moved.congr (·.partOk p r.hdr) fun _ _ _ _ => rfl
  have hform : u.formOk k r.hdr = s.formOk k r.hdr := hu.moved.congr (·.formOk k r.hdr) fun _ _ _ _ => rfl
  refine ⟨u, hu, ?_⟩
  rw [exec_request]
  split at h
  · next hno =>
    obtain ⟨rfl, rfl⟩ := Prod.mk.inj h
    rw [State.request_foreign hp hi (hpart.trans hno)]
    rfl
  · next hyes =>
    have hyes := hpart.trans (eq_true_of_ne_false hyes)
    split at h
    · next hno =>
      obtain ⟨rfl, rfl⟩ := Prod.mk.inj h
      rw [State.request_malformed hp hi hyes (hform.trans hno) hw]
      rfl
    · next hwell =>
      have hwell := hform.trans (eq_true_of_ne_false hwell)
      have hregion : u.regionHeld r.hdr.a = false := (hu.moved.congr (·.regionHeld r.hdr.a) fun _ _ _ _ => rfl).trans hr
      obtain ⟨h0, hburst⟩ := State.formOk_burst hwell hw hk
      have hlate : u.lateCheck k r = some (st, hm) :=
        (hu.moved.congr (·.lateCheck k r) fun _ _ _ _ => rfl).trans (State.lateCheck_some hw h hst)
      rw [State.request_judged hp hi hyes hwell fun _ => State.rangeStops_ne_region (ReqType.kind_ne_acc hk) h0 hburst hregion, hlate]
      exact congrArg _ (State.refuseLate_eq u p hk r st hm _)

end

/-- Settles O32: a dropped header leaves the drop's counters and flags, a refused request its answer. -/
theorem requestsAreDroppedOrRefused : Obligations.RequestsAreDroppedOrRefused := by
  refine ⟨fun p k r s hp hpow => ⟨request_dropped_closing hp hpow, request_dropped_fault hp hpow, request_dropped_badHcrc hp hpow,
    fun hopen hf hg _ => request_dropped_noCredit hp hpow hopen hf hg⟩, fun p k r st hm s ht hk _ hw hr h hst => ?_⟩
  obtain ⟨u, hu, hexec⟩ := exec_refused ht hk hw hr h hst
  cases hm with
  | false =>
    obtain ⟨t, rfl, -, hregs, hanswered, hothers, hmem, hdraws, hanv, hpl, hwaits⟩ :=
      hu.refused (.refl u fun o => o = Reg.offset .MW_IRQ_CAUSE 0) k st false (carried k r.hdr)
    exact ⟨_, hexec, hanswered, hothers, hmem, hdraws, hanv, hpl, hwaits, fun _ => hregs, nofun⟩
  | true =>
    obtain ⟨hwrote, hcount, hflag⟩ := u.countFailing_spec p k r
    obtain ⟨t, rfl, hsame, -, hanswered, hothers, hmem, hdraws, hanv, hpl, hwaits⟩ := hu.refused hwrote k st true (carried k r.hdr)
    refine ⟨_, hexec, hanswered, hothers, hmem, hdraws, hanv, hpl, hwaits, nofun, fun _ => ⟨?_, ?_⟩⟩
    · rw [← State.fld_congr hu.moved.regs]
      exact (State.fld_congr hsame _ _).trans hcount
    · exact (State.fld_congr hsame _ _).trans hflag

end Sys2Proof.Machine
end

section
/-!
PROOF of O37: ports reset, starve and resume.
-/

namespace Sys2Proof.Machine

/-! ## Shares granted afresh (R170, R314) -/

/-- The share `c` has been granted to each partition of `l` in class `tc`, out of the pool; nothing else of the accounts has changed. -/
structure State.Granted (s t : State) (p tc : Nat) (l : List Nat) (c : Credits) : Prop where
  moved : s.Recredited t p
  listed : ∀ n ∈ l, (t.port p).account n tc = ⟨c, c⟩
  others : ∀ m cl, (∀ n ∈ l, 2 * m + cl ≠ 2 * n + tc) → (t.port p).account m cl = (s.port p).account m cl
  pools : ∀ cl, cl ≠ tc → (t.port p).pool cl = (s.port p).pool cl

section
variable {s : State} {p tc : Nat} {c : Credits}

@[simp] theorem State.port_sendCredit (s : State) (p part tc : Nat) (c : Credits) (q : Nat) : (s.sendCredit p part tc c).port q = s.port q := by
  unfold State.sendCredit
  dsimp only
  split <;> split <;> rfl

/-- An empty account takes its share where the pool has it. -/
theorem State.port_topUp {n : Nat} (hshare : s.share p n tc = c) (hzero : (s.port p).account n tc = .zero)
    (hh : c.hdr ≤ ((s.port p).pool tc).hdr) (hs : c.sect ≤ ((s.port p).pool tc).sect) :
    (s.topUp p n tc).port p = ((s.port p).setAccount n tc ⟨c, c⟩).setPool tc
      ⟨((s.port p).pool tc).hdr - c.hdr, ((s.port p).pool tc).sect - c.sect⟩ := by
  have hg1 : Nat.min (c.hdr - 0) ((s.port p).pool tc).hdr = c.hdr := Nat.min_eq_left hh
  have hg2 : Nat.min (c.sect - 0) ((s.port p).pool tc).sect = c.sect := Nat.min_eq_left hs
  simp only [State.topUp, State.port_sendCredit, State.port_setPort_same, hshare, hzero, Account.zero, Credits.zero, hg1, hg2, Nat.zero_add]

theorem Port.account_setAccount (x : Port) (n tc m cl : Nat) (a : Account) :
    (x.setAccount n tc a).account m cl = if 2 * m + cl = 2 * n + tc then a else x.account m cl := by
  split
  case isTrue h => exact (congrArg _ h).trans (Tab.get_set_same _ _ _ _)
  case isFalse h => exact Tab.get_set_other _ _ _ _ _ h

theorem Port.pool_setPool (x : Port) (tc cl : Nat) (c : Credits) : (x.setPool tc c).pool cl = if cl = tc then c else x.pool cl := by
  split
  case isTrue h => exact h ▸ Tab.get_set_same _ _ _ _
  case isFalse h => exact Tab.get_set_other _ _ _ _ _ h

theorem State.Recredited.share {t : State} (h : s.Recredited t p) (n cl : Nat) : t.share p n cl = s.share p n cl := by
  have hregs (f : State → Nat → Nat → Nat → Bool) (hf : ∀ s, f s = f (.ofRegs s.regs)) : f t = f s := State.eq_of_regs f hf h.only.regs
  have hshares : t.shares = s.shares := hregs State.shares fun _ => rfl
  have hsize : (t.port p).size = (s.port p).size := funext fun i => by rw [Port.size, h.sizes, Port.size]
  simp only [State.share, State.sharers, hshares, hsize]

/-- Each of a list of empty accounts takes its share where the pool has them all. -/
theorem State.foldl_topUp {l : List Nat} (hl : l.Nodup) : ∀ {s : State}, (∀ n ∈ l, s.share p n tc = c) →
    (∀ n ∈ l, (s.port p).account n tc = .zero) → l.length * c.hdr ≤ ((s.port p).pool tc).hdr →
    l.length * c.sect ≤ ((s.port p).pool tc).sect → s.Granted (l.foldl (fun s n => s.topUp p n tc) s) p tc l c := by
  induction l with
  | nil => exact fun _ _ _ _ => ⟨.refl _ p, nofun, fun _ _ _ => rfl, fun _ _ => rfl⟩
  | cons n l ih =>
    intro s hshare hzero hh hs
    obtain ⟨hn, hl⟩ := List.nodup_cons.mp hl
    simp only [List.length_cons, Nat.add_mul, Nat.one_mul] at hh hs
    have hport := State.port_topUp (hshare n (.head _)) (hzero n (.head _)) (by omega) (by omega)
    have hmoved := State.Recredited.topUp s p n tc
    have haccount (m cl : Nat) : ((s.topUp p n tc).port p).account m cl = if 2 * m + cl = 2 * n + tc then ⟨c, c⟩ else (s.port p).account m cl := by
      rw [hport]
      exact Port.account_setAccount (s.port p) n tc m cl ⟨c, c⟩
    have hpool (cl : Nat) : ((s.topUp p n tc).port p).pool cl = if cl = tc then
        ⟨((s.port p).pool tc).hdr - c.hdr, ((s.port p).pool tc).sect - c.sect⟩ else (s.port p).pool cl := by
      rw [hport]
      exact Port.pool_setPool ((s.port p).setAccount n tc ⟨c, c⟩) tc cl _
    have hne {m : Nat} (hm : m ∈ l) : m ≠ n := fun e => hn (e ▸ hm)
    obtain ⟨moved, listed, others, pools⟩ := ih hl (fun m hm => (hmoved.share m tc).trans (hshare m (.tail _ hm)))
      (fun m hm => by rw [haccount, if_neg (by have := hne hm; omega), hzero m (.tail _ hm)])
      (by rw [hpool, if_pos rfl]; dsimp only; omega) (by rw [hpool, if_pos rfl]; dsimp only; omega)
    rw [List.foldl_cons]
    refine ⟨hmoved.trans moved, fun m hm => ?_, fun m cl hm => ?_, fun cl hcl => ?_⟩
    · obtain rfl | hm := List.mem_cons.mp hm
      · exact (others m tc fun k hk => by have := hne hk; omega).trans (by rw [haccount, if_pos rfl])
      · exact listed m hm
    · rw [others m cl fun k hk => hm k (.tail _ hk), haccount, if_neg (hm n (.head _))]
    · exact (pools cl hcl).trans (by rw [hpool, if_neg hcl])

/-- R170: where the accounts of a class are empty and its pool is full, every partition that shares in it gets its share. -/
theorem State.rebalance_grants (hzero : ∀ n, (s.port p).account n tc = .zero) (hpool : (s.port p).pool tc = (s.port p).size tc) :
    ∃ l c, s.Granted (s.rebalance p tc) p tc l c ∧ ∀ n < 64, s.shares p n tc = true → n ∈ l ∧ s.share p n tc = c := by
  have hmem {n : Nat} (hn : n ∈ s.sharers p tc) : s.shares p n tc = true := (List.mem_filter.mp hn).2
  have hshare {n : Nat} (hn : s.shares p n tc = true) : s.share p n tc =
      ⟨((s.port p).size tc).hdr / (s.sharers p tc).length, ((s.port p).size tc).sect / (s.sharers p tc).length⟩ := by
    rw [State.share, if_pos hn]
  refine ⟨s.sharers p tc, _, State.foldl_topUp (List.nodup_range.filter _) (fun n hn => hshare (hmem hn)) (fun n _ => hzero n) ?_ ?_,
    fun n hn hs => ⟨List.mem_filter.mpr ⟨List.mem_range.mpr hn, hs⟩, hshare hs⟩⟩
  · rw [hpool]
    exact Nat.mul_div_le _ _
  · rw [hpool]
    exact Nat.mul_div_le _ _

/-- The sizes of the pools that PT_CREDp gives (R170). -/
def State.poolSizes (s : State) (p : Nat) : Tab Credits :=
  Tab.set (fun _ => .zero) (Tab.set (fun _ => .zero) [] 0
      ⟨Nat.min (s.fld F.PT_CRED_TC0_HDR p) 1024, Nat.min (s.fld F.PT_CRED_TC0_SECT p) 4096⟩) 1
    ⟨1024 - Nat.min (s.fld F.PT_CRED_TC0_HDR p) 1024, 4096 - Nat.min (s.fld F.PT_CRED_TC0_SECT p) 4096⟩

/-- R170, R314: a port that holds no request has its shares granted afresh. -/
theorem State.grantPort_grants (hq : s.heldReqs p = []) : s.PortMoved (s.grantPort p) p ∧ PortsOnly s (s.grantPort p) ∧
    ((s.grantPort p).port p).btags = (s.port p).btags ∧ ((s.grantPort p).port p).sizes = s.poolSizes p ∧
    ∀ n tc, s.shares p n tc = true → tc < 2 → n < 64 → (((s.grantPort p).port p).account n tc).held = (s.grantPort p).share p n tc := by
  generalize hx : { s.port p with accounts := [], sizes := s.poolSizes p, pools := s.poolSizes p, returns := [] } = x
  have hport : (s.setPort p x).port p = x := State.port_setPort_same ..
  have hsizes : x.sizes = s.poolSizes p := by rw [← hx]
  have hpools (cl : Nat) : x.pool cl = x.size cl := by rw [Port.pool, Port.size, hsizes, ← hx]
  have hzero (n tc : Nat) : x.account n tc = .zero := by rw [← hx]; rfl
  have hheld : (s.setPort p x).heldReqs p = [] := hq
  have hgrant : s.grantPort p = ((s.setPort p x).rebalance p 0).rebalance p 1 := by
    have hfold : s.grantPort p =
        ((((s.setPort p x).heldReqs p).foldl (fun s q => s.occupy p q) (s.setPort p x)).rebalance p 0).rebalance p 1 := by
      rw [← hx]
      rfl
    rw [hfold, hheld, List.foldl_nil]
  obtain ⟨l0, c0, h0, hl0⟩ := State.rebalance_grants (s := s.setPort p x) (p := p) (tc := 0) (fun n => by rw [hport, hzero])
    (by rw [hport, hpools])
  have hsize0 : ((s.setPort p x).rebalance p 0 |>.port p).size 1 = x.size 1 := by
    rw [Port.size, h0.moved.sizes, hport, Port.size]
  obtain ⟨l1, c1, h1, hl1⟩ := State.rebalance_grants (s := (s.setPort p x).rebalance p 0) (p := p) (tc := 1)
    (fun n => by rw [h0.others n 1 fun m _ => by omega, hport, hzero]) (by rw [h0.pools 1 (by decide), hport, hpools, hsize0])
  have hmoved := h0.moved.trans h1.moved
  have hshares : ((s.setPort p x).rebalance p 0).shares = s.shares := State.eq_of_regs State.shares (fun _ => rfl) h0.moved.only.regs
  rw [hgrant]
  refine ⟨(State.PortMoved.setPort s p x).trans hmoved.moved, (s.setPort_ports p x).trans hmoved.only, ?_, ?_, fun n tc hs htc hn => ?_⟩
  · rw [hmoved.btags, hport, ← hx]
  · rw [hmoved.sizes, hport, hsizes]
  · obtain rfl | rfl : tc = 0 ∨ tc = 1 := by omega
    · obtain ⟨hmem, hshare⟩ := hl0 n hn hs
      rw [h1.others n 0 fun m _ => by omega, h0.listed n hmem, hmoved.share, hshare]
    · obtain ⟨hmem, hshare⟩ := hl1 n hn (by rw [hshares]; exact hs)
      rw [h1.listed n hmem, h1.moved.share, hshare]

end

/-! ## PORT_RESET and PORT_RESET_DONE (R182) -/

theorem portReset_starts {p : Nat} {s : State} (hp : p < 32) (hc : s.csrOpen = true) : ∃ t, exec (.portReset p) s = .next t ∧
    t = { s with regs := t.regs } ∧ t.reg .PT_STAT p = Fld.into F.PT_STAT_RESETTING (s.reg .PT_STAT p) 1 ∧
    RegsBut s t (fun o => o = Reg.offset .PT_STAT p) := by
  refine ⟨s.portReset p, ?_, rfl, reg_put_same s F.PT_STAT_RESETTING p 1, (RegsBut.refl s _).put _ _ _ rfl⟩
  change execPortReset p s = _
  rw [execPortReset, if_neg (by simp [hc, hp])]

section
variable {p : Nat} {s : State}

/-- The flags of a port whose reset ends. -/
def State.resetFlags (s : State) (p : Nat) : State := (s.put F.PT_STAT_RESETTING p 0).put F.PT_STAT_FAULT p 0

theorem exec_portResetDone (hp : p < 32) (hr : s.flag F.PT_STAT_RESETTING p = true) (hb : (s.port p).busyTags = 0)
    (ht : (s.port p).btags = []) : exec (.portResetDone p) s =
      .next ((((s.setPort p { s.port p with btags := [] }).resetFlags p).grantPort p).raise .port) := by
  change execPortResetDone p s = _
  rw [execPortResetDone, if_neg (by simp [hp, hr, hb]), ht]
  rfl

theorem portResetDone_recovers (hp : p < 32) (hr : s.flag F.PT_STAT_RESETTING p = true) (hb : (s.port p).busyTags = 0)
    (hq : s.heldReqs p = []) (ht : (s.port p).btags = []) : ∃ t, exec (.portResetDone p) s = .next t ∧
      t.fld F.PT_STAT_RESETTING p = 0 ∧ t.fld F.PT_STAT_FAULT p = 0 ∧ (t.port p).btags = [] ∧
      (t.port p).size 0 = ⟨Nat.min (s.fld F.PT_CRED_TC0_HDR p) 1024, Nat.min (s.fld F.PT_CRED_TC0_SECT p) 4096⟩ ∧
      (t.port p).size 1 = ⟨1024 - Nat.min (s.fld F.PT_CRED_TC0_HDR p) 1024, 4096 - Nat.min (s.fld F.PT_CRED_TC0_SECT p) 4096⟩ ∧
      (∀ n tc, s.shares p n tc = true → tc < 2 → n < 64 → ((t.port p).account n tc).held = t.share p n tc) ∧
      t.bit F.MW_IRQ_CAUSE_EVENT 0 1 = true ∧ s.otherPorts t p ∧ t.mem = s.mem ∧ t.draws = s.draws ∧
      RegsBut s t (fun o => o = Reg.offset .PT_STAT p ∨ o = Reg.offset .MW_IRQ_CAUSE 0) := by
  have hirq : Reg.offset .PT_STAT p ≠ Reg.offset .MW_IRQ_CAUSE 0 := by
    simp only [Reg.offset, Reg.base, Reg.stride]
    omega
  rw [exec_portResetDone hp hr hb ht]
  generalize hw : s.setPort p { s.port p with btags := [] } = w
  have hwport : (w.port p).btags = [] := by rw [← hw, State.port_setPort_same]
  have hwmoved : s.PortMoved w p := hw ▸ .setPort s p _
  have hflags : w.Wrote (w.resetFlags p) fun o => o = Reg.offset .PT_STAT p :=
    ((State.Wrote.refl w fun o => o = Reg.offset .PT_STAT p).put F.PT_STAT_RESETTING p 0 rfl).put F.PT_STAT_FAULT p 0 rfl
  have hregs : RegsBut s (w.resetFlags p) fun o => o = Reg.offset .PT_STAT p := (hwmoved.regsBut _).trans hflags.regs
  have hfld {f : Fld} {i : Nat} (hf : f.reg.offset i ≠ Reg.offset .PT_STAT p) : (w.resetFlags p).fld f i = s.fld f i := hregs.fld_eq hf
  have hcred : (w.resetFlags p).poolSizes p = s.poolSizes p := by
    have hoff : Reg.offset .PT_CRED p ≠ Reg.offset .PT_STAT p := by
      simp only [Reg.offset, Reg.base, Reg.stride]
      omega
    simp only [State.poolSizes, hfld (f := F.PT_CRED_TC0_HDR) hoff, hfld (f := F.PT_CRED_TC0_SECT) hoff]
  have hshares (n tc : Nat) : (w.resetFlags p).shares p n tc = s.shares p n tc := by
    have hcfg : Reg.offset .PA_CFG n ≠ Reg.offset .PT_STAT p ∧ Reg.offset .PA_PORTS n ≠ Reg.offset .PT_STAT p := by
      simp only [Reg.offset, Reg.base, Reg.stride]
      omega
    simp only [State.shares, State.flag, State.bit, hfld (f := F.PA_CFG_ENABLE) hcfg.1, hfld (f := F.PA_PORTS_PORT_MASK) hcfg.2,
      hfld (f := F.PA_CFG_TC0_EN) hcfg.1]
  have hheld : (w.resetFlags p).heldReqs p = [] := by
    rw [← hq, ← hw]
    rfl
  obtain ⟨hmoved, honly, hbtags, hsizes, haccounts⟩ := State.grantPort_grants hheld
  have hclear {f : Fld} (hf : f.reg = .PT_STAT) (h0 : (w.resetFlags p).fld f p = 0) :
      (((w.resetFlags p).grantPort p).raise .port).fld f p = 0 := by
    rw [State.fld_raise _ _ (by rw [hf]; exact hirq), State.fld_congr honly.regs, h0]
  have hsize (cl : Nat) : ((((w.resetFlags p).grantPort p).raise .port).port p).size cl = Tab.get (fun _ => .zero) (s.poolSizes p) cl := by
    change (((w.resetFlags p).grantPort p).port p).size cl = _
    rw [Port.size, hsizes, hcred]
  have hshare (n tc : Nat) : (((w.resetFlags p).grantPort p).raise .port).share p n tc = ((w.resetFlags p).grantPort p).share p n tc := by
    have hcfg (k : Nat) : Reg.offset .PA_CFG k ≠ Reg.offset .MW_IRQ_CAUSE 0 ∧ Reg.offset .PA_PORTS k ≠ Reg.offset .MW_IRQ_CAUSE 0 := by
      simp only [Reg.offset, Reg.base, Reg.stride]
      omega
    have hraised (k cl : Nat) : (((w.resetFlags p).grantPort p).raise .port).shares p k cl = ((w.resetFlags p).grantPort p).shares p k cl := by
      simp only [State.shares, State.flag, State.bit, State.fld_raise _ _ (f := F.PA_CFG_ENABLE) (hcfg k).1,
        State.fld_raise _ _ (f := F.PA_PORTS_PORT_MASK) (hcfg k).2, State.fld_raise _ _ (f := F.PA_CFG_TC0_EN) (hcfg k).1]
    simp only [State.share, State.sharers, hraised]
    rfl
  refine ⟨_, rfl, ?_, ?_, ?_, ?_, ?_, ?_, State.bit_raise _ .port, ?_, ?_, ?_, ?_⟩
  · exact hclear rfl ((fld_put_field _ F.PT_STAT_FAULT F.PT_STAT_RESETTING _ _ rfl (by decide)).trans (fld_put_same _ _ _ _ (by decide)))
  · exact hclear rfl (fld_put_same _ _ _ _ (by decide))
  · exact hbtags.trans hwport
  · rw [hsize, State.poolSizes, Tab.get_set_other _ _ _ _ _ (by decide), Tab.get_set_same]
  · rw [hsize, State.poolSizes, Tab.get_set_same]
  · exact fun n tc hs htc hn => (haccounts n tc ((hshares n tc).trans hs) htc hn).trans (by rw [hshare])
  · exact fun q hq => ((hmoved.others q hq).trans (hwmoved.others q hq))
  · exact hmoved.mem.trans hwmoved.mem
  · exact hmoved.draws.trans hwmoved.draws
  · exact ((hregs.mono fun _ => .inl).trans (hmoved.regsBut _)).raise _ (.inr rfl)

end

/-! ## REGULATOR_RESUME (R224) -/

/-- Returns given back change neither what is held nor what is no account. -/
theorem State.foldl_giveBack (s : State) (p : Nat) (l : List HeldReturn) : s.Recredited (l.foldl (fun s h => s.giveBack p h) s) p :=
  List.foldlRecOn (motive := fun u : State => s.Recredited u p) _ _ (.refl s p) fun u hu h _ => hu.trans (.giveBack u p h)

theorem PortsOnly.dry {s t : State} (h : PortsOnly s t) (n : Nat) : t.dry n = s.dry n := by rw [h]; rfl

/-- R224: a port out of FAULT keeps the returns of the regulators without tokens. -/
theorem State.releaseReturns_keeps {s : State} {p : Nat} (hc : s.creditsHeld = false) (hf : s.flag F.PT_STAT_FAULT p = false) :
    PortsOnly s (s.releaseReturns p) ∧ s.otherPorts (s.releaseReturns p) p ∧
      ((s.releaseReturns p).port p).returns = (s.port p).returns.filter fun h => s.dry h.part := by
  unfold State.releaseReturns
  simp only [hc, hf, Bool.or_self, Bool.false_eq_true, if_false]
  generalize hx : s.setPort p { s.port p with returns := (s.port p).returns.filter fun h => s.dry h.part } = x
  have hgive := x.foldl_giveBack p ((s.port p).returns.filter fun h => !x.dry h.part)
  have hset : PortsOnly s x := hx ▸ s.setPort_ports p _
  refine ⟨hset.trans hgive.only, fun q hq => (hgive.others q hq).trans (hx ▸ State.port_setPort_other _ _ _ _ hq), ?_⟩
  rw [hgive.returns, ← hx, State.port_setPort_same]

/-- A port's step when a regulator resumes. -/
def State.resumePort (s : State) (p : Nat) : State := if (s.port p).returns.isEmpty then s else s.releaseReturns p

theorem State.resumePort_keeps {s : State} {p : Nat} (hc : s.creditsHeld = false) (hf : s.flag F.PT_STAT_FAULT p = false) :
    PortsOnly s (s.resumePort p) ∧ s.otherPorts (s.resumePort p) p ∧
      ((s.resumePort p).port p).returns = (s.port p).returns.filter fun h => s.dry h.part := by
  unfold State.resumePort
  split
  · next h =>
    rw [List.isEmpty_iff.mp h]
    exact ⟨rfl, fun _ _ => rfl, rfl⟩
  · exact State.releaseReturns_keeps hc hf

/-- Every port below `n` lets go what no dry regulator holds. -/
theorem State.foldl_resumePort {s : State} (hc : s.creditsHeld = false) : ∀ n, (∀ p < n, s.flag F.PT_STAT_FAULT p = false) →
    PortsOnly s ((List.range n).foldl State.resumePort s) ∧
      (∀ p < n, (((List.range n).foldl State.resumePort s).port p).returns = (s.port p).returns.filter fun h => s.dry h.part) ∧
      ∀ p, n ≤ p → ((List.range n).foldl State.resumePort s).port p = s.port p
  | 0, _ => ⟨rfl, nofun, fun _ _ => rfl⟩
  | n + 1, hf => by
    obtain ⟨honly, hbelow, habove⟩ := State.foldl_resumePort hc n fun p hp => hf p (by omega)
    rw [List.range_succ, List.foldl_append]
    generalize (List.range n).foldl State.resumePort s = u at honly hbelow habove
    have hfault : u.flag F.PT_STAT_FAULT n = false := by
      rw [State.flag, State.fld_congr honly.regs]
      exact hf n (by omega)
    have hheld : u.creditsHeld = false := by rw [← hc, honly]; rfl
    obtain ⟨hnext, hother, hreturns⟩ := State.resumePort_keeps hheld hfault
    refine ⟨honly.trans hnext, fun p hp => ?_, fun p hp => (hother p (by omega)).trans (habove p (by omega))⟩
    obtain rfl | hlt : p = n ∨ p < n := by omega
    · simp only [List.foldl_cons, List.foldl_nil, hreturns, habove p le_rfl, honly.dry]
    · exact (congrArg Port.returns (hother p (by omega))).trans (hbelow p hlt)

theorem regulatorResume_releases {n : Nat} {s : State} (hn : n < 64) (hd : s.dry n = false) (hc : s.creditsHeld = false)
    (hf : ∀ p < 32, s.flag F.PT_STAT_FAULT p = false) : ∃ t, exec (.regulatorResume n) s = .next t ∧
      (∀ p < 32, ∀ h ∈ (t.port p).returns, h.part ≠ n) ∧
      (∀ p < 32, (t.port p).returns = (s.port p).returns.filter fun h => s.dry h.part) ∧
      t = { s with
        sent := t.sent
        ports := { s.ports with port := t.ports.port } } := by
  obtain ⟨honly, hreturns, -⟩ := State.foldl_resumePort hc 32 hf
  refine ⟨(List.range 32).foldl State.resumePort s, ?_, fun p hp h hh => ?_, hreturns, honly⟩
  · change execRegulatorResume n s = _
    rw [execRegulatorResume, if_neg (by simp [hd, hn])]
    rfl
  · rw [hreturns p hp] at hh
    rintro rfl
    exact absurd (List.mem_filter.mp hh).2 (by simp [hd])

/-- Settles O37: the shares that PORT_RESET_DONE grants are counted in pools as large as all of them together; a port that resumes is
followed one by one. -/
theorem portsRecover : Obligations.PortsRecover := by
  unfold Obligations.PortsRecover
  exact ⟨fun _ _ => portReset_starts, fun _ _ => portResetDone_recovers, fun _ _ _ _ hp => if_neg (by omega), fun _ _ => regulatorResume_releases⟩

end Sys2Proof.Machine
end

section
/-!
PROOF of O36: block writes go out under tags and credits and are answered.
-/

namespace Sys2Proof.Machine

/-! ## BLOCK_WRITE_SEND (R177, R168, R126) -/

/-- The partner's credits that a block write of `n` sectors uses. -/
def State.payWrite (s : State) (p n : Nat) : State :=
  (s.put F.PT_STAT_OUT_HDR p (s.fld F.PT_STAT_OUT_HDR p - 1)).put F.PT_STAT_OUT_SECT p (s.fld F.PT_STAT_OUT_SECT p - n)

/-- The port after its oldest block write has gone out under tag `k`. -/
def Port.sentWrite (x : Port) (k : Nat) (w : OutWrite) (rest : List OutWrite) (cycles : Nat) : Port :=
  { x with
    outq := rest
    btags := Tab.set (fun _ => none) x.btags k (some ⟨w.drawer, w.pos, w.final, cycles, false⟩) }

section
variable {p : Nat} {s : State}

theorem State.payWrite_wrote (n : Nat) : s.Wrote (s.payWrite p n) fun o => o = Reg.offset .PT_STAT p :=
  ((State.Wrote.refl s fun o => o = Reg.offset .PT_STAT p).put F.PT_STAT_OUT_HDR p _ rfl).put F.PT_STAT_OUT_SECT p _ rfl

theorem State.payWrite_hdr (n : Nat) : (s.payWrite p n).fld F.PT_STAT_OUT_HDR p = s.fld F.PT_STAT_OUT_HDR p - 1 := by
  have hlt : s.fld F.PT_STAT_OUT_HDR p < 2 ^ F.PT_STAT_OUT_HDR.w := Fld.of_lt _ _
  rw [State.payWrite, fld_put_field _ F.PT_STAT_OUT_SECT F.PT_STAT_OUT_HDR _ _ rfl (by decide), fld_put_same _ _ _ _ (by decide),
    Nat.mod_eq_of_lt (by omega)]

theorem State.payWrite_sect (n : Nat) : (s.payWrite p n).fld F.PT_STAT_OUT_SECT p = s.fld F.PT_STAT_OUT_SECT p - n := by
  have hlt : s.fld F.PT_STAT_OUT_SECT p < 2 ^ F.PT_STAT_OUT_SECT.w := Fld.of_lt _ _
  rw [State.payWrite, fld_put_same _ _ _ _ (by decide), Nat.mod_eq_of_lt (by omega)]

theorem State.port_congr {s t : State} (h : t.ports.port = s.ports.port) (q : Nat) : t.port q = s.port q := by
  rw [State.port, h, State.port]

theorem State.sent_setPort_emit (s : State) (p : Nat) (x : Port) (o : Sent) : ((s.setPort p x).emit o).sent = o :: s.sent := rfl

theorem State.port_setPort_emit (s : State) (p : Nat) (x : Port) (o : Sent) : ((s.setPort p x).emit o).port p = x :=
  State.port_setPort_same ..

/-- Traffic moves the counters, the tokens and the energy alone. -/
theorem State.traffic_rest (s : State) (part n : Nat) (b : Bool) : s.traffic part n b =
    { s with power := (s.traffic part n b).power, ports := { (s.traffic part n b).ports with port := s.ports.port, waits := s.ports.waits } } := by
  have hspend (t : State) (k : Nat) : t.spend part k = { t with ports := { (t.spend part k).ports with port := t.ports.port, waits := t.ports.waits } } := by
    unfold State.spend
    split <;> rfl
  have hcharge (t : State) (k : Nat) : t.charge part 0 k = { t with power := (t.charge part 0 k).power } := by
    unfold State.charge
    dsimp only
    split <;> rfl
  unfold State.traffic
  dsimp only
  rw [hcharge, hspend]
  cases b <;> rfl

/-- R126: only a RECALL_ACT whose first write it is takes a RESULT. -/
theorem State.recallSent_drawers (s : State) (d pos a : Nat) : DrawersOnly s (s.recallSent d pos a) := by
  unfold State.recallSent
  split
  · split
    · exact s.drawersOnly_setCmd d _
    · rfl
  · rfl

theorem State.cmd_recallSent {d pos a : Nat} {c : Cmd} (hc : s.cmd d pos = some c) (ho : c.opcode = Op.recallAct.code)
    (ha : c.arg 2 0 44 = a) : (s.recallSent d pos a).cmd d pos = some { c with result := s.gtc } := by
  rw [State.recallSent, hc]
  dsimp only
  rw [if_pos ⟨ho, ha⟩]
  exact State.cmd_setCmd hc (show c.pos = pos from State.cmd_pos hc)

theorem State.launchDone_drawers (s : State) (d : Nat) (l : Launch) (late bad : Bool) : DrawersOnly s (s.launchDone d l late bad) := by
  unfold State.launchDone
  dsimp only
  split <;> rfl

theorem State.firstAction_drawers (s : State) (d pos : Nat) : DrawersOnly s (s.firstAction d pos) := by
  unfold State.firstAction
  split
  · split
    · exact s.launchDone_drawers ..
    · rfl
  · rfl

theorem exec_blockWriteSend {k : Nat} {w : OutWrite} {rest : List OutWrite} (hp : p < 32) (hf : s.flag F.PT_STAT_FAULT p = false)
    (hd : s.life.drain = none) (hq : (s.port p).outq = w :: rest) (ht : (s.port p).freeTag = some k) (hx : ∀ x ∈ w.secs, x.good = true)
    (hh : 1 ≤ s.fld F.PT_STAT_OUT_HDR p) (hs : w.secs.length ≤ s.fld F.PT_STAT_OUT_SECT p) : exec (.blockWriteSend p) s =
      .next ((((((s.payWrite p w.secs.length).setPort p ((s.port p).sentWrite k w rest s.power.cycles)).emit
        (.blockWrite p k (w.header k w.secs.length) w)).traffic w.part w.secs.length false).recallSent w.drawer w.pos w.addr).firstAction
          w.drawer w.pos) := by
  have hbad : (w.secs.any fun x => !x.good) = false := List.any_eq_false.mpr fun x hm => by simp [hx x hm]
  have hmap : w.secs.map egress = w.secs := (List.map_congr_left fun x hm => egress_good (hx x hm)).trans (List.map_id _)
  change execBlockWriteSend p s = _
  rw [execBlockWriteSend, if_neg (by simp [hf, hd, hp]), hq, ht]
  dsimp only
  rw [if_neg (by omega), hbad, State.when_false, hmap]
  rfl

theorem blockWriteSend_goes {k : Nat} {w : OutWrite} {rest : List OutWrite} (hp : p < 32) (hf : s.flag F.PT_STAT_FAULT p = false)
    (hd : s.life.drain = none) (hq : (s.port p).outq = w :: rest) (ht : (s.port p).freeTag = some k) (hx : ∀ x ∈ w.secs, x.good = true)
    (hh : 1 ≤ s.fld F.PT_STAT_OUT_HDR p) (hs : w.secs.length ≤ s.fld F.PT_STAT_OUT_SECT p) :
    ∃ t, exec (.blockWriteSend p) s = .next t ∧ t.sent = .blockWrite p k (w.header k w.secs.length) w :: s.sent ∧
      (s.isArmed w.drawer w.pos = false → ∀ c, s.cmd w.drawer w.pos = some c → c.opcode = Op.recallAct.code → c.arg 2 0 44 = w.addr →
        t.cmd w.drawer w.pos = some { c with result := s.gtc }) ∧
      t.port p = { s.port p with
        outq := rest
        btags := Tab.set (fun _ => none) (s.port p).btags k (some ⟨w.drawer, w.pos, w.final, s.power.cycles, false⟩) } ∧ s.otherPorts t p ∧
      t.fld F.PT_STAT_OUT_HDR p = s.fld F.PT_STAT_OUT_HDR p - 1 ∧
      t.fld F.PT_STAT_OUT_SECT p = s.fld F.PT_STAT_OUT_SECT p - w.secs.length ∧
      RegsBut s t (fun o => o = Reg.offset .PT_STAT p) ∧ t.mem = s.mem ∧ t.anv = s.anv := by
  rw [exec_blockWriteSend hp hf hd hq ht hx hh hs]
  have hpaid := State.payWrite_wrote (s := s) (p := p) w.secs.length
  have hhdr := State.payWrite_hdr (s := s) (p := p) w.secs.length
  have hsect := State.payWrite_sect (s := s) (p := p) w.secs.length
  generalize s.payWrite p w.secs.length = u at hpaid hhdr hsect
  generalize hv : (u.setPort p ((s.port p).sentWrite k w rest s.power.cycles)).emit (.blockWrite p k (w.header k w.secs.length) w) = v
  have hmoved : u.PortMoved v p := hv ▸ (State.PortMoved.setPort u p _).trans (.emit _ p _)
  have hrest := v.traffic_rest w.part w.secs.length false
  generalize v.traffic w.part w.secs.length false = x at hrest
  have hxregs : x.regs = u.regs := (congrArg State.regs hrest).trans hmoved.regs
  have hxdraws : x.draws = s.draws := ((congrArg State.draws hrest).trans hmoved.draws).trans hpaid.draws
  have hxports : x.ports.port = v.ports.port := by rw [hrest]
  have hxport (q : Nat) : x.port q = v.port q := State.port_congr hxports q
  have honly : DrawersOnly x ((x.recallSent w.drawer w.pos w.addr).firstAction w.drawer w.pos) :=
    (x.recallSent_drawers _ _ _).trans (State.firstAction_drawers _ _ _)
  have hgtc : x.gtc = s.gtc := by
    have hne : Reg.offset .GT_TIME 0 ≠ Reg.offset .PT_STAT p := by
      simp only [Reg.offset, Reg.base, Reg.stride]
      omega
    exact (State.fld_congr hxregs _ _).trans (hpaid.regs.fld_eq hne)
  have hregs : RegsBut s ((x.recallSent w.drawer w.pos w.addr).firstAction w.drawer w.pos) fun o => o = Reg.offset .PT_STAT p :=
    .congr ((congrArg State.regs honly).trans hxregs) hpaid.regs
  have hcmd {d pos : Nat} : x.cmd d pos = s.cmd d pos := by rw [State.cmd, State.drawer, hxdraws]; rfl
  have hlaunch {d pos a : Nat} (h : s.isArmed d pos = false) : (x.recallSent d pos a).isArmed d pos = false := by
    have hdrawer : x.isArmed d pos = false := by rw [← h, State.isArmed, State.drawer, hxdraws]; rfl
    unfold State.recallSent
    split
    · split
      · rwa [State.isArmed, State.drawer_setCmd_same]
      · exact hdrawer
    · exact hdrawer
  generalize hy : (x.recallSent w.drawer w.pos w.addr).firstAction w.drawer w.pos = y at honly hregs
  have hyports : y.ports = x.ports := by rw [honly]
  have hyport (q : Nat) : y.port q = v.port q := (State.port_congr (congrArg Ports.port hyports) q).trans (hxport q)
  have hyfld (f : Fld) : y.fld f p = u.fld f p := (State.fld_congr (congrArg State.regs honly) _ _).trans (State.fld_congr hxregs _ _)
  refine ⟨y, rfl, ?_, fun ha c hc ho harg => ?_, ?_, fun q hq => ?_, (hyfld _).trans hhdr, (hyfld _).trans hsect, hregs, ?_, ?_⟩
  · have hysent : y.sent = x.sent := by rw [honly]
    have hxsent : x.sent = v.sent := by rw [hrest]
    have husent : u.sent = s.sent := by rw [hpaid.rest]
    rw [hysent, hxsent, ← hv, State.sent_setPort_emit, husent]
  · rw [← hy, State.firstAction_unarmed (hlaunch ha), State.cmd_recallSent (hcmd.trans hc) ho harg, hgtc]
  · rw [hyport, ← hv, State.port_setPort_emit]
    rfl
  · rw [hyport, hmoved.others q hq]
    exact State.port_congr (congrArg Ports.port hpaid.ports) q
  · have hymem : y.mem = x.mem := by rw [honly]
    have hxmem : x.mem = v.mem := by rw [hrest]
    rw [hymem, hxmem, hmoved.mem, hpaid.mem]
  · have hyanv : y.anv = x.anv := by rw [honly]
    have hxanv : x.anv = v.anv := by rw [hrest]
    rw [hyanv, hxanv, hmoved.anv, hpaid.anv]

/-! ## RSP (R177, R182) -/

theorem State.dropHeader_none (h : s.life.porstN = true) (hf : s.flag F.PT_STAT_FAULT p = false) : s.dropHeader p = none := by
  simp [State.dropHeader, h, hf]

theorem exec_rsp_answers {h : RspHdr} {b : BlockTag} (hp : p < 32) (hpow : s.life.porstN = true) (hf : s.flag F.PT_STAT_FAULT p = false)
    (hg : h.good = true) (hb : Tab.get (fun _ => none) (s.port p).btags h.tag.toNat = some b) (ha : b.abandoned = false)
    (hst : h.status = 0) : exec (.rsp p h) s =
      .next (s.setPort p { s.port p with btags := Tab.set (fun _ => none) (s.port p).btags h.tag.toNat none }) := by
  change execRsp p h s = _
  rw [execRsp, if_neg (by omega), State.dropHeader_none hpow hf]
  simp only [hg, hb, ha, Bool.not_true, Bool.false_eq_true, if_false, hst]
  rfl

/-- R182: a header that nothing answers to is counted, and flagged. -/
theorem State.badType_counts : s.Wrote (s.badType p) (fun o => o = Reg.offset .PT_PROTO p ∨ o = Reg.offset .PT_FLAGS p ∨ o = Reg.offset .MW_IRQ_CAUSE 0) ∧
    (s.badType p).fld F.PT_FLAGS_BAD_TYPE p = 1 ∧ (s.badType p).fld F.PT_PROTO_COUNT p = (s.fld F.PT_PROTO_COUNT p + 1) % 2 ^ 48 :=
  ⟨State.protoErr_flag_wrote rfl, State.portFlag_sets rfl rfl (by decide), (State.portFlag_proto rfl).trans State.protoErr_count⟩

theorem exec_rsp_untagged {h : RspHdr} (hp : p < 32) (hpow : s.life.porstN = true) (hf : s.flag F.PT_STAT_FAULT p = false)
    (hg : h.good = true) (hb : Tab.get (fun _ => none) (s.port p).btags h.tag.toNat = none) : exec (.rsp p h) s = .next (s.badType p) := by
  change execRsp p h s = _
  rw [execRsp, if_neg (by omega), State.dropHeader_none hpow hf]
  simp only [hg, hb, Bool.not_true, Bool.false_eq_true, if_false]

/-! ## RSP_DATA and undefined types (R172, R182) -/

theorem exec_rspData_nine {r : PortReq} {n : Nat} (hp : p < 32) (h : s.HeaderPasses p 9 r.hdr n) (hn : n = r.hdr.addr.toNat / 2 ^ 9 % 32 + 1) :
    exec (.rspData p 9 r) s = .next (((s.takeCredits p r.hdr n).badType p).returnCredit p r.hdr.p r.hdr.tc.toNat 1 n) := by
  subst hn
  change execRspData p 9 r s = _
  rw [execRspData, if_neg (by simp only [BitVec.reduceToNat]; omega)]
  dsimp only
  rw [if_pos rfl, h.entry]

theorem exec_rspData_undefined {r : PortReq} {code : BitVec 4} {u : State} (hp : p < 32) (hc : code = 0 ∨ 10 ≤ code.toNat)
    (h : s.ingress p code r.hdr 0 = (true, u)) : exec (.rspData p code r) s = .next (u.refuse p .rd r.hdr .badOpcode false 0) := by
  have hrange : code.toNat = 0 ∨ 10 ≤ code.toNat := hc.imp_left fun e => congrArg BitVec.toNat e
  have hne : code ≠ 9 := by
    rintro rfl
    revert hrange
    decide
  change execRspData p code r s = _
  rw [execRspData, if_neg (by omega)]
  dsimp only
  rw [if_neg hne, h]

theorem rspData_counts {r : PortReq} {n : Nat} (hp : p < 32) (h : s.HeaderPasses p 9 r.hdr n) (hn : n = r.hdr.addr.toNat / 2 ^ 9 % 32 + 1) :
    ∃ t, exec (.rspData p 9 r) s = .next t ∧ t.fld F.PT_FLAGS_BAD_TYPE p = 1 ∧
      t.fld F.PT_PROTO_COUNT p = (s.fld F.PT_PROTO_COUNT p + 1) % 2 ^ 48 ∧ (t.port p).tags = (s.port p).tags ∧ s.otherPorts t p ∧
      t.sent.filter (fun o => !o.isCredit) = s.sent.filter (fun o => !o.isCredit) ∧ t.mem = s.mem ∧ t.draws = s.draws ∧
      RegsBut s t (fun o => o = Reg.offset .PT_PROTO p ∨ o = Reg.offset .PT_FLAGS p ∨ o = Reg.offset .MW_IRQ_CAUSE 0) := by
  rw [exec_rspData_nine hp h hn]
  have htake := State.CreditsMoved.takeCredits s p r.hdr n
  generalize s.takeCredits p r.hdr n = u at htake
  obtain ⟨hwrote, hflag, hcount⟩ := State.badType_counts (s := u) (p := p)
  generalize u.badType p = v at hwrote hflag hcount
  have hreturn := State.CreditsMoved.returnCredit v p r.hdr.p r.hdr.tc.toNat 1 n
  have hport (q : Nat) : v.port q = u.port q := by rw [State.port, hwrote.ports, State.port]
  have hanswers : v.answers = u.answers := by rw [State.answers, hwrote.rest, State.answers]
  refine ⟨_, rfl, ?_, ?_, ?_, fun q hq => ?_, ?_, ?_, ?_, ?_⟩
  · rw [State.fld_congr hreturn.moved.regs, hflag]
  · rw [State.fld_congr hreturn.moved.regs, hcount, State.fld_congr htake.moved.regs]
  · rw [hreturn.tags, hport, htake.tags]
  · rw [hreturn.moved.others q hq, hport, htake.moved.others q hq]
  · exact hreturn.answers.trans (hanswers.trans htake.answers)
  · rw [hreturn.moved.mem, hwrote.mem, htake.moved.mem]
  · rw [hreturn.moved.draws, hwrote.draws, htake.moved.draws]
  · exact ((htake.moved.regsBut _).trans hwrote.regs).trans (hreturn.moved.regsBut _)

theorem rspData_undefined {r : PortReq} {code : BitVec 4} (hp : p < 32) (h : s.HeaderPasses p code r.hdr 0) (hc : code = 0 ∨ 10 ≤ code.toNat) :
    ∃ t, exec (.rspData p code r) s = .next t ∧ s.answered t p r.hdr .badOpcode false [] ∧ s.otherPorts t p ∧
      t.mem = s.mem ∧ t.draws = s.draws ∧ RegsBut s t (fun _ => False) := by
  obtain ⟨u, hu, htook⟩ := h.ingress
  obtain ⟨hmoved, hanswered⟩ := u.refuse_answers p .rd r.hdr .badOpcode false 0
  have hall := htook.moved.trans hmoved
  have hsent : u.answers = s.answers := by rw [State.answers, htook.sent, State.answers]
  exact ⟨_, exec_rspData_undefined hp hc hu, hanswered.of_answers hsent, hall.others, hall.mem, hall.draws, hall.regsBut _⟩

/-! ## CRD and RSP_TMO (R177) -/

theorem exec_crd {h : BitVec 10} {c : BitVec 12} (hp : p < 32) (hpow : s.life.porstN = true) : exec (.crd p h c) s =
    .next ((s.countSat F.PT_STAT_OUT_HDR p h.toNat).countSat F.PT_STAT_OUT_SECT p c.toNat) := by
  change execCrd p h c s = _
  rw [execCrd, if_neg (by simp [hp, hpow])]

/-- A saturating counter counts up to its field's limit. -/
theorem State.fld_countSat {f : Fld} {i n : Nat} (h : f.lo + f.w ≤ 64) :
    (s.countSat f i n).fld f i = Nat.min (s.fld f i + n) (2 ^ f.w - 1) := by
  have hpos := Nat.two_pow_pos f.w
  have hle : Nat.min (s.fld f i + n) (2 ^ f.w - 1) ≤ 2 ^ f.w - 1 := Nat.min_le_right _ _
  rw [State.countSat, fld_put_same _ _ _ _ h, Nat.mod_eq_of_lt (by omega)]

theorem crd_adds {h : BitVec 10} {c : BitVec 12} (hp : p < 32) (hpow : s.life.porstN = true) :
    ∃ t, exec (.crd p h c) s = .next t ∧ t = { s with regs := t.regs } ∧
      t.fld F.PT_STAT_OUT_HDR p = Nat.min (s.fld F.PT_STAT_OUT_HDR p + h.toNat) (2 ^ F.PT_STAT_OUT_HDR.w - 1) ∧
      t.fld F.PT_STAT_OUT_SECT p = Nat.min (s.fld F.PT_STAT_OUT_SECT p + c.toNat) (2 ^ F.PT_STAT_OUT_SECT.w - 1) ∧
      RegsBut s t (fun o => o = Reg.offset .PT_STAT p) := by
  generalize hu : s.countSat F.PT_STAT_OUT_HDR p h.toNat = u
  have hwrote : s.Wrote u fun o => o = Reg.offset .PT_STAT p := hu ▸ (State.Wrote.refl s _).put F.PT_STAT_OUT_HDR p _ rfl
  have hall : s.Wrote (u.countSat F.PT_STAT_OUT_SECT p c.toNat) fun o => o = Reg.offset .PT_STAT p := hwrote.put F.PT_STAT_OUT_SECT p _ rfl
  have hhdr : (u.countSat F.PT_STAT_OUT_SECT p c.toNat).fld F.PT_STAT_OUT_HDR p = u.fld F.PT_STAT_OUT_HDR p :=
    fld_put_field u F.PT_STAT_OUT_SECT F.PT_STAT_OUT_HDR p _ rfl (by decide)
  have hsect : u.fld F.PT_STAT_OUT_SECT p = s.fld F.PT_STAT_OUT_SECT p :=
    hu ▸ fld_put_field s F.PT_STAT_OUT_HDR F.PT_STAT_OUT_SECT p _ rfl (by decide)
  refine ⟨_, hu ▸ exec_crd hp hpow, hall.rest, ?_, ?_, hall.regs⟩
  · rw [hhdr, ← hu, State.fld_countSat (by decide)]
  · rw [State.fld_countSat (by decide), hsect]

theorem exec_rspTmo {k : Nat} {b : BlockTag} (hp : p < 32) (hb : Tab.get (fun _ => none) (s.port p).btags k = some b)
    (ha : b.abandoned = false) (hlate : b.sent + 2 ^ s.fld F.PT_CTL_RSP_TMO_LOG2 p ≤ s.power.cycles) :
    exec (.rspTmo p k) s = .next (s.abandon p k b) := by
  change execRspTmo p k s = _
  rw [execRspTmo, if_neg (by omega), hb]
  simp only [ha, hlate, Bool.not_false, and_self, if_true]

/-- The first bad status of a command's block writes is kept. -/
theorem State.portStatus_sets {d pos : Nat} {st : Status} {c : Cmd} (hst : plainStatus st = false) (hc : s.cmd d pos = some c) :
    s.portStatus d pos st = s.setCmd d { c with portStatus := some (c.portStatus.getD st) } := by
  simp only [State.portStatus, hst, hc, Bool.false_eq_true, if_false]

theorem rspTmo_abandons {k : Nat} {b : BlockTag} {c : Cmd} (hp : p < 32) (hb : Tab.get (fun _ => none) (s.port p).btags k = some b)
    (ha : b.abandoned = false) (hlate : b.sent + 2 ^ s.fld F.PT_CTL_RSP_TMO_LOG2 p ≤ s.power.cycles) (hc : s.cmd b.drawer b.pos = some c) :
    ∃ t, exec (.rspTmo p k) s = .next t ∧
      t.port p = { s.port p with btags := Tab.set (fun _ => none) (s.port p).btags k (some { b with abandoned := true }) } ∧
      t.cmd b.drawer b.pos = some { c with portStatus := some (c.portStatus.getD .degraded) } ∧
      t.fld F.PT_FLAGS_RSP_TMO p = 1 ∧ t.bit F.MW_IRQ_CAUSE_EVENT 0 1 = true ∧
      RegsBut s t (fun o => o = Reg.offset .PT_FLAGS p ∨ o = Reg.offset .MW_IRQ_CAUSE 0) ∧ t.mem = s.mem := by
  generalize hu : s.setPort p { s.port p with btags := Tab.set (fun _ => none) (s.port p).btags k (some { b with abandoned := true }) } = u
  have hflag := State.portFlag_wrote (s := u) (p := p) (f := F.PT_FLAGS_RSP_TMO) rfl
  have hsets : (u.portFlag F.PT_FLAGS_RSP_TMO p).fld F.PT_FLAGS_RSP_TMO p = 1 := State.portFlag_sets rfl rfl (by decide)
  have hirq := State.portFlag_interrupts (s := u) (p := p) F.PT_FLAGS_RSP_TMO
  have hexec : exec (.rspTmo p k) s = .next ((u.portFlag F.PT_FLAGS_RSP_TMO p).portStatus b.drawer b.pos .degraded) := by
    rw [exec_rspTmo hp hb ha hlate, State.abandon, hu]
  generalize u.portFlag F.PT_FLAGS_RSP_TMO p = v at hflag hsets hirq hexec
  have hcmd : v.cmd b.drawer b.pos = some c := by
    rw [← hc, State.cmd, State.drawer, hflag.draws, ← hu]
    rfl
  rw [State.portStatus_sets rfl hcmd] at hexec
  refine ⟨_, hexec, ?_, State.cmd_setCmd hcmd (show c.pos = b.pos from State.cmd_pos hcmd), hsets, hirq, ?_, ?_⟩
  · have hport : v.port p = u.port p := by rw [State.port, hflag.ports, State.port]
    exact hport.trans (hu ▸ State.port_setPort_same ..)
  · exact .congr rfl ((hu ▸ (State.PortMoved.setPort s p _).regsBut _ : RegsBut s u _).trans hflag.regs)
  · exact hflag.mem.trans (by rw [← hu]; rfl)

end

/-- Settles O36: each instruction's clause from the equation of its arm. -/
theorem blockWritesAreSent : Obligations.BlockWritesAreSent := by
  unfold Obligations.BlockWritesAreSent
  refine ⟨fun p k w rest s => blockWriteSend_goes, fun p h b s hp hpow hf hg hb ha hst => ⟨_, exec_rsp_answers hp hpow hf hg hb ha hst, rfl⟩,
    fun p h s hp hpow hf hg hb => ?_, fun p n code r s hp hpow hf hclose hg hn htc hh hs ht => ?_, fun p h c s => crd_adds,
    fun p k b c s => rspTmo_abandons⟩
  · obtain ⟨hwrote, hflag, hcount⟩ := State.badType_counts (s := s) (p := p)
    exact ⟨_, exec_rsp_untagged hp hpow hf hg hb, hwrote.rest, hflag, hcount⟩
  · have hpasses : s.HeaderPasses p code r.hdr n := ⟨hpow, hclose, hf, hg, htc, hh, hs, ht⟩
    refine ⟨fun hc => ?_, fun hc => ?_⟩
    · subst hc
      exact rspData_counts hp hpasses hn
    · have hzero : n = 0 := by
        rw [hn, if_neg]
        rintro rfl
        revert hc
        decide
      exact rspData_undefined hp (hzero ▸ hpasses) hc

end Sys2Proof.Machine
end

section
/-!
SUPPORT. Requests to memory that nothing holds up, served at once (R172, R176, R188, R221).
-/

namespace Sys2Proof.Machine

/-! ## The frames of a service -/

/-- From `s` to `t` a request of port `p` has been served: what was sent, energy, credits, hits and what the slices hold have moved. -/
structure State.ServiceMoved (s t : State) (p : Nat) : Prop where
  rest : t = { s with
    sent := t.sent
    regs := t.regs
    power := t.power
    ports := { t.ports with waits := s.ports.waits }
    mem := { s.mem with slices := t.mem.slices, chans := t.mem.chans, touched := t.mem.touched } }
  regs : RegsBut s t HitRegs
  others : s.otherPorts t p

/-- The same, before anything but credits was sent. -/
structure State.Serving (s t : State) (p : Nat) : Prop where
  moved : s.ServiceMoved t p
  answers : t.answers = s.answers

namespace State.ServiceMoved

section
variable {s t u : State} {p : Nat} (h : s.ServiceMoved t p)
include h

theorem trans (g : t.ServiceMoved u p) : s.ServiceMoved u p :=
  ⟨by rw [g.rest, h.rest], h.regs.trans g.regs, fun q hq => (g.others q hq).trans (h.others q hq)⟩

theorem draws : t.draws = s.draws := by rw [h.rest]
theorem anv : t.anv = s.anv := by rw [h.rest]
theorem pl : t.pl = s.pl := by rw [h.rest]
theorem waits : t.ports.waits = s.ports.waits := by rw [h.rest]

theorem arrayKept (q : Loc → Prop) : s.arrayKept t q := fun l _ => by
  rw [h.rest]
  exact ⟨rfl, rfl⟩

theorem rawSector (l : Loc) : t.rawSector l = s.rawSector l := (h.arrayKept (fun _ => False) l fun _ hx => hx.elim).1

theorem now {l : Loc} (hl : t.sliceHas l = s.sliceHas l) : t.now l = s.now l := State.now_of hl (h.rawSector l)

theorem chanState (n : Nat) : t.chanState n = s.chanState n := h.regs.fld_eq (by
  simp only [HitRegs, F.CE_STATE_STATE, Reg.offset, Reg.base, Reg.stride]
  omega)

theorem ways : t.ways = s.ways := by rw [State.ways, State.ways, h.regs.fld_eq (by unfold HitRegs; decide)]

theorem locate {a : Nat} {l : Loc} (hl : s.locate a = some l) : t.locate a = some l := State.locate_kept h.regs hl

theorem hasRoom {l : Loc} (hs : t.mem.slices = s.mem.slices) (hr : s.hasRoom l) : t.hasRoom l := by
  rw [State.hasRoom, State.slice, hs, h.ways]
  exact hr

end

theorem refl (s : State) (p : Nat) : s.ServiceMoved s p := ⟨rfl, .refl s _, fun _ _ => rfl⟩

section
variable {s t : State} {p : Nat}

theorem of_ports (h : s.PortMoved t p) : s.ServiceMoved t p := ⟨by rw [h.rest], h.regsBut _, h.others⟩

theorem of_hits (h : s.HitsOnly t) : s.ServiceMoved t p := by
  obtain ⟨hrest, hregs, -⟩ := h
  exact ⟨by rw [hrest], hregs, fun q _ => by rw [hrest]; rfl⟩

theorem of_stands (h : s.ArrayStands t) : s.ServiceMoved t p := by
  obtain ⟨hrest⟩ := h
  exact ⟨by rw [hrest], .congr (by rw [hrest]) (.refl s _), fun q _ => by rw [hrest]; rfl⟩

end

end State.ServiceMoved

namespace State.Serving

section
variable {s t u : State} {p : Nat}

theorem refl (s : State) (p : Nat) : s.Serving s p := ⟨.refl s p, rfl⟩

theorem trans (h : s.Serving t p) (g : t.Serving u p) : s.Serving u p := ⟨h.moved.trans g.moved, g.answers.trans h.answers⟩

theorem of_credits (h : s.CreditsMoved t p) : s.Serving t p := ⟨.of_ports h.moved, h.answers⟩

theorem of_hits (h : s.HitsOnly t) : s.Serving t p := ⟨.of_hits h, by rw [State.answers, h.rest, State.answers]⟩

theorem of_stands (h : s.ArrayStands t) : s.Serving t p := ⟨.of_stands h, by rw [State.answers, h.rest, State.answers]⟩

/-- What was served is answered. -/
theorem respond (hs : s.Serving t p) (h : ReqHdr) (st : Status) {xs : List Sec} (hx : ∀ x ∈ xs, x.good = true) :
    s.answered (t.respond p h st false xs) p h st false xs ∧ s.ServiceMoved (t.respond p h st false xs) p ∧
      (t.respond p h st false xs).mem = t.mem ∧ (t.respond p h st false xs).regs = t.regs := by
  obtain ⟨hmoved, hanswered⟩ := t.respond_answers p h st false hx
  exact ⟨hanswered.of_answers hs.answers, hs.moved.trans (.of_ports hmoved), hmoved.mem, hmoved.regs⟩

end

end State.Serving

/-! ## Judged and served (R172 to R176, R188) -/

section
variable {s : State} {q : Req}

theorem State.reqRange_eq (hk : q.kind ≠ .acc) : s.reqRange q = (q.r.hdr.a, reqBytes q.kind.type q.r.hdr) := by
  unfold State.reqRange
  split
  · contradiction
  · rfl

/-- R16, R131: a request of one burst that no granule and no record holds up. -/
theorem State.rangeStops_none (hk : q.kind ≠ .acc) (h0 : 0 < reqBytes q.kind.type q.r.hdr)
    (h : q.r.hdr.a % 2048 + reqBytes q.kind.type q.r.hdr ≤ 2048) (hr : s.regionHeld q.r.hdr.a = false)
    (hh : s.rangeHeld q.r.hdr.a (reqBytes q.kind.type q.r.hdr) = false) : s.rangeStops q = none := by
  have hbusy : s.flag F.RG_GRAN_BUSY (q.r.hdr.a / gib) = false := hr
  simp only [State.rangeStops, State.reqRange_eq hk, granulesOf_burst h0 h, List.any_cons, List.any_nil, hbusy, hh, Bool.or_self,
    Bool.false_eq_true, if_false]

/-- The slices hold the sectors that a request must have at hand. -/
def State.hasSectors (s : State) (q : Req) : Prop :=
  q.sectorAddrs = [] ∨ s.draws.buckets = [] ∧ ∀ a ∈ q.sectorAddrs, ∃ d, s.cached a [d]

section
variable (h : s.hasSectors q)
include h

theorem State.hasSectors.needsNone : q.sectorAddrs.filterMap s.needsRead = [] := by
  obtain h | ⟨hb, h⟩ := h
  · rw [h, List.filterMap_nil]
  · refine List.filterMap_eq_nil_iff.mpr fun a ha => ?_
    obtain ⟨d, hd⟩ := h a ha
    obtain ⟨l, x, hl, hx, -⟩ := State.cached_one hd
    simp [State.needsRead, State.reservedSec_none hb, hl, hx]

theorem State.hasSectors.waitsNone : (q.sectorAddrs.filterMap s.locate).any s.mustWait = false := by
  obtain h | ⟨-, h⟩ := h
  · rw [h, List.filterMap_nil, List.any_nil]
  · refine List.any_eq_false.mpr fun l hl => ?_
    obtain ⟨a, ha, hloc⟩ := List.mem_filterMap.mp hl
    obtain ⟨d, hd⟩ := h a ha
    obtain ⟨l', x, hl', hx, -⟩ := State.cached_one hd
    obtain rfl := Option.some.inj (hloc.symm.trans hl')
    simp [State.mustWait, hx]

theorem State.hasSectors.atHand : q.sectorAddrs.all s.atHand = true := by
  obtain h | ⟨-, h⟩ := h
  · rw [h, List.all_nil]
  · exact List.all_eq_true.mpr fun a ha => (h a ha).elim fun d hd => State.atHand_cached hd

end

theorem State.hasSectors.congr {t : State} (h : s.hasSectors q) (hm : t.mem = s.mem) (hd : t.draws = s.draws) (hr : RegsBut s t HitRegs) :
    t.hasSectors q := by
  refine h.imp_right fun ⟨hb, h⟩ => ⟨by rw [hd, hb], fun a ha => ?_⟩
  obtain ⟨d, hc⟩ := h a ha
  refine ⟨d, fun i hi => ?_⟩
  obtain ⟨l, hl, hx⟩ := hc i hi
  exact ⟨l, State.locate_kept hr hl, (congrArg _ (State.sliceHas_congr (by rw [hm]) l)).trans hx⟩

/-- A request that nothing is before or in the way of is carried out. -/
theorem State.serve_now {l : Loc} (hk : q.kind ≠ .acc) (hstops : s.rangeStops q = none) (hn : s.noRequests)
    (hl : s.locate q.r.hdr.a = some l) (h : s.hasSectors q) :
    s.serve q = Svc.ofOption (((s.passData q q.kind.type).countReq q).perform q) := by
  obtain ⟨hwaits, hretry⟩ := hn
  have hacc : (q.kind == .acc) = false := beq_eq_false_iff_ne.mpr hk
  have hway : s.wayTaken q = false := by simp only [State.wayTaken, hwaits, List.any_nil, Bool.and_false]
  simp only [State.serve, hstops, hwaits, List.any_nil, hacc, hl, h.needsNone, ite_self, List.isEmpty_nil, Bool.not_true, hretry,
    Bool.or_self, h.waitsNone, hway, Bool.false_and, Bool.false_eq_true, if_false]

/-- R171, R221: credits that return, and the access that hits. -/
theorem State.passData_credits (s : State) (q : Req) (t : ReqType) : s.CreditsMoved (s.passData q t) q.port := by
  unfold State.passData
  split
  · exact .returnCredit ..
  · exact .refl s _

theorem State.countReq_hits (hk : q.kind ≠ .acc) (h : s.hasSectors q) : s.HitsOnly (s.countReq q) ∧ (s.countReq q).mem = s.mem := by
  have hall : (q.skipsFill || q.sectorAddrs.all s.atHand) = true := by rw [h.atHand, Bool.or_true]
  have hcount : s.countReq q = s.countAccess true q.r.hdr.p (s.reqRange q).2 := by
    unfold State.countReq
    dsimp only
    rw [hall]
    split
    · contradiction
    · rfl
  rw [hcount]
  exact ⟨.countAccess .., s.countAccess_mem ..⟩

/-- The state in which a request that nothing holds up is carried out. -/
theorem State.serve_performs {l : Loc} (hk : q.kind ≠ .acc) (hstops : s.rangeStops q = none) (hn : s.noRequests)
    (hl : s.locate q.r.hdr.a = some l) (h : s.hasSectors q) :
    ∃ x, s.Serving x q.port ∧ x.mem = s.mem ∧ s.serve q = Svc.ofOption (x.perform q) := by
  have hpass := s.passData_credits q q.kind.type
  obtain ⟨hhits, hmem⟩ := State.countReq_hits hk (h.congr hpass.moved.mem hpass.moved.draws (hpass.moved.regsBut _))
  exact ⟨_, (State.Serving.of_credits hpass).trans (.of_hits hhits), hmem.trans hpass.moved.mem, State.serve_now hk hstops hn hl h⟩

end

section
variable {s : State} {p : Nat} {k : ReqType} {r : PortReq}

/-- R172: a request that no check turns away acts. -/
theorem exec_accepted (h : s.accepts p k r) (hb : windowOf r.hdr.a = .memory → badOperand k r = none)
    (hr : k = .acc → s.rangeStops ⟨p, s.ports.nextSeq, k.kind, r, true, false⟩ ≠ some .region) :
    ∃ u, s.TookHeader u p r.hdr ∧ exec (k.instr p r) s = .next (u.act p k r) := by
  obtain ⟨htaken, hpart, hform, hregion, hpermitted, hclass, hfail⟩ := h
  obtain ⟨hp, hpasses⟩ := htaken.passes
  obtain ⟨u, hi, hu⟩ := hpasses.ingress
  have hlate : s.lateCheck k r = none := by
    simp only [State.lateCheck, hpermitted, hclass, hfail, Bool.not_true, Bool.false_eq_true, if_false, ne_eq, not_true_eq_false]
    split
    · next hw => rw [hb (beq_iff_eq.mp hw), Option.map_none]
    · rfl
  have hstops : windowOf r.hdr.a = .memory → s.rangeStops ⟨p, s.ports.nextSeq, k.kind, r, true, false⟩ ≠ some .region := fun hw => by
    by_cases hk : k = .acc
    · exact hr hk
    · obtain ⟨h0, hburst⟩ := State.formOk_burst hform hw hk
      exact State.rangeStops_ne_region (ReqType.kind_ne_acc hk) h0 hburst (hregion hw)
  refine ⟨u, hu, ?_⟩
  rw [exec_request, State.request_judged hp hi ((hu.moved.congr (·.partOk p r.hdr) fun _ _ _ _ => rfl).trans hpart)
    ((hu.moved.congr (·.formOk k r.hdr) fun _ _ _ _ => rfl).trans hform) fun hw => ?_,
    (hu.moved.congr (·.lateCheck k r) fun _ _ _ _ => rfl).trans hlate]
  rw [hu.nextSeq, hu.moved.congr (·.rangeStops _) fun _ _ _ _ => rfl]
  exact hstops hw

/-- The next number in the order of acceptance is given away. -/
def State.nextNumber (s : State) : State := { s with ports := { s.ports with nextSeq := s.ports.nextSeq + 1 } }

theorem State.nextNumber_moved (s : State) (p : Nat) : s.PortMoved s.nextNumber p := ⟨rfl, fun _ _ => rfl⟩

/-- A request to memory acts at its home slice. -/
theorem State.act_memory (hw : windowOf r.hdr.a = .memory) (hk : k ≠ .rndrd) (hd : k ≠ .door) :
    s.act p k r = s.admitReq p k.kind r := by
  cases k with
  | rndrd => contradiction
  | door => contradiction
  | rd | wr | wrFinal | acc | atom => simp [State.act, hw, ReqType.kind]

theorem State.admitReq_done {t : State} (hk : k ≠ .wrFinal)
    (h : s.nextNumber.serve ⟨p, s.ports.nextSeq, k.kind, r, true, false⟩ = .done t) : s.admitReq p k.kind r = t := by
  have hkind : k.kind ≠ .wrFinal := by
    cases k with
    | wrFinal => contradiction
    | rd | wr | acc | atom | rndrd | door => exact ReqKind.noConfusion
  unfold State.nextNumber at h
  rw [State.admitReq, if_neg hkind, h]

/-- R176, R188: an accepted request to memory that nothing holds up is carried out. -/
theorem exec_performs {l : Loc} {q : Req} (hq : q = ⟨p, s.ports.nextSeq, k.kind, r, true, false⟩) (h : s.accepts p k r)
    (hw : windowOf r.hdr.a = .memory) (hk : k = .rd ∨ k = .wr ∨ k = .atom) (hb : badOperand k r = none) (hn : s.noRequests)
    (hh : s.rangeHeld r.hdr.a (reqBytes k r.hdr) = false) (hl : s.locate r.hdr.a = some l) (hs : s.hasSectors q) :
    ∃ x, s.Serving x p ∧ x.mem = s.mem ∧ ∀ t, x.perform q = some t → exec (k.instr p r) s = .next t := by
  have hne : k ≠ .acc ∧ k ≠ .rndrd ∧ k ≠ .door ∧ k ≠ .wrFinal ∧ k.kind.type = k := by
    obtain rfl | rfl | rfl := hk <;> exact ⟨nofun, nofun, nofun, nofun, rfl⟩
  obtain ⟨hacc, hrnd, hdoor, hfinal, htype⟩ := hne
  obtain ⟨u, hu, hexec⟩ := exec_accepted h (fun _ => hb) fun e => absurd e hacc
  have hmoved : s.PortMoved u.nextNumber p := hu.moved.trans (u.nextNumber_moved p)
  have hkind : q.kind ≠ .acc := by rw [hq]; exact ReqType.kind_ne_acc hacc
  obtain ⟨-, -, hform, hregion, -⟩ := h
  obtain ⟨h0, hburst⟩ := State.formOk_burst hform hw hacc
  have hstops : u.nextNumber.rangeStops q = none := by
    rw [hmoved.congr (·.rangeStops q) fun _ _ _ _ => rfl]
    subst hq
    exact State.rangeStops_none hkind h0 hburst (hregion hw) (htype.symm ▸ hh)
  obtain ⟨x, hx, hmem, hserve⟩ := State.serve_performs hkind hstops (State.noRequests_of (by rw [hmoved.mem]) hmoved.waits hn)
    (l := l) (by rw [hq]; exact (hmoved.congr (·.locate _) fun _ _ _ _ => rfl).trans hl)
    (hs.congr hmoved.mem hmoved.draws (hmoved.regsBut _))
  have hport : q.port = p := by rw [hq]
  rw [hport] at hx
  have hanswers : u.nextNumber.answers = s.answers := by rw [State.answers, State.answers, ← hu.sent]; rfl
  refine ⟨x, (⟨.of_ports hmoved, hanswers⟩ : s.Serving u.nextNumber p).trans hx, hmem.trans hmoved.mem, fun t ht => ?_⟩
  rw [hexec, State.act_memory hw hrnd hdoor, State.admitReq_done (t := t) hfinal]
  rw [hu.nextSeq, ← hq, hserve, ht]
  rfl

end

end Sys2Proof.Machine
end

section
/-!
PROOF of O33: reads, random reads and doorbells are answered.
-/

namespace Sys2Proof.Machine

/-! ## RD of sectors that the slices hold (R173, R189) -/

section
variable {s : State} {a : Nat} {ds : List SectorBits}

theorem State.cached.sector (h : s.cached a ds) {i : Nat} (hi : i < ds.length) : s.cached (a + 64 * i) [ds.getD i 0] := fun j hj => by
  obtain rfl : j = 0 := Nat.lt_one_iff.mp hj
  exact h i hi

theorem State.countFills_none (hb : s.draws.buckets = []) (len : Nat) : s.countFills a len = s := by
  rw [State.countFills, hb, List.all_nil, if_pos rfl]

theorem State.readFor_cached (hb : s.draws.buckets = []) {d : SectorBits} (h : s.cached a [d]) (part : Nat) :
    ∃ t, s.readFor a part = (⟨mkSec d, .ok, false⟩, t) ∧ s.HitsOnly t := by
  obtain ⟨l, x, hl, hx, hd⟩ := State.cached_one h
  have hgood : x.sec.good = true := by simp [hd, Sec.good, mkSec]
  refine ⟨_, ?_, .touch s l.n l.k⟩
  rw [State.readFor, State.reservedSec_none hb, hl]
  dsimp only
  rw [State.sliceRead_held hx hgood, hd]
  rfl

/-- One sector more of an RD. -/
def rdStep (h : ReqHdr) (acc : List Sec × Status × State) (i : Nat) : List Sec × Status × State :=
  let g := acc.2.2.readFor (h.a + 64 * i) h.p
  (acc.1 ++ [g.1.sec], Status.worst acc.2.1 g.1.st, g.2)

theorem foldl_rdStep_cached {h : ReqHdr} (hb : s.draws.buckets = []) (hc : s.cached h.a ds) :
    ∀ n ≤ ds.length, ∃ t, (List.range n).foldl (rdStep h) ([], .ok, s) = ((ds.take n).map mkSec, .ok, t) ∧ s.HitsOnly t
  | 0, _ => ⟨s, rfl, .refl s⟩
  | n + 1, hn => by
    obtain ⟨t, ht, hhits⟩ := foldl_rdStep_cached hb hc n (by omega)
    obtain ⟨u, hu, hmore⟩ := State.readFor_cached (hhits.draws ▸ hb) ((hhits.cached hc).sector (show n < ds.length by omega)) h.p
    refine ⟨u, ?_, hhits.trans hmore⟩
    rw [List.range_succ, List.foldl_append, ht, List.foldl_cons, List.foldl_nil, rdStep]
    dsimp only
    rw [hu, List.take_add_one, List.map_append, List.getElem?_eq_getElem (by omega), List.getD_eq_getElem _ _ (by omega)]
    rfl

theorem State.finishRd_cached {q : Req} (hb : s.draws.buckets = []) (hc : s.cached q.r.hdr.a ds) (hlen : ds.length = q.r.hdr.len)
    (hue : q.ue = false) : ∃ t, s.finishRd q = t.respond q.port q.r.hdr .ok false (ds.map mkSec) ∧ s.HitsOnly t := by
  obtain ⟨t, ht, hhits⟩ := foldl_rdStep_cached hb hc _ hlen.ge
  refine ⟨t, ?_, hhits⟩
  rw [State.finishRd]
  dsimp only
  rw [State.countFills_none hb, hue]
  change (fun x : List Sec × Status × State => x.2.2.respond q.port q.r.hdr x.2.1 false x.1)
    ((List.range q.r.hdr.len).foldl (rdStep q.r.hdr) ([], .ok, s)) = _
  rw [ht, ← hlen, List.take_length]

theorem mkSec_good (d : SectorBits) : (mkSec d).good = true := by simp [Sec.good, mkSec]

theorem map_mkSec_good (ds : List SectorBits) : ∀ x ∈ ds.map mkSec, x.good = true := fun x hx => by
  obtain ⟨d, -, rfl⟩ := List.mem_map.mp hx
  exact mkSec_good d

theorem rd_answers {p : Nat} {r : PortReq} (h : s.accepts p .rd r) (hw : windowOf r.hdr.a = .memory) (hlen : ds.length = r.hdr.len)
    (hc : s.cached r.hdr.a ds) (hn : s.noRequests) (hh : s.rangeHeld r.hdr.a (64 * r.hdr.len) = false) (hb : s.draws.buckets = []) :
    ∃ t, exec (.rd p r) s = .next t ∧ s.answered t p r.hdr .ok false (ds.map mkSec) ∧ s.otherPorts t p ∧
      (∀ l, t.now l = s.now l) ∧ s.arrayKept t (fun _ => False) ∧ t.draws = s.draws ∧ t.anv = s.anv ∧ t.pl = s.pl ∧
      RegsBut s t (fun o => o = Reg.offset .SB_HITS 0 ∨ o = Reg.offset .MW_IRQ_CAUSE 0) := by
  have hpos : 0 < ds.length := hlen ▸ Nat.succ_pos _
  obtain ⟨l, hl, -⟩ := hc 0 hpos
  have hsectors : s.hasSectors ⟨p, s.ports.nextSeq, .rd, r, true, false⟩ := .inr ⟨hb, fun a ha => by
    obtain ⟨i, hi, rfl⟩ := List.mem_map.mp ha
    exact ⟨_, hc.sector (hlen ▸ List.mem_range.mp hi)⟩⟩
  obtain ⟨x, hx, hmem, hexec⟩ := exec_performs rfl h hw (.inl rfl) rfl hn hh hl hsectors
  have hxc : x.cached r.hdr.a ds := fun i hi => by
    obtain ⟨l, hl, hd⟩ := hc i hi
    exact ⟨l, hx.moved.locate hl, (congrArg _ (State.sliceHas_congr (by rw [hmem]) l)).trans hd⟩
  obtain ⟨y, hy, hhits⟩ := State.finishRd_cached (q := ⟨p, s.ports.nextSeq, .rd, r, true, false⟩) (hx.moved.draws ▸ hb) hxc hlen rfl
  have hheld (l : Loc) : y.sliceHas l = s.sliceHas l := (hhits.held l).trans (State.sliceHas_congr (by rw [hmem]) l)
  obtain ⟨hanswered, hmoved, htmem, -⟩ := (hx.trans (.of_hits hhits)).respond r.hdr .ok (map_mkSec_good ds)
  exact ⟨_, hexec _ (congrArg some hy), hanswered, hmoved.others,
    fun l => hmoved.now ((State.sliceHas_congr (by rw [htmem]) l).trans (hheld l)), hmoved.arrayKept _, hmoved.draws, hmoved.anv, hmoved.pl,
    hmoved.regs⟩

end

/-! ## RD of a Drawer page and RNDRD (R115, R275) -/

section
variable {s u : State} {p : Nat} {r : PortReq}

/-- A request that its port has taken and that is answered at once. -/
theorem State.TookHeader.answers (hu : s.TookHeader u p r.hdr) {w : State} (hw : u.CreditsMoved w p) (st : Status) {xs : List Sec}
    (hx : ∀ x ∈ xs, x.good = true) : s.answered (w.respond p r.hdr st false xs) p r.hdr st false xs ∧
      s.PortMoved (w.respond p r.hdr st false xs) p := by
  obtain ⟨hmoved, hanswered⟩ := w.respond_answers p r.hdr st false hx
  have hsent : u.answers = s.answers := by rw [State.answers, hu.sent, State.answers]
  exact ⟨hanswered.of_answers (hw.answers.trans hsent), (hu.moved.trans hw.moved).trans hmoved⟩

theorem rd_drawer {d : Nat} (h : s.accepts p .rd r) (hw : windowOf r.hdr.a = .drawer) (hd : d = r.hdr.a / 65536 % 64)
    (h0 : r.hdr.a % 65536 = 0) : ∃ t, exec (.rd p r) s = .next t ∧
      s.answered t p r.hdr .ok false [mkSec (ofWords [0, 0, s.view .DR_STAT d, s.view .DR_DB d, 0, 0, 0, 0])] ∧
      s.otherPorts t p ∧ t.mem = s.mem ∧ t.draws = s.draws ∧ t.anv = s.anv ∧ RegsBut s t (fun _ => False) := by
  obtain ⟨u, hu, hexec⟩ := exec_accepted h (fun e => by rw [hw] at e; cases e) nofun
  have hview (g : Reg) (hg : g = .DR_STAT ∨ g = .DR_DB) : u.view g d = s.view g d := by
    obtain rfl | rfl := hg
    · exact hu.moved.congr (·.view .DR_STAT d) fun _ _ _ _ => rfl
    · exact hu.moved.congr (·.view .DR_DB d) fun _ _ _ _ => rfl
  have hact : u.act p .rd r =
      u.respond p r.hdr .ok false [mkSec (ofWords [0, 0, s.view .DR_STAT d, s.view .DR_DB d, 0, 0, 0, 0])] := by
    rw [← hview _ (.inl rfl), ← hview _ (.inr rfl), hd]
    simp [State.act, State.readWindow, hw, h0, pageOf]
  obtain ⟨hanswered, hmoved⟩ := hu.answers (.refl u p) .ok (xs := [mkSec (ofWords [0, 0, s.view .DR_STAT d, s.view .DR_DB d, 0, 0, 0, 0])])
    fun x hx => List.mem_singleton.mp hx ▸ mkSec_good _
  exact ⟨_, hexec.trans (congrArg _ hact), hanswered, hmoved.others, hmoved.mem, hmoved.draws, hmoved.anv, hmoved.regsBut _⟩

/-- R270: `w` random bits are below 2^w. -/
theorem Gen.bits_mod (k : BitVec 256) (w i : Nat) (x d : BitVec 32) : Gen.bits k w i x d % 2 ^ w = Gen.bits k w i x d := Nat.mod_mod _ _

/-- The lanes of a sector of random words. -/
theorem randomSector_lane {w n j : Nat} (f : Nat → Nat) (hf : ∀ j, f j % 2 ^ w = f j) (hn : w * n ≤ 512) (hj : j < n) :
    (mkSec (BitVec.ofNat 512 (((List.range n).map fun j => f j * 2 ^ (w * j)).foldl (· + ·) 0))).data.toNat / 2 ^ (w * j) % 2 ^ w =
      f j % 2 ^ w := by
  have hsum : ((List.range n).map fun j => f j * 2 ^ (w * j)).foldl (· + ·) 0 = laneSum w n f := by
    rw [List.foldl_map, laneSum]
    simp only [hf]
  have hdata (x : SectorBits) : (mkSec x).data = x := rfl
  rw [hsum, hdata, toNat_ofNat_of_lt (laneSum_lt_of_le hn f), laneSum_lane f hj]

theorem rndrd_answers {w n : Nat} (h : s.accepts p .rndrd r) (hwin : windowOf r.hdr.a = .random) (hn : n = r.hdr.a / 2 ^ 34 % 64)
    (hw : w = 4 * 2 ^ s.fld F.CR_RCTX1_WCODE n) : ∃ t, exec (.rndrd p r) s = .next t ∧
      (∃ xs, s.answered t p r.hdr .ok false xs ∧ xs.length = r.hdr.len ∧
      ∀ k < r.hdr.len, ∀ j < 512 / w, (xs.getD k (mkSec 0)).data.toNat / 2 ^ (w * j) % 2 ^ w =
        Gen.bits (s.seed n) w (s.fld F.CR_RCTX1_INDEX_BASE n + 8 * (r.hdr.a % 2 ^ 34) / w + 512 / w * k + j)
          (BitVec.ofNat 32 (s.fld F.CR_RCTX0_STREAM n)) (BitVec.ofNat 32 (s.fld F.CR_RCTX0_DRAW n)) % 2 ^ w) ∧
      s.otherPorts t p ∧ t.mem = s.mem ∧ t.draws = s.draws ∧ RegsBut s t (fun _ => False) := by
  obtain ⟨u, hu, hexec⟩ := exec_accepted h (fun e => by rw [hwin] at e; cases e) nofun
  have hsectors : u.randomSectors r.hdr = s.randomSectors r.hdr := hu.moved.congr (·.randomSectors r.hdr) fun _ _ _ _ => rfl
  have hcharge : (u.charge r.hdr.part.toNat 12 (4 * r.hdr.len)).randomSectors r.hdr = u.randomSectors r.hdr :=
    (State.CreditsMoved.charge u p r.hdr.part.toNat 12 _).moved.congr (·.randomSectors r.hdr) fun _ _ _ _ => rfl
  have hgood : ∀ x ∈ s.randomSectors r.hdr, x.good = true := fun x hx => by
    obtain ⟨k, -, rfl⟩ := List.mem_map.mp hx
    exact mkSec_good _
  obtain ⟨hanswered, hmoved⟩ := hu.answers (State.CreditsMoved.charge u p r.hdr.part.toNat 12 (4 * r.hdr.len)) .ok hgood
  have hact : u.act p .rndrd r = (u.charge r.hdr.part.toNat 12 (4 * r.hdr.len)).respond p r.hdr .ok false (s.randomSectors r.hdr) := by
    rw [← hsectors]
    rfl
  refine ⟨_, hexec.trans (congrArg _ hact), ⟨_, hanswered, ?_, fun k hk j hj => ?_⟩, hmoved.others, hmoved.mem, hmoved.draws, hmoved.regsBut _⟩
  · rw [State.randomSectors]
    simp only [List.length_map, List.length_range]
  · have hfits : w * (512 / w) ≤ 512 := Nat.mul_div_le _ _
    have hsector : (s.randomSectors r.hdr).getD k (mkSec 0) = mkSec (BitVec.ofNat 512 (((List.range (512 / w)).map fun j =>
        Gen.bits (s.seed n) w (s.fld F.CR_RCTX1_INDEX_BASE n + 8 * (r.hdr.a % 2 ^ 34) / w + 512 / w * k + j)
          (BitVec.ofNat 32 (s.fld F.CR_RCTX0_STREAM n)) (BitVec.ofNat 32 (s.fld F.CR_RCTX0_DRAW n)) * 2 ^ (w * j)).foldl (· + ·) 0)) := by
      rw [State.randomSectors, List.getD_eq_getElem _ _ (by simpa using hk)]
      simp only [List.getElem_map, List.getElem_range, hw, hn]
    rw [hsector]
    exact randomSector_lane _ (fun j => Gen.bits_mod ..) hfits hj

end

/-! ## DOOR (R115) -/

section
variable {s : State} {p d v : Nat} {r : PortReq} {x : InSector}

/-- A doorbell that is whole moves its position or is refused there. -/
theorem exec_door (h : s.accepts p .door r) (hw : windowOf r.hdr.a = .drawer) (hd : d = r.hdr.a / 65536 % 64) (hx : r.sectors = [x])
    (hf : x.fault = false) (hv : x.data.toNat = v) (hlt : v < 2 ^ 17) : ∃ u, s.TookHeader u p r.hdr ∧
      ∀ b : Status × State, b = (if r.hdr.a % 65536 = 0 then u.doorSq d v else u.doorCq d v) →
        exec (.door p r) s = .next (b.2.refuse p .door r.hdr b.1 false 1) := by
  obtain ⟨u, hu, hexec⟩ := exec_accepted h (fun e => by rw [hw] at e; cases e) nofun
  refine ⟨u, hu, fun b hb => hexec.trans (congrArg _ ?_)⟩
  have hsector : r.sectors.getD 0 ⟨0, 0, true⟩ = x := by rw [hx]; rfl
  rw [State.act, State.door]
  dsimp only
  rw [hsector, hf, hv, if_neg Bool.false_ne_true, if_neg (by omega), hb, hd]
  split <;> rfl

variable {u : State} (he : s.flag F.DR_CTL_ENABLE d = true)
include he

theorem State.doorSq_moves (h : occupancy v (s.sqHead d) ≤ s.sqSize d) : s.doorSq d v = (.ok, s.setSqTail d v) := by
  simp only [State.doorSq, he, Bool.not_true, Bool.false_eq_true, if_false, Nat.not_lt.mpr h]

theorem State.doorSq_refuses (h : s.sqSize d < occupancy v (s.sqHead d)) : s.doorSq d v = (.badArg, s.doorErr d) := by
  simp only [State.doorSq, he, Bool.not_true, Bool.false_eq_true, if_false, h, if_true]

theorem State.doorCq_moves (h : occupancy (s.cqTail d) v ≤ s.cqSize d) : s.doorCq d v = (.ok, s.setCqHead d v) := by
  simp only [State.doorCq, he, Bool.not_true, Bool.false_eq_true, if_false, Nat.not_lt.mpr h]

end

/-- The other doorbell of a Drawer stays. -/
theorem State.cqHead_setSqTail (s : State) (d p : Nat) : (s.setSqTail d p).cqHead d = s.cqHead d :=
  congrArg₂ (fun x y => x * 65536 + y) (State.putPosition_field sqTail_position s d p rfl (by decide) (by decide))
    (State.putPosition_field sqTail_position s d p rfl (by decide) (by decide))

theorem State.sqTail_of_regs {s t : State} (h : t.regs = s.regs) (d : Nat) : t.sqTail d = s.sqTail d := by
  simp only [State.sqTail, State.fld_congr h]

theorem State.cqHead_of_regs {s t : State} (h : t.regs = s.regs) (d : Nat) : t.cqHead d = s.cqHead d := by
  simp only [State.cqHead, State.fld_congr h]

theorem State.sqHead_lt (s : State) (d : Nat) : s.sqHead d < 131072 := State.position_lt sqHead_position s d

section
variable {s : State} {p d v : Nat} {r : PortReq} {x : InSector} (h : s.accepts p .door r) (hw : windowOf r.hdr.a = .drawer)
  (hd : d = r.hdr.a / 65536 % 64) (hx : r.sectors = [x]) (hf : x.fault = false) (hv : x.data.toNat = v) (hlt : v < 2 ^ 17)
  (he : s.flag F.DR_CTL_ENABLE d = true)
include h hw hd hx hf hv hlt he

theorem door_movesTail (h0 : r.hdr.a % 65536 = 0) (hocc : (v + 2 ^ 17 - s.sqHead d) % 2 ^ 17 ≤ s.sqSize d) :
    ∃ t, exec (.door p r) s = .next t ∧ s.answered t p r.hdr .ok false [] ∧ t.sqTail d = v ∧ t.cqHead d = s.cqHead d ∧
      RegsBut s t (fun o => o = Reg.offset .DR_DB d) ∧ t.mem = s.mem ∧ t.draws = s.draws := by
  obtain ⟨u, hu, hexec⟩ := exec_door h hw hd hx hf hv hlt
  have hhead : u.sqHead d = s.sqHead d := hu.moved.congr (·.sqHead d) fun _ _ _ _ => rfl
  have hsize : u.sqSize d = s.sqSize d := hu.moved.congr (·.sqSize d) fun _ _ _ _ => rfl
  have hother : u.cqHead d = s.cqHead d := hu.moved.congr (·.cqHead d) fun _ _ _ _ => rfl
  have henabled : u.flag F.DR_CTL_ENABLE d = true := (hu.moved.congr (·.flag F.DR_CTL_ENABLE d) fun _ _ _ _ => rfl).trans he
  have hmoves : u.doorSq d v = (.ok, u.setSqTail d v) := State.doorSq_moves henabled (by
    rw [hhead, hsize, occupancy_eq (s.sqHead_lt d)]
    exact hocc)
  have hwrote : u.Wrote (u.setSqTail d v) fun o => o = Reg.offset .DR_DB d := ⟨rfl, (RegsBut.refl u _).setSqTail v rfl⟩
  obtain ⟨t, ht, hsame, hregs, hanswered, -, hmem, hdraws, -⟩ := hu.refused hwrote .door .ok false 1
  refine ⟨t, ?_, hanswered, ?_, ?_, hregs, hmem, hdraws⟩
  · rw [hexec _ (by rw [if_pos h0]), hmoves, ht]
  · exact (State.sqTail_of_regs hsame d).trans (State.sqTail_setSqTail u d v hlt)
  · exact ((State.cqHead_of_regs hsame d).trans (State.cqHead_setSqTail u d v)).trans hother

theorem door_movesHead (h8 : r.hdr.a % 65536 = 8) (hocc : (s.cqTail d + 2 ^ 17 - v) % 2 ^ 17 ≤ s.cqSize d) :
    ∃ t, exec (.door p r) s = .next t ∧ s.answered t p r.hdr .ok false [] ∧ t.cqHead d = v ∧ t.sqTail d = s.sqTail d ∧
      RegsBut s t (fun o => o = Reg.offset .DR_DB d) ∧ t.mem = s.mem ∧ t.draws = s.draws := by
  obtain ⟨u, hu, hexec⟩ := exec_door h hw hd hx hf hv hlt
  have htail : u.cqTail d = s.cqTail d := hu.moved.congr (·.cqTail d) fun _ _ _ _ => rfl
  have hsize : u.cqSize d = s.cqSize d := hu.moved.congr (·.cqSize d) fun _ _ _ _ => rfl
  have hother : u.sqTail d = s.sqTail d := hu.moved.congr (·.sqTail d) fun _ _ _ _ => rfl
  have henabled : u.flag F.DR_CTL_ENABLE d = true := (hu.moved.congr (·.flag F.DR_CTL_ENABLE d) fun _ _ _ _ => rfl).trans he
  have hmoves : u.doorCq d v = (.ok, u.setCqHead d v) := State.doorCq_moves henabled (by
    rw [htail, hsize, occupancy_eq hlt]
    exact hocc)
  have hwrote : u.Wrote (u.setCqHead d v) fun o => o = Reg.offset .DR_DB d := ⟨rfl, (RegsBut.refl u _).setCqHead v rfl⟩
  obtain ⟨t, ht, hsame, hregs, hanswered, -, hmem, hdraws, -⟩ := hu.refused hwrote .door .ok false 1
  refine ⟨t, ?_, hanswered, ?_, ?_, hregs, hmem, hdraws⟩
  · rw [hexec _ (by rw [if_neg (by omega)]), hmoves, ht]
  · exact (State.cqHead_of_regs hsame d).trans (State.cqHead_setCqHead u d v hlt)
  · exact ((State.sqTail_of_regs hsame d).trans (State.sqTail_setCqHead u d v)).trans hother

theorem door_refused (h0 : r.hdr.a % 65536 = 0) (hocc : s.sqSize d < (v + 2 ^ 17 - s.sqHead d) % 2 ^ 17) :
    ∃ t, exec (.door p r) s = .next t ∧ s.answered t p r.hdr .badArg false [] ∧
      t.fld F.DR_ERR_DOOR_ERR d = Nat.min (s.fld F.DR_ERR_DOOR_ERR d + 1) (2 ^ F.DR_ERR_DOOR_ERR.w - 1) ∧
      RegsBut s t (fun o => o = Reg.offset .DR_ERR d) ∧ t.mem = s.mem ∧ t.draws = s.draws := by
  obtain ⟨u, hu, hexec⟩ := exec_door h hw hd hx hf hv hlt
  have hhead : u.sqHead d = s.sqHead d := hu.moved.congr (·.sqHead d) fun _ _ _ _ => rfl
  have hsize : u.sqSize d = s.sqSize d := hu.moved.congr (·.sqSize d) fun _ _ _ _ => rfl
  have henabled : u.flag F.DR_CTL_ENABLE d = true := (hu.moved.congr (·.flag F.DR_CTL_ENABLE d) fun _ _ _ _ => rfl).trans he
  have hrefuses : u.doorSq d v = (.badArg, u.doorErr d) := State.doorSq_refuses henabled (by
    rw [hhead, hsize, occupancy_eq (s.sqHead_lt d)]
    exact hocc)
  have hwrote : u.Wrote (u.doorErr d) fun o => o = Reg.offset .DR_ERR d := (State.Wrote.refl u _).put F.DR_ERR_DOOR_ERR d _ rfl
  obtain ⟨t, ht, hsame, hregs, hanswered, -, hmem, hdraws, -⟩ := hu.refused hwrote .door .badArg false 1
  refine ⟨t, ?_, hanswered, ?_, hregs, hmem, hdraws⟩
  · rw [hexec _ (by rw [if_pos h0]), hrefuses, ht]
  · rw [State.fld_congr hsame, State.doorErr, State.fld_countSat (by decide), State.fld_congr hu.moved.regs]

end

/-- Settles O33: reads that hit are followed sector by sector, a random sector lane by lane; a doorbell writes its fields or is refused. -/
theorem readsAndDoorbellsAreAnswered : Obligations.ReadsAndDoorbellsAreAnswered := by
  unfold Obligations.ReadsAndDoorbellsAreAnswered
  exact ⟨⟨fun p r ds s h hw hlen hc hq hr hh hb => rd_answers h hw hlen hc ⟨hq, hr⟩ hh hb, fun p d r s => rd_drawer⟩,
    fun p w n r s => rndrd_answers, fun p d v r x s h hw hd hx hf hv hlt he =>
      ⟨door_movesTail h hw hd hx hf hv hlt he, door_movesHead h hw hd hx hf hv hlt he, door_refused h hw hd hx hf hv hlt he⟩⟩

end Sys2Proof.Machine
end

section
/-!
SUPPORT. Writes of several sectors of one burst (R188, R220, R221): each sector finds its line or room for it, whatever was written before.
-/

namespace Sys2Proof.Machine

/-! ## Places of one burst (R211, R215) -/

section
variable {s : State} {a b : Nat} {l x : Loc} (h : a / 2048 = b / 2048)
include h

theorem Tier.place_burst {t : Tier} (ht : t.base % 2048 = 0) : (t.place a).n = (t.place b).n ∧ (t.place a).k / 32 = (t.place b).k / 32 ∧
    (t.place a).k % 32 = a % 2048 / 64 := by
  have hrow : (a - t.base) / 2048 = (b - t.base) / 2048 := by omega
  simp only [Tier.place, hrow, true_and]
  omega

theorem State.stripeLoc_burst {y z : Stripe} (hy : s.stripe a = some y) (hz : s.stripe b = some z) :
    (s.stripeLoc y).n = (s.stripeLoc z).n ∧ (s.stripeLoc y).k / 32 = (s.stripeLoc z).k / 32 ∧ (s.stripeLoc y).k % 32 = a % 2048 / 64 := by
  have hgran : a / gib = b / gib := by
    simp only [gib]
    omega
  have hunit : ∃ base, a / gib / s.mendQ * s.mendQ * gib = 2048 * base := ⟨a / gib / s.mendQ * s.mendQ * 524288, by
    rw [Nat.mul_left_comm]
    rfl⟩
  obtain ⟨base, hbase⟩ := hunit
  simp only [State.stripe, ← hgran, hbase] at hy hz
  have hrow : (a - 2048 * base) / 2048 = (b - 2048 * base) / 2048 := by omega
  have hsector (c : Nat) (hc : 2048 * base ≤ c) : (c - 2048 * base) % 2048 / 64 = c % 2048 / 64 := by omega
  have hdiv (d : Nat) : d / ((s.mendN - 1) * 2048) = d / 2048 / (s.mendN - 1) := by rw [Nat.mul_comm, Nat.div_div_eq_div_mul]
  have hmod (d : Nat) : d % ((s.mendN - 1) * 2048) / 2048 = d / 2048 % (s.mendN - 1) := by
    rw [Nat.mul_comm, Nat.mod_mul_right_div_self]
  split at hy
  · cases hy
  · split at hz
    · cases hz
    · obtain rfl := Option.some.inj hy
      obtain rfl := Option.some.inj hz
      have hlow : 2048 * base ≤ a := hbase ▸ (Nat.mul_le_mul_right _ (Nat.div_mul_le_self _ _)).trans (Nat.div_mul_le_self _ _)
      simp only [State.stripeLoc, hdiv, hmod, hrow, true_and]
      rw [hsector a hlow]
      omega

/-- The sectors of a burst lie one after the other. -/
theorem State.locate_burst (ha : s.locate a = some l) (hb : s.locate b = some x) :
    l.n = x.n ∧ l.k / 32 = x.k / 32 ∧ l.k % 32 = a % 2048 / 64 := by
  have hgran : a / gib = b / gib := by
    simp only [gib]
    omega
  have hclass : s.isMended a = s.isMended b := by rw [State.isMended, State.isMended, hgran]
  unfold State.locate at ha hb
  split at ha
  · cases ha
  · split at hb
    · cases hb
    · rw [← hclass] at hb
      split at ha
      · next hm =>
        rw [if_pos hm] at hb
        obtain ⟨y, hy, rfl⟩ := Option.map_eq_some_iff.mp ha
        obtain ⟨z, hz, rfl⟩ := Option.map_eq_some_iff.mp hb
        exact State.stripeLoc_burst h hy hz
      · next hm =>
        rw [if_neg hm, State.locPlain_eq, ← s.tierAt_burst h] at hb
        rw [State.locPlain_eq] at ha
        obtain ⟨t, ht, rfl⟩ := Option.map_eq_some_iff.mp ha
        obtain ⟨u, hu, rfl⟩ := Option.map_eq_some_iff.mp hb
        obtain rfl := Option.some.inj (ht.symm.trans hu)
        obtain ⟨-, hsane, -⟩ := State.tierAt_some ht
        exact Tier.place_burst h hsane.base

end

/-! ## Room in a set (R220) -/

theorem countP_moved_front_le {u : Nat} {us : List Nat} (h : u ∈ us) (p : Nat → Bool) : (u :: us.filter (· != u)).countP p ≤ us.countP p := by
  have hsplit := List.countP_eq_countP_filter_add us p (· != u)
  have hself : [u].countP p ≤ (us.filter fun v => !(v != u)).countP p :=
    (List.singleton_sublist.mpr (List.mem_filter.mpr ⟨h, by simp⟩)).countP_le
  rw [List.countP_cons]
  rw [List.countP_singleton] at hself
  exact (Nat.add_le_add_left hself _).trans hsplit.ge

/-- The units of the lines of a slice. -/
def Slice.units (x : Slice) : List Nat := x.lines.map Line.unit

/-- A write to a sector finds its line, or room for it in its set. -/
def Slice.roomFor (x : Slice) (ways k : Nat) : Prop := k / 8 ∈ x.units ∨ x.units.countP (fun u => u % 64 == k / 8 % 64) < ways

theorem State.hasRoom_iff (s : State) (l : Loc) : s.hasRoom l ↔ (s.slice l.n).roomFor s.ways l.k := by
  have hany : (s.slice l.n).lines.any (fun y => y.unit == l.k / 8) = true ↔ l.k / 8 ∈ (s.slice l.n).units := by
    simp [Slice.units, List.any_eq_true]
  rw [State.hasRoom, Slice.roomFor, hany, Slice.units, List.countP_map, ← List.countP_eq_length_filter]
  rfl

section
variable {x : Slice} {k j ways : Nat}

theorem Slice.mem_units : k / 8 ∈ x.units ↔ x.hasLine k = true := by
  rw [Slice.hasLine_iff, Slice.units, List.mem_map]

theorem Slice.units_putSec (h : Option Held) : (x.putSec k h).units = x.units := by
  rw [Slice.units, Slice.putSec, List.map_map, Slice.units]
  refine List.map_congr_left fun y _ => ?_
  by_cases hy : y.unit = k / 8 <;> simp [hy]

theorem Slice.units_touch (h : x.hasLine k = true) : (x.touch k).units = k / 8 :: x.units.filter (· != k / 8) := by
  unfold Slice.touch
  split
  · next y hy =>
    have hu : y.unit = k / 8 := beq_iff_eq.mp (List.find?_some (p := fun y : Line => y.unit == k / 8) hy)
    rw [Slice.units, List.map_cons, hu, Slice.units, List.filter_map]
    rfl
  · next hno =>
    obtain ⟨y, hy, hu⟩ := Slice.hasLine_iff.mp h
    exact absurd (beq_iff_eq.mpr hu) (List.find?_eq_none.mp hno y hy)

theorem Slice.roomFor_hold (hl : x.hasLine k = true) (h : Held) (hr : x.roomFor ways j) : (x.hold k h).roomFor ways j := by
  have hput : (x.putSec k (some h)).units = x.units := Slice.units_putSec _
  have hunits : (x.hold k h).units = k / 8 :: x.units.filter (· != k / 8) :=
    (Slice.units_touch (Slice.mem_units.mp (hput ▸ Slice.mem_units.mpr hl))).trans (by rw [hput])
  rw [Slice.roomFor, hunits]
  refine hr.imp (fun hj => ?_) (countP_moved_front_le (Slice.mem_units.mpr hl) _).trans_lt
  by_cases he : j / 8 = k / 8
  · exact List.mem_cons.mpr (.inl he)
  · exact List.mem_cons_of_mem _ (List.mem_filter.mpr ⟨hj, bne_iff_ne.mpr he⟩)

/-- A new line takes room in its own set alone. -/
theorem Slice.roomFor_newLine (hr : x.roomFor ways j) (hd : j / 8 = k / 8 ∨ j / 8 % 64 ≠ k / 8 % 64) : (x.newLine k).roomFor ways j := by
  have hunits : (x.newLine k).units = k / 8 :: x.units := rfl
  rw [Slice.roomFor, hunits]
  obtain he | hne := hd
  · exact .inl (List.mem_cons.mpr (.inl he))
  · exact hr.imp (List.mem_cons_of_mem _) fun h => by rwa [List.countP_cons_of_neg (by simpa using hne.symm)]

end

/-- The slice with the line of a sector. -/
def Slice.lined (x : Slice) (k : Nat) : Slice := if x.hasLine k then x else x.newLine k

section
variable {x : Slice} {k j ways : Nat}

theorem Slice.hasLine_lined : (x.lined k).hasLine k = true := by
  unfold Slice.lined
  split
  · assumption
  · exact x.hasLine_newLine k

theorem Slice.has_lined : (x.lined k).has j = x.has j := by
  unfold Slice.lined
  split
  · rfl
  · next h => exact Slice.has_newLine (eq_false_of_ne_true h) j

theorem Slice.roomFor_lined (hr : x.roomFor ways j) (hd : j / 8 = k / 8 ∨ j / 8 % 64 ≠ k / 8 % 64) : (x.lined k).roomFor ways j := by
  unfold Slice.lined
  split
  · exact hr
  · exact Slice.roomFor_newLine hr hd

end

section
variable {s : State} {l : Loc}

/-- A slice that has a sector's line, or room for it, takes the sector, and no other slice changes. -/
theorem State.slicePut_slices (hr : s.hasRoom l) (h : Held) (part : Nat) : ∃ t, s.slicePut l h part = some t ∧ SlicesOnly s t ∧
    ∀ n, t.slice n = if n = l.n then ((s.slice l.n).lined l.k).hold l.k h else s.slice n := by
  by_cases hl : (s.slice l.n).hasLine l.k = true
  · refine ⟨s.setSlice l.n ((s.slice l.n).hold l.k h), ?_, rfl, fun n => ?_⟩
    · rw [State.slicePut, if_pos hl]
      rfl
    · rw [State.slice_setSlice, Slice.lined, if_pos hl]
  · have hset : ((s.slice l.n).lines.filter fun y => y.set == l.k / 8 % 64).length < s.ways := hr.resolve_left hl
    have hroom : s.makeRoom l.n (l.k / 8) part = some s := by rw [State.makeRoom, if_pos hset]
    generalize hu : s.setSlice l.n ((s.slice l.n).newLine l.k) = u
    have huslice (n : Nat) : u.slice n = if n = l.n then (s.slice l.n).newLine l.k else s.slice n := hu ▸ State.slice_setSlice ..
    refine ⟨u.setSlice l.n ((u.slice l.n).hold l.k h), ?_, ?_, fun n => ?_⟩
    · rw [State.slicePut, if_neg hl, hroom, ← hu]
      rfl
    · rw [SlicesOnly, ← hu]
      rfl
    · rw [State.slice_setSlice, huslice, if_pos rfl, Slice.lined, if_neg hl, huslice]
      split <;> rfl

/-- The lines of two sectors do not vie for room. -/
def Loc.apart (l y : Loc) : Prop := y.n = l.n → y.k / 8 = l.k / 8 ∨ y.k / 8 % 64 ≠ l.k / 8 % 64

/-- From `s` to `t` a sector has been written at `l`. -/
structure State.Landed (s t : State) (l : Loc) (x : Sec) : Prop where
  stands : s.ArrayStands t
  here : t.sliceHas l = some ⟨x, true⟩
  others : ∀ y, y ≠ l → t.sliceHas y = s.sliceHas y
  room : ∀ y, s.hasRoom y → l.apart y → t.hasRoom y
  retry : ∀ n, (t.chan n).retry = (s.chan n).retry

theorem State.voidBack_retry (s : State) (l : Loc) (n : Nat) : ((s.voidBack l).chan n).retry = (s.chan n).retry := by
  unfold State.voidBack
  split
  · by_cases hn : n = l.n
    · rw [hn, State.chan_setChan_same]
    · rw [State.chan_setChan_other _ _ hn]
  · rfl

/-- R250: the granule of a written sector holds data. -/
theorem State.Landed.touch {t : State} {x : Sec} (h : s.Landed t l x) (a : Nat) : s.Landed (t.touch a) l x where
  stands := ⟨by rw [State.touch, h.stands.rest]⟩
  here := h.here
  others := h.others
  room := h.room
  retry := h.retry

/-- R188, R221: a good sector written to a slice that serves and has room for it. -/
theorem State.sliceWrite_lands (hc : s.chanState l.n ≠ 3) (hr : s.hasRoom l) {x : Sec} (hx : x.good = true) (part : Nat) :
    ∃ t, s.sliceWrite l x part = some t ∧ s.Landed t l x := by
  obtain ⟨u, hput, hrest, huslice⟩ := State.slicePut_slices hr ⟨x, true⟩ part
  obtain ⟨hvoid, hslices⟩ := u.voidBack_stands l
  have hwrite : s.sliceWrite l x part = some (u.voidBack l) := by
    rw [State.sliceWrite, if_neg (by simpa using hc), State.arrive, if_pos hx]
    simp only [hput, Option.map_some]
  have hstands : s.ArrayStands (u.voidBack l) := ⟨by rw [hvoid.rest, show u = _ from hrest]⟩
  have hslice (n : Nat) : (u.voidBack l).slice n = if n = l.n then ((s.slice l.n).lined l.k).hold l.k ⟨x, true⟩ else s.slice n := by
    rw [State.slice, hslices]
    exact huslice n
  have hchans : u.mem.chans = s.mem.chans := by rw [show u = _ from hrest]
  refine ⟨_, hwrite, hstands, ?_, fun y hy => ?_, fun y hy hd => ?_, fun n => ?_⟩
  · rw [State.sliceHas_eq, hslice, if_pos rfl, Slice.has_hold Slice.hasLine_lined, if_pos rfl]
  · rw [State.sliceHas_eq, hslice]
    split
    · next hn =>
      have hk : y.k ≠ l.k := fun hk => hy (by cases y; cases l; simp_all)
      rw [Slice.has_hold Slice.hasLine_lined, if_neg hk, Slice.has_lined, ← hn]
      rfl
    · rfl
  · have hregs : (u.voidBack l).regs = s.regs := by rw [hstands.rest]
    have hways : (u.voidBack l).ways = s.ways := by rw [State.ways, State.ways, State.fld_congr hregs]
    rw [State.hasRoom_iff] at hy ⊢
    rw [hslice, hways]
    split
    · next hn => exact Slice.roomFor_hold Slice.hasLine_lined _ (Slice.roomFor_lined (hn ▸ hy) (hd hn))
    · exact hy
  · rw [State.voidBack_retry, State.chan, hchans, State.chan]

end

/-! ## Whole-sector writes of one request (R176, R188) -/

section
variable {s : State} {h : ReqHdr} {xs : List InSector}

/-- The sector that a request brings for its `i`th place. -/
def broughtAt (xs : List InSector) (i : Nat) : InSector := xs.getD i ⟨0, 0, true⟩

theorem InSector.toSec_good {x : InSector} (hx : x.good = true) : x.toSec.good = true := by
  unfold InSector.toSec
  split
  · simp [Sec.good, faultSec]
  · exact hx

theorem RegsBut.symm {s t : State} {p : Nat → Prop} (h : RegsBut s t p) : RegsBut t s p := fun d o ho => (h d o ho).symm

theorem State.locate_eq {s t : State} (h : RegsBut s t HitRegs) (a : Nat) : t.locate a = s.locate a :=
  Option.ext fun _ => ⟨State.locate_kept h.symm, State.locate_kept h⟩

/-- Sectors of one request lie apart, and their lines do not vie for room. -/
theorem State.locate_apart {i j : Nat} {l y : Loc} (hburst : h.a % 2048 + 64 * h.len ≤ 2048) (hi : i < h.len) (hj : j < h.len) (hij : i ≠ j)
    (hl : s.locate (h.a + 64 * i) = some l) (hy : s.locate (h.a + 64 * j) = some y) : y ≠ l ∧ l.apart y := by
  obtain ⟨-, hrow, hk⟩ := State.locate_burst (show (h.a + 64 * i) / 2048 = (h.a + 64 * j) / 2048 by omega) hl hy
  obtain ⟨-, -, hk'⟩ := State.locate_burst (show (h.a + 64 * j) / 2048 = (h.a + 64 * i) / 2048 by omega) hy hl
  have hne : (h.a + 64 * i) % 2048 / 64 ≠ (h.a + 64 * j) % 2048 / 64 := by omega
  refine ⟨fun e => hne (by rw [← hk, ← hk', e]), fun _ => ?_⟩
  omega

/-- One sector more of a write. -/
def wrStep (h : ReqHdr) (xs : List InSector) (acc : Option (Status × State)) (i : Nat) : Option (Status × State) :=
  acc.bind fun acc => match acc.2.locate (h.a + 64 * i) with
    | some l =>
      (acc.2.sliceWrite l (broughtAt xs i).toSec h.p).map fun s' =>
        if acc.2.chanState l.n == 3 then (Status.worst acc.1 .degraded, s') else (acc.1, s'.touch h.a)
    | none => some acc

theorem wrStep_none (st : Status) {i : Nat} (hl : s.locate (h.a + 64 * i) = none) : wrStep h xs (some (st, s)) i = some (st, s) := by
  simp only [wrStep, Option.bind_some, hl]

theorem wrStep_lands (st : Status) {i : Nat} {l : Loc} (hl : s.locate (h.a + 64 * i) = some l) (hc : s.chanState l.n ≠ 3) (hr : s.hasRoom l)
    (hx : (broughtAt xs i).good = true) : ∃ t, wrStep h xs (some (st, s)) i = some (st, t) ∧ s.Landed t l (broughtAt xs i).toSec := by
  obtain ⟨t, ht, hlands⟩ := State.sliceWrite_lands hc hr (InSector.toSec_good hx) h.p
  have hne : (s.chanState l.n == 3) = false := beq_eq_false_iff_ne.mpr hc
  refine ⟨_, ?_, hlands.touch h.a⟩
  simp only [wrStep, Option.bind_some, hl, ht, Option.map_some, hne, Bool.false_eq_true, if_false]

/-- From `s` to `t` the first `n` sectors of a request have been written. -/
structure State.WroteUpTo (s t : State) (h : ReqHdr) (xs : List InSector) (n : Nat) : Prop where
  stands : s.ArrayStands t
  here : ∀ i < n, ∀ l, s.locate (h.a + 64 * i) = some l → t.sliceHas l = some ⟨(broughtAt xs i).toSec, true⟩
  others : ∀ l, (∀ i < n, s.locate (h.a + 64 * i) ≠ some l) → t.sliceHas l = s.sliceHas l
  room : ∀ i, n ≤ i → i < h.len → ∀ l, s.locate (h.a + 64 * i) = some l → t.hasRoom l
  retry : ∀ n, (t.chan n).retry = (s.chan n).retry

/-- Every place that a request writes to serves and has room. -/
def State.takes (s : State) (h : ReqHdr) : Prop :=
  ∀ i < h.len, ∀ l, s.locate (h.a + 64 * i) = some l → s.chanState l.n = 0 ∧ s.hasRoom l

theorem State.foldl_wrStep (hburst : h.a % 2048 + 64 * h.len ≤ 2048) (hx : ∀ i < h.len, (broughtAt xs i).good = true) (ht : s.takes h) :
    ∀ n ≤ h.len, ∃ t, (List.range n).foldl (wrStep h xs) (some (.ok, s)) = some (.ok, t) ∧ s.WroteUpTo t h xs n
  | 0, _ => ⟨s, rfl, ⟨⟨rfl⟩, nofun, fun _ _ => rfl, fun i _ hi l hl => (ht i hi l hl).2, fun _ => rfl⟩⟩
  | n + 1, hn => by
    obtain ⟨t, hfold, hstands, hhere, hothers, hroom, hretry⟩ := State.foldl_wrStep hburst hx ht n (by omega)
    have hregs : t.regs = s.regs := by rw [hstands.rest]
    have hloc (a : Nat) : t.locate a = s.locate a := congrFun (State.locate_congr hregs) a
    rw [List.range_succ, List.foldl_append, hfold, List.foldl_cons, List.foldl_nil]
    cases hl : s.locate (h.a + 64 * n) with
    | none =>
      refine ⟨t, wrStep_none _ ((hloc _).trans hl), hstands, fun i hi l hil => ?_, fun l hno => ?_, fun i hi => hroom i (by omega), hretry⟩
      · obtain hlt | rfl : i < n ∨ i = n := by omega
        · exact hhere i hlt l hil
        · rw [hl] at hil
          cases hil
      · exact hothers l fun i hi => hno i (by omega)
    | some l =>
      have hc : t.chanState l.n ≠ 3 := by
        rw [State.chanState, State.fld_congr hregs]
        exact (ht n hn l hl).1.trans_ne (by decide)
      obtain ⟨u, hu, hlands⟩ := wrStep_lands .ok ((hloc _).trans hl) hc (hroom n le_rfl hn l hl) (hx n hn)
      refine ⟨u, hu, ⟨by rw [hlands.stands.rest, hstands.rest]⟩, fun i hi y hy => ?_, fun y hno => ?_, fun i hi hlen y hy => ?_,
        fun m => (hlands.retry m).trans (hretry m)⟩
      · obtain hlt | rfl : i < n ∨ i = n := by omega
        · rw [hlands.others y (State.locate_apart hburst hn (by omega) (by omega) hl hy).1, hhere i hlt y hy]
        · obtain rfl := Option.some.inj (hl.symm.trans hy)
          exact hlands.here
      · rw [hlands.others y fun e => hno n (by omega) (e ▸ hl)]
        exact hothers y fun i hi => hno i (by omega)
      · exact hlands.room y (hroom i (by omega) hlen y hy) (State.locate_apart hburst hn hlen (by omega) hl hy).2

/-- R188: the sectors of a whole-sector write land, and the request is answered. -/
theorem State.finishWr_lands {q : Req} (hburst : q.r.hdr.a % 2048 + 64 * q.r.hdr.len ≤ 2048)
    (hx : ∀ i < q.r.hdr.len, (broughtAt q.r.sectors i).good = true) (ht : s.takes q.r.hdr) :
    ∃ t, s.finishWr q = some (t.respond q.port q.r.hdr .ok false []) ∧ s.WroteUpTo t q.r.hdr q.r.sectors q.r.hdr.len := by
  obtain ⟨t, hfold, hwrote⟩ := State.foldl_wrStep hburst hx ht _ le_rfl
  refine ⟨t, ?_, hwrote⟩
  change Option.map _ ((List.range q.r.hdr.len).foldl (wrStep q.r.hdr q.r.sectors) (some (.ok, s))) = _
  rw [hfold, Option.map_some]

end

end Sys2Proof.Machine
end

section
/-!
PROOF of O34: writes land in the slices, whole, masked, final or held.
-/

namespace Sys2Proof.Machine

/-! ## Every address of the window has a place (R210, R211) -/

/-- The tiers so far cover the addresses below their end. -/
structure TiersCover (acc : List Tier × Nat × Nat) : Prop where
  sum : (acc.1.map Tier.size).sum = acc.2.1
  cover : ∀ a < acc.2.1, ∃ t ∈ acc.1, t.base ≤ a ∧ a < t.base + t.size

theorem TiersCover.step (s : State) {acc : List Tier × Nat × Nat} (h : TiersCover acc) (c : Nat) : TiersCover (s.tierStep acc c) := by
  obtain ⟨sum, cover⟩ := h
  refine ⟨?_, fun a ha => ?_⟩
  · simp only [State.tierStep, List.map_append, List.sum_append, sum, List.map_cons, List.map_nil, List.sum_cons, List.sum_nil, Nat.add_zero]
  · by_cases hlow : a < acc.2.1
    · obtain ⟨t, ht, hin⟩ := cover a hlow
      exact ⟨t, List.mem_append_left _ ht, hin⟩
    · exact ⟨s.nextTier acc c, List.mem_append_right _ (List.mem_singleton_self _), Nat.not_lt.mp hlow, ha⟩

theorem State.locPlain_covers {s : State} {a : Nat} (h : a < s.windowEnd) : ∃ l, s.locPlain a = some l := by
  obtain ⟨sum, cover⟩ : TiersCover (((List.range 16).filter fun c => c != 0 && (List.range 8).any fun t => s.siteCap t == c).foldl
      s.tierStep ([], 0, 0)) :=
    List.foldlRecOn (motive := TiersCover) _ _ ⟨rfl, nofun⟩ fun acc hacc c _ => hacc.step s c
  rw [State.windowEnd, ← List.sum_eq_foldl] at h
  obtain ⟨t, ht, hin⟩ := cover a (h.trans_eq sum)
  have hfind : (s.tierAt a).isSome = true := List.find?_isSome.mpr ⟨t, ht, decide_eq_true hin⟩
  obtain ⟨u, hu⟩ := Option.isSome_iff_exists.mp hfind
  exact ⟨u.place a, by rw [State.locPlain_eq, hu]; rfl⟩

section
variable {s : State} {p : Nat} {r : PortReq}

/-- A write that passes its checks has a place. -/
theorem State.accepts_locate (h : s.accepts p .wr r) (hw : windowOf r.hdr.a = .memory) : ∃ l, s.locate r.hdr.a = some l := by
  obtain ⟨-, -, hform, -, -, hclass, -⟩ := h
  have hmended : s.isMended r.hdr.a = false := by simpa [State.classOk, hw] using hclass
  have hin : s.inMemory r.hdr (64 * r.hdr.len) = true := by
    simp only [State.formOk, hw, Bool.and_eq_true] at hform
    exact hform.2.2.2
  have hlen : 0 < r.hdr.len := Nat.succ_pos _
  obtain ⟨hend, -⟩ := (State.badWindow_eq_false (by omega)).mp (show s.badWindow r.hdr.a (64 * r.hdr.len) = false by
    simpa [State.inMemory, hw] using hin)
  obtain ⟨l, hl⟩ := State.locPlain_covers (show r.hdr.a < s.windowEnd by omega)
  exact ⟨l, by rw [State.locate, if_neg (by omega), hmended, if_neg Bool.false_ne_true, hl]⟩

/-! ## Whole sectors (R173, R188) -/

/-- What a whole-sector write leaves, once it has been answered. -/
theorem State.WroteUpTo.lands {x t u : State} (hx : s.Serving x p) (hmem : x.mem = s.mem) (hwrote : x.WroteUpTo t r.hdr r.sectors r.hdr.len)
    (hu : u.mem = t.mem) : (∀ i < r.hdr.len, ∀ l, s.locate (r.hdr.a + 64 * i) = some l →
        u.sliceHas l = some ⟨(broughtAt r.sectors i).toSec, true⟩) ∧
      ∀ l, (∀ i < r.hdr.len, s.locate (r.hdr.a + 64 * i) ≠ some l) → u.sliceHas l = s.sliceHas l := by
  have hsame (l : Loc) : u.sliceHas l = t.sliceHas l := State.sliceHas_congr (by rw [hu]) l
  refine ⟨fun i hi l hl => (hsame l).trans (hwrote.here i hi l (hx.moved.locate hl)), fun l hno => ?_⟩
  rw [hsame, hwrote.others l fun i hi => by rw [State.locate_eq hx.moved.regs]; exact hno i hi]
  exact State.sliceHas_congr (by rw [hmem]) l

theorem State.perform_whole {q : Req} (hk : q.kind = .wr) (hm : q.r.hdr.isMasked = false) : s.perform q = s.finishWr q := by
  simp only [State.perform, hk, hm, Bool.false_eq_true, if_false]

theorem State.perform_masked {q : Req} (hk : q.kind = .wr) (hm : q.r.hdr.isMasked = true) : s.perform q = s.finishMasked q := by
  simp only [State.perform, hk, hm, if_true]

theorem wr_lands (h : s.accepts p .wr r) (hw : windowOf r.hdr.a = .memory) (hm : r.hdr.isMasked = false)
    (hlen : r.sectors.length = r.hdr.len) (hn : s.noRequests) (hh : s.rangeHeld r.hdr.a (64 * r.hdr.len) = false)
    (ht : s.takes r.hdr) : ∃ t, exec (.wr p r) s = .next t ∧ s.answered t p r.hdr .ok false [] ∧ s.otherPorts t p ∧
      (∀ i < r.hdr.len, ∀ l, s.locate (r.hdr.a + 64 * i) = some l →
        (t.sliceHas l).map Held.sec = some (r.sectors.getD i ⟨0, 0, true⟩).toSec) ∧
      (∀ l, (∀ i < r.hdr.len, s.locate (r.hdr.a + 64 * i) ≠ some l) → t.now l = s.now l) ∧
      s.arrayKept t (fun _ => False) ∧ t.draws = s.draws ∧ t.anv = s.anv ∧ t.pl = s.pl := by
  obtain ⟨l, hl⟩ := State.accepts_locate h hw
  have haddrs : Req.sectorAddrs ⟨p, s.ports.nextSeq, .wr, r, true, false⟩ = [] := by simp [Req.sectorAddrs, hm]
  obtain ⟨x, hx, hmem, hexec⟩ := exec_performs rfl h hw (.inr (.inl rfl)) (by simp [badOperand, hm]) hn hh hl (.inl haddrs)
  obtain ⟨-, -, hform, -, -, -, hfail⟩ := h
  obtain ⟨-, hburst⟩ := State.formOk_burst hform hw nofun
  have hgood : ∀ i < r.hdr.len, (broughtAt r.sectors i).good = true := fun i hi => by
    have hin : inbound .wr r = r.sectors := by simp [inbound, hm, carried, ← hlen]
    rw [failing, hin, List.length_eq_zero_iff, List.filter_eq_nil_iff] at hfail
    have hmem : r.sectors.getD i ⟨0, 0, true⟩ ∈ r.sectors := by
      rw [List.getD_eq_getElem _ _ (hlen ▸ hi)]
      exact List.getElem_mem _
    simpa [broughtAt] using hfail _ hmem
  have hxt : x.takes r.hdr := fun i hi l hl => by
    obtain ⟨hc, hr⟩ := ht i hi l ((State.locate_eq hx.moved.regs _).symm.trans hl)
    exact ⟨(hx.moved.chanState _).trans hc, hx.moved.hasRoom (by rw [hmem]) hr⟩
  obtain ⟨t, hfinish, hwrote⟩ := State.finishWr_lands (q := ⟨p, s.ports.nextSeq, .wr, r, true, false⟩) hburst hgood hxt
  obtain ⟨hanswered, hmoved, htmem, -⟩ := (hx.trans (.of_stands hwrote.stands)).respond r.hdr .ok (xs := []) fun _ hx => absurd hx List.not_mem_nil
  obtain ⟨hhere, hothers⟩ := hwrote.lands hx hmem htmem
  refine ⟨_, hexec _ ((State.perform_whole rfl hm).trans hfinish), hanswered, hmoved.others, fun i hi l hl => ?_, fun l hno => hmoved.now (hothers l hno),
    hmoved.arrayKept _, hmoved.draws,
    hmoved.anv, hmoved.pl⟩
  rw [hhere i hi l hl]
  rfl

end

/-! ## Masked writes (R164) -/

section
variable {s : State} {l : Loc} {d : SectorBits}

theorem State.hasRoom_touch (n k : Nat) {y : Loc} (hr : s.hasRoom y) : (s.setSlice n ((s.slice n).touch k)).hasRoom y := by
  have hways : (s.setSlice n ((s.slice n).touch k)).ways = s.ways := rfl
  rw [State.hasRoom_iff] at hr ⊢
  rw [State.slice_setSlice, hways]
  split
  · next hn =>
    rw [← hn]
    by_cases hl : (s.slice y.n).hasLine k = true
    · rw [Slice.roomFor, Slice.units_touch hl]
      refine hr.imp (fun hj => ?_) (countP_moved_front_le (Slice.mem_units.mpr hl) _).trans_lt
      by_cases he : y.k / 8 = k / 8
      · exact List.mem_cons.mpr (.inl he)
      · exact List.mem_cons_of_mem _ (List.mem_filter.mpr ⟨hj, bne_iff_ne.mpr he⟩)
    · have hnone : (s.slice y.n).touch k = s.slice y.n := by
        unfold Slice.touch
        split
        · next z hz =>
          exact absurd (Slice.hasLine_iff.mpr ⟨z, List.mem_of_find?_eq_some hz,
            beq_iff_eq.mp (List.find?_some (p := fun y : Line => y.unit == k / 8) hz)⟩) hl
        · rfl
      rw [hnone]
      exact hr
  · exact hr

/-- A held sector that a request reads, and the line it uses. -/
theorem State.readFor_at {a : Nat} (hb : s.draws.buckets = []) (hl : s.locate a = some l) (h : s.cached a [d]) (part : Nat) :
    s.readFor a part = (⟨mkSec d, .ok, false⟩, s.setSlice l.n ((s.slice l.n).touch l.k)) := by
  obtain ⟨l', x, hl', hx, hd⟩ := State.cached_one h
  obtain rfl := Option.some.inj (hl.symm.trans hl')
  have hgood : x.sec.good = true := by simp [hd, Sec.good, mkSec]
  rw [State.readFor, State.reservedSec_none hb, hl]
  dsimp only
  rw [State.sliceRead_held hx hgood, hd]
  rfl

/-- A sector that a request has read, written anew. -/
theorem State.rewrite_lands (hc : s.chanState l.n = 0) (hr : s.hasRoom l) (y : SectorBits) (part a : Nat) :
    ∃ t, ((s.setSlice l.n ((s.slice l.n).touch l.k)).sliceWrite l (mkSec y) part).map (·.touch a) = some t ∧ s.ArrayStands t ∧
      t.sliceHas l = some ⟨mkSec y, true⟩ ∧ ∀ x, x ≠ l → t.sliceHas x = s.sliceHas x := by
  have hc' : (s.setSlice l.n ((s.slice l.n).touch l.k)).chanState l.n ≠ 3 := hc.trans_ne (by decide)
  obtain ⟨t, ht, hlands⟩ := State.sliceWrite_lands hc' (State.hasRoom_touch l.n l.k hr) (mkSec_good y) part
  have hall := hlands.touch a
  refine ⟨t.touch a, by rw [ht, Option.map_some], ⟨by rw [hall.stands.rest]; rfl⟩, hall.here, fun x hx => ?_⟩
  rw [hall.others x hx, State.sliceHas_touch]

/-- R164: an enabled byte is the new one. -/
theorem byteOf_mergeBytes (old new : SectorBits) (mask : BitVec 64) {j : Nat} (hj : j < 64) :
    byteOf (mergeBytes old new mask) j = if mask.getLsbD j then byteOf new j else byteOf old j := by
  rw [mergeBytes, byteOf_ofBytes _ _ (by simp)]
  rw [List.getD_eq_getElem _ _ (by simpa using hj)]
  simp

end

section
variable {s : State} {p : Nat} {r : PortReq} {x m : InSector} {d : SectorBits} {l : Loc}

theorem State.finishMasked_lands {q : Req} (hq : q.r = r) (hxs : r.sectors = [x, m]) (hxf : x.fault = false) (hlt : m.data.toNat < 2 ^ 64)
    (hm0 : m.data ≠ 0) (hb : s.draws.buckets = []) (hl : s.locate r.hdr.a = some l) (hc : s.cached r.hdr.a [d]) (hch : s.chanState l.n = 0)
    (hr : s.hasRoom l) : ∃ t, s.finishMasked q = some (t.respond q.port r.hdr .ok false []) ∧ s.ArrayStands t ∧
      t.sliceHas l = some ⟨mkSec (mergeBytes d x.data (BitVec.ofNat 64 m.data.toNat)), true⟩ ∧ ∀ y, y ≠ l → t.sliceHas y = s.sliceHas y := by
  subst hq
  obtain ⟨t, ht, hall⟩ := State.rewrite_lands hch hr (mergeBytes d x.data (BitVec.ofNat 64 m.data.toNat)) q.r.hdr.p q.r.hdr.a
  have hmask : BitVec.ofNat 64 m.data.toNat ≠ 0 := fun e => hm0 (BitVec.eq_of_toNat_eq
    (((toNat_ofNat_of_lt hlt).symm.trans (congrArg BitVec.toNat e)).trans (BitVec.toNat_zero.trans BitVec.toNat_zero.symm)))
  have hdata : (mkSec d).data = d := rfl
  have hne : (s.chanState l.n == 3) = false := by rw [hch]; rfl
  refine ⟨t, ?_, hall⟩
  obtain ⟨u, hu, rfl⟩ := Option.map_eq_some_iff.mp ht
  have hx0 : q.r.sectors.getD 0 ⟨0, 0, true⟩ = x := by rw [hxs]; rfl
  have hx1 : q.r.sectors.getD 1 ⟨0, 0, true⟩ = m := by rw [hxs]; rfl
  rw [State.finishMasked, hl]
  dsimp only
  rw [hx0, hx1, if_neg hmask, hne, if_neg Bool.false_ne_true, hxf, if_neg Bool.false_ne_true, State.readFor_at hb hl hc]
  dsimp only
  rw [if_neg (by simp [mkSec]), hdata, hu]
  rfl

theorem wr_masked (h : s.accepts p .wr r) (hw : windowOf r.hdr.a = .memory) (hm : r.hdr.isMasked = true) (hxs : r.sectors = [x, m])
    (hxf : x.fault = false) (hmf : m.fault = false) (hlt : m.data.toNat < 2 ^ 64) (hm0 : m.data ≠ 0) (hn : s.noRequests)
    (hh : s.rangeHeld r.hdr.a 64 = false) (hl : s.locate r.hdr.a = some l) (hc : s.cached r.hdr.a [d]) (hch : s.chanState l.n = 0)
    (hb : s.draws.buckets = []) (hr : s.hasRoom l) :
    ∃ t, exec (.wr p r) s = .next t ∧ s.answered t p r.hdr .ok false [] ∧ s.otherPorts t p ∧
      (∀ j < 64, byteOf (t.now l) j = if m.data.getLsbD j then byteOf x.data j else byteOf d j) ∧
      (∀ l', l' ≠ l → t.now l' = s.now l') ∧ s.arrayKept t (fun _ => False) ∧ t.draws = s.draws ∧ t.anv = s.anv ∧ t.pl = s.pl := by
  have haddrs : Req.sectorAddrs ⟨p, s.ports.nextSeq, .wr, r, true, false⟩ = [r.hdr.a] := by simp [Req.sectorAddrs, hm]
  have hlen : r.hdr.len = 1 := by
    obtain ⟨-, -, hform, -⟩ := id h
    simp only [State.formOk, hw, hm, Bool.and_eq_true, Bool.or_eq_true] at hform
    simpa using hform.2.1.2
  have hone : r.sectors.getD 1 ⟨0, 0, true⟩ = m := by rw [hxs]; rfl
  have hhigh : m.data.toNat / 2 ^ 64 = 0 := Nat.div_eq_of_lt hlt
  have hoperand : badOperand .wr r = none := by
    simp only [badOperand, hm, hone, hmf, hhigh, beq_self_eq_true, Bool.and_self, if_true, Bool.false_eq_true, if_false, bne_self_eq_false]
  obtain ⟨y, hy, hmem, hexec⟩ := exec_performs rfl h hw (.inr (.inl rfl)) hoperand hn
    (show s.rangeHeld r.hdr.a (64 * r.hdr.len) = false by rw [hlen]; exact hh) hl
    (.inr ⟨hb, fun a ha => ⟨d, List.mem_singleton.mp (haddrs ▸ ha : a ∈ [r.hdr.a]) ▸ hc⟩⟩)
  have hyc : y.cached r.hdr.a [d] := fun i hi => by
    obtain ⟨l, hl, hx⟩ := hc i hi
    exact ⟨l, hy.moved.locate hl, (congrArg _ (State.sliceHas_congr (by rw [hmem]) l)).trans hx⟩
  obtain ⟨t, hfinish, hstands, hhere, hothers⟩ := State.finishMasked_lands (q := ⟨p, s.ports.nextSeq, .wr, r, true, false⟩) rfl hxs hxf hlt hm0
    (hy.moved.draws ▸ hb) (hy.moved.locate hl) hyc ((hy.moved.chanState _).trans hch) (hy.moved.hasRoom (by rw [hmem]) hr)
  obtain ⟨hanswered, hmoved, htmem, -⟩ := (hy.trans (.of_stands hstands)).respond r.hdr .ok (xs := []) fun _ hx => absurd hx List.not_mem_nil
  have hsame (l : Loc) : (t.respond p r.hdr .ok false []).sliceHas l = t.sliceHas l := State.sliceHas_congr (by rw [htmem]) l
  refine ⟨_, hexec _ ((State.perform_masked rfl hm).trans hfinish), hanswered, hmoved.others, fun j hj => ?_, fun y hy => hmoved.now ?_,
    hmoved.arrayKept _, hmoved.draws,
    hmoved.anv, hmoved.pl⟩
  · rw [State.now_held ((hsame l).trans hhere)]
    exact (byteOf_mergeBytes d x.data _ hj).trans (by rw [BitVec.getLsbD_ofNat, decide_eq_true hj, Bool.true_and, BitVec.testBit_toNat])
  · rw [hsame, hothers y hy]
    exact State.sliceHas_congr (by rw [hmem]) y

/-! ## WR_FINAL waits and lands (R176, R223) -/

theorem wrFinal_waits (h : s.accepts p .wrFinal r) :
    ∃ t, exec (.wrFinal p r) s = .next t ∧ t.ports.waits = s.ports.waits ++ [⟨⟨p, s.ports.nextSeq, .wrFinal, r, true, false⟩, .final⟩] ∧
      t.ports.nextSeq = s.ports.nextSeq + 1 ∧ Tab.get (fun _ => false) (t.port p).tags r.hdr.tag.toNat = true ∧ t.sent = s.sent ∧
      t.mem = s.mem ∧ t.draws = s.draws ∧ t.anv = s.anv ∧ RegsBut s t (fun _ => False) := by
  obtain ⟨u, hu, hexec⟩ := exec_accepted h (fun _ => rfl) nofun
  refine ⟨_, hexec, ?_, ?_, hu.tag, hu.sent, hu.moved.mem, hu.moved.draws, hu.moved.anv, hu.moved.regsBut _⟩
  · rw [← hu.nextSeq, ← hu.moved.waits]
    rfl
  · rw [← hu.nextSeq]
    rfl

end

/-- A held request that is alone, when its time comes. -/
theorem exec_tryHeld {i : Instr} {p : Nat} {q : Req} {why : Why} {s : State} (hwaits : s.ports.waits = [⟨q, why⟩]) (hp : q.port = p)
    (hi : why = .final ∧ i = .wrFinalLand p q.r.hdr.tag ∨ why = .cleanWay ∧ i = .heldRequestRelease p q.r.hdr.tag)
    (hretry : ∀ n, (s.chan n).retry = []) : exec i s = .next (s.tryHeld ⟨q, why⟩) := by
  have hfind (y : Why) (hy : why = y) : s.ports.waits.find? (fun w => w.why == y && w.req.port == p && w.req.r.hdr.tag == q.r.hdr.tag) =
      some ⟨q, why⟩ := by simp [hwaits, hy, hp]
  obtain ⟨hy, rfl⟩ | ⟨hy, rfl⟩ := hi
  · have hgroup : s.groupWaits q = false := by simp [State.groupWaits, hwaits, hretry]
    change execWrFinalLand p q.r.hdr.tag s = _
    rw [execWrFinalLand, hfind _ hy]
    dsimp only
    rw [hgroup, if_neg Bool.false_ne_true]
  · have hway : s.wayTaken q = false := by simp [State.wayTaken, hwaits]
    change execHeldRequestRelease p q.r.hdr.tag s = _
    rw [execHeldRequestRelease, hfind _ hy]
    dsimp only
    rw [hway, if_neg Bool.false_ne_true]

theorem State.tryHeld_done {q : Req} {why : Why} {s t : State} (hwaits : s.ports.waits = [⟨q, why⟩])
    (h : (s.setWaits []).serve q = .done t) : s.tryHeld ⟨q, why⟩ = t.settle := by
  have hrest : s.ports.waits.filter (fun x => x.req.seq != q.seq) = [] := by simp [hwaits]
  rw [State.tryHeld]
  dsimp only
  rw [hrest, h]

theorem held_lands {i : Instr} {p : Nat} {q : Req} {why : Why} {s : State} (hwaits : s.ports.waits = [⟨q, why⟩]) (hp : q.port = p)
    (hk : q.kind = .wrFinal)
    (hi : why = .final ∧ i = .wrFinalLand p q.r.hdr.tag ∨ why = .cleanWay ∧ i = .heldRequestRelease p q.r.hdr.tag)
    (hretry : ∀ n, (s.chan n).retry = []) (hburst : q.r.hdr.a % 2048 + 64 * q.r.hdr.len ≤ 2048)
    (hlen : q.r.sectors.length = q.r.hdr.len) (hx : ∀ x ∈ q.r.sectors, x.fault = false ∧ x.good = true)
    (hregion : s.regionHeld q.r.hdr.a = false) (hrange : s.rangeHeld q.r.hdr.a (64 * q.r.hdr.len) = false)
    (hl : (s.locate q.r.hdr.a).isSome = true) (ht : s.takes q.r.hdr) :
    ∃ t, exec i s = .next t ∧ t.ports.waits = [] ∧ s.answered t p q.r.hdr .ok false [] ∧ s.otherPorts t p ∧
      (∀ i < q.r.hdr.len, ∀ l, s.locate (q.r.hdr.a + 64 * i) = some l → t.now l = (q.r.sectors.getD i ⟨0, 0, true⟩).data) ∧
      (∀ l, (∀ i < q.r.hdr.len, s.locate (q.r.hdr.a + 64 * i) ≠ some l) → t.now l = s.now l) ∧
      s.arrayKept t (fun _ => False) ∧ t.draws = s.draws ∧ t.anv = s.anv ∧ t.pl = s.pl := by
  obtain ⟨l, hl⟩ := Option.isSome_iff_exists.mp hl
  have hin : ∀ i < q.r.hdr.len, broughtAt q.r.sectors i ∈ q.r.sectors := fun i hi => by
    rw [broughtAt, List.getD_eq_getElem _ _ (hlen ▸ hi)]
    exact List.getElem_mem _
  have hne : q.kind ≠ .acc := by rw [hk]; exact ReqKind.noConfusion
  have hbytes : reqBytes q.kind.type q.r.hdr = 64 * q.r.hdr.len := by rw [hk]; rfl
  have hpos : 0 < q.r.hdr.len := Nat.succ_pos _
  have hstops : (s.setWaits []).rangeStops q = none :=
    State.rangeStops_none hne (by omega) (by omega) hregion (by rw [hbytes]; exact hrange)
  obtain ⟨x, hserving, hmem, hserve⟩ := State.serve_performs hne hstops ⟨rfl, hretry⟩ hl (.inl (by rw [Req.sectorAddrs, hk]))
  have hxt : x.takes q.r.hdr := fun i hi l hl => by
    obtain ⟨hc, hr⟩ := ht i hi l ((State.locate_eq hserving.moved.regs _).symm.trans hl)
    exact ⟨(hserving.moved.chanState _).trans hc, hserving.moved.hasRoom (by rw [hmem]) hr⟩
  obtain ⟨t, hfinish, hwrote⟩ := State.finishWr_lands hburst (fun i hi => (hx _ (hin i hi)).2) hxt
  obtain ⟨hanswered, hmoved, htmem, -⟩ := (hserving.trans (.of_stands hwrote.stands)).respond q.r.hdr .ok (xs := []) fun _ hx =>
    absurd hx List.not_mem_nil
  obtain ⟨hhere, hothers⟩ := hwrote.lands hserving hmem htmem
  have hperform : x.perform q = some (t.respond q.port q.r.hdr .ok false []) := by
    rw [State.perform, hk]
    exact hfinish
  rw [hperform] at hserve
  have hnone : (t.respond q.port q.r.hdr .ok false []).noRequests := ⟨hmoved.waits, fun n => by
    have hxn : (x.chan n).retry = [] := by rw [State.chan, hmem]; exact hretry n
    rw [State.chan, htmem]
    exact (hwrote.retry n).trans hxn⟩
  refine ⟨_, exec_tryHeld hwaits hp hi hretry, ?_⟩
  rw [State.tryHeld_done hwaits hserve, State.settle_noRequests hnone, ← hp]
  refine ⟨hmoved.waits, hanswered, hmoved.others, fun i hi l hl => ?_, fun l hno => hmoved.now (hothers l hno), hmoved.arrayKept _,
    hmoved.draws, hmoved.anv, hmoved.pl⟩
  rw [State.now_held (hhere i hi l hl), InSector.toSec, (hx _ (hin i hi)).1, if_neg Bool.false_ne_true]
  rfl

/-- Settles O34: the sectors of a write lie apart in one burst, so that each finds its line or room for it after those before. -/
theorem writesLand : Obligations.WritesLand := by
  unfold Obligations.WritesLand
  exact ⟨fun p r s => wr_lands, fun p r x m d l s => wr_masked, fun p r s h _ => wrFinal_waits h,
    fun i p q why s hwaits hp hk hi hretry hburst _ => held_lands hwaits hp hk hi hretry hburst⟩

end Sys2Proof.Machine
end

section
/-!
PROOF of O35: ATOM and ACC modify their word and their elements alone.
-/

namespace Sys2Proof.Machine

/-! ## A field of a number, replaced -/

theorem testBit_replaced {n at_ w new k : Nat} (hnew : new < 2 ^ w) :
    (n - n / 2 ^ at_ % 2 ^ w * 2 ^ at_ + new * 2 ^ at_).testBit k =
      if at_ ≤ k ∧ k < at_ + w then new.testBit (k - at_) else n.testBit k := by
  have hold : n / 2 ^ at_ % 2 ^ w < 2 ^ w := Nat.mod_lt _ (Nat.two_pow_pos w)
  have hlow : n % 2 ^ at_ < 2 ^ at_ := Nat.mod_lt _ (Nat.two_pow_pos at_)
  have hsplit : n = 2 ^ at_ * (2 ^ w * (n / 2 ^ at_ / 2 ^ w) + n / 2 ^ at_ % 2 ^ w) + n % 2 ^ at_ := by
    rw [Nat.div_add_mod, Nat.div_add_mod]
  have hbit (v : Nat) (hv : v < 2 ^ w) : (2 ^ at_ * (2 ^ w * (n / 2 ^ at_ / 2 ^ w) + v) + n % 2 ^ at_).testBit k =
      if k < at_ then (n % 2 ^ at_).testBit k else if k - at_ < w then v.testBit (k - at_) else (n / 2 ^ at_ / 2 ^ w).testBit (k - at_ - w) := by
    rw [Nat.testBit_two_pow_mul_add _ hlow, Nat.testBit_two_pow_mul_add _ hv]
  have hreplaced : n - n / 2 ^ at_ % 2 ^ w * 2 ^ at_ + new * 2 ^ at_ = 2 ^ at_ * (2 ^ w * (n / 2 ^ at_ / 2 ^ w) + new) + n % 2 ^ at_ := by
    have hexpand (v : Nat) : 2 ^ at_ * (2 ^ w * (n / 2 ^ at_ / 2 ^ w) + v) = 2 ^ at_ * (2 ^ w * (n / 2 ^ at_ / 2 ^ w)) + v * 2 ^ at_ := by ring
    rw [hexpand] at hsplit ⊢
    omega
  rw [hreplaced, hbit new hnew]
  conv_rhs => rw [hsplit, hbit _ hold]
  by_cases h1 : k < at_
  · rw [if_pos h1, if_neg (by omega), if_pos h1]
  · by_cases h2 : k - at_ < w
    · rw [if_neg h1, if_pos h2, if_pos (by omega)]
    · rw [if_neg h1, if_neg h2, if_neg (by omega), if_neg h1, if_neg h2]

/-! ## ATOM (R174) -/

theorem signed_eq_toInt {w : Nat} (hw : 0 < w) (n : Nat) : Num.signed w n = (BitVec.ofNat w n).toInt := by
  have hpow : 2 ^ w = 2 * 2 ^ (w - 1) := by rw [← Nat.pow_succ', Nat.succ_eq_add_one, Nat.sub_add_cancel hw]
  have hcast : ((2 ^ w : Nat) : Int) = 2 ^ w := by push_cast; rfl
  rw [Num.signed, BitVec.toInt_eq_toNat_cond, BitVec.toNat_ofNat, hcast]
  by_cases h : n % 2 ^ w < 2 ^ (w - 1)
  · rw [if_pos h, if_pos (by omega)]
  · rw [if_neg h, if_neg (by omega)]

/-- The new value of an ATOM's place under operation code `c`, as the obligation states it. -/
def atomNew (c w old op : Nat) : Nat :=
  match c with
  | 0 => (old + op) % 2 ^ w
  | 1 => Nat.max old op
  | 2 => Nat.min old op
  | 3 => if (BitVec.ofNat w old).toInt < (BitVec.ofNat w op).toInt then op else old
  | 4 => if (BitVec.ofNat w op).toInt < (BitVec.ofNat w old).toInt then op else old
  | 5 => op
  | _ => if old = op % 2 ^ w then op / 2 ^ w else old

theorem atomNew_lt {c w old op : Nat} (hold : old < 2 ^ w) (hop : c < 6 → op < 2 ^ w) (hcas : op / 2 ^ w < 2 ^ w) : atomNew c w old op < 2 ^ w := by
  unfold atomNew
  split
  · exact Nat.mod_lt _ (Nat.two_pow_pos w)
  · exact Nat.max_lt.mpr ⟨hold, hop (by decide)⟩
  · exact (Nat.min_le_left _ _).trans_lt hold
  · split
    · exact hop (by decide)
    · exact hold
  · split
    · exact hop (by decide)
    · exact hold
  · exact hop (by decide)
  · split
    · exact hcas
    · exact hold

theorem atomValue_eq {c w old op : Nat} (hw : 0 < w) (hop : c < 6 → op < 2 ^ w) (hcas : op / 2 ^ w < 2 ^ w) :
    atomValue c w old (op % 2 ^ w) (op / 2 ^ w % 2 ^ w) = atomNew c w old op := by
  have hop' (h : c < 6) : op % 2 ^ w = op := Nat.mod_eq_of_lt (hop h)
  have hlt (x y : Nat) : (decide (Num.signed w x < Num.signed w y) = true) = ((BitVec.ofNat w x).toInt < (BitVec.ofNat w y).toInt) := by
    rw [signed_eq_toInt hw, signed_eq_toInt hw, decide_eq_true_eq]
  unfold atomValue atomNew
  split
  · simp only [hop' (by decide)]
  · simp only [hop' (by decide)]
  · simp only [hop' (by decide)]
  · simp only [hlt, hop' (by decide)]
  · simp only [hlt, hop' (by decide)]
  · simp only [hop' (by decide)]
  · simp only [Nat.mod_eq_of_lt hcas]

section
variable {s : State} {l : Loc} {d : SectorBits} {w at_ old : Nat}

/-- A sector with one field of its number replaced. -/
theorem getLsbD_replaced {new k : Nat} (hnew : new < 2 ^ w) (hold : old = d.toNat / 2 ^ at_ % 2 ^ w) (hk : k < 512) :
    (BitVec.ofNat 512 (d.toNat - old * 2 ^ at_ + new * 2 ^ at_)).getLsbD k =
      if at_ ≤ k ∧ k < at_ + w then new.testBit (k - at_) else d.getLsbD k := by
  rw [BitVec.getLsbD_ofNat, decide_eq_true hk, Bool.true_and, hold, testBit_replaced hnew, BitVec.testBit_toNat]

theorem State.finishAtom_lands {q : Req} {x : InSector} {new : Nat} (hxs : q.r.sectors = [x]) (hl : s.locate q.r.hdr.a = some l)
    (hl' : s.locate (q.r.hdr.a / 64 * 64) = some l) (hb : s.draws.buckets = []) (hc : s.cached (q.r.hdr.a / 64 * 64) [d])
    (hch : s.chanState l.n = 0) (hr : s.hasRoom l) (hw : w = if q.r.hdr.asz = 1#1 then 64 else 32) (hat : at_ = 8 * (q.r.hdr.a % 64))
    (hold : old = d.toNat / 2 ^ at_ % 2 ^ w)
    (hnew : atomValue q.r.hdr.aop.toNat w old (x.data.toNat % 2 ^ w) (x.data.toNat / 2 ^ w % 2 ^ w) = new) :
    ∃ t, s.finishAtom q = some (t.respond q.port q.r.hdr .ok false [mkSec (BitVec.ofNat 512 old)]) ∧ s.ArrayStands t ∧
      t.sliceHas l = some ⟨mkSec (BitVec.ofNat 512 (d.toNat - old * 2 ^ at_ + new * 2 ^ at_)), true⟩ ∧
      ∀ y, y ≠ l → t.sliceHas y = s.sliceHas y := by
  obtain ⟨t, ht, hall⟩ := State.rewrite_lands hch hr (BitVec.ofNat 512 (d.toNat - old * 2 ^ at_ + new * 2 ^ at_)) q.r.hdr.p q.r.hdr.a
  refine ⟨t, ?_, hall⟩
  obtain ⟨u, hu, rfl⟩ := Option.map_eq_some_iff.mp ht
  have hx0 : q.r.sectors.getD 0 ⟨0, 0, true⟩ = x := by rw [hxs]; rfl
  have hdata : (mkSec d).data = d := rfl
  rw [State.finishAtom, hl]
  dsimp only
  rw [hx0, ← hw, State.readFor_at hb hl' hc]
  dsimp only
  rw [if_neg (by simp [mkSec]), hdata, ← hat, ← hold, hnew, hu]
  rfl

end

theorem atom_modifies {p w at_ old new : Nat} {r : PortReq} {x : InSector} {d : SectorBits} {l : Loc} {s : State} (h : s.accepts p .atom r)
    (hwin : windowOf r.hdr.a = .memory) (hxs : r.sectors = [x]) (hxf : x.fault = false) (hw : w = (if r.hdr.asz = 1 then 64 else 32))
    (hop : x.data.toNat < 2 ^ (if r.hdr.aop = 6 then 2 * w else w)) (hn : s.noRequests) (hh : s.rangeHeld r.hdr.a (w / 8) = false)
    (hl' : s.locate (r.hdr.a / 64 * 64) = some l) (hl : s.locate r.hdr.a = some l) (hc : s.cached (r.hdr.a / 64 * 64) [d])
    (hch : s.chanState l.n = 0) (hb : s.draws.buckets = []) (hr : s.hasRoom l) (hat : at_ = 8 * (r.hdr.a % 64))
    (hold : old = d.toNat / 2 ^ at_ % 2 ^ w) (hnew : new = atomNew r.hdr.aop.toNat w old x.data.toNat) :
    ∃ t, exec (.atom p r) s = .next t ∧ s.answered t p r.hdr .ok false [mkSec (BitVec.ofNat 512 old)] ∧ s.otherPorts t p ∧
      (∀ k < 512, (t.now l).getLsbD k = if at_ ≤ k ∧ k < at_ + w then new.testBit (k - at_) else d.getLsbD k) ∧
      (∀ l', l' ≠ l → t.now l' = s.now l') ∧ s.arrayKept t (fun _ => False) ∧ t.draws = s.draws ∧ t.anv = s.anv ∧ t.pl = s.pl := by
  have hwpos : 0 < w := by
    rw [hw]
    split <;> decide
  have holdlt : old < 2 ^ w := hold ▸ Nat.mod_lt _ (Nat.two_pow_pos w)
  have hsmall : r.hdr.aop.toNat < 6 → x.data.toNat < 2 ^ w := fun h6 => by
    rwa [if_neg] at hop
    intro e
    rw [e] at h6
    revert h6
    decide
  have hcas : x.data.toNat / 2 ^ w < 2 ^ w := by
    refine Nat.div_lt_of_lt_mul (hop.trans_le ?_)
    rw [← pow_add]
    refine Nat.pow_le_pow_right two_pos ?_
    split <;> omega
  have hnewlt : new < 2 ^ w := hnew ▸ atomNew_lt holdlt hsmall hcas
  have hoperand : badOperand .atom r = none := by
    have hx0 : r.sectors.getD 0 ⟨0, 0, true⟩ = x := by rw [hxs]; rfl
    have hused : (if r.hdr.asz = 1#1 then 64 else 32) * (if r.hdr.aop = 6#3 then 2 else 1) = if r.hdr.aop = 6 then 2 * w else w := by
      change (if r.hdr.asz = 1 then 64 else 32) * (if r.hdr.aop = 6 then 2 else 1) = _
      rw [← hw]
      split <;> omega
    rw [badOperand]
    dsimp only
    rw [hx0, hxf, hused, if_neg (by simp), if_pos (by simp), if_neg Bool.false_ne_true, if_neg (Nat.not_le.mpr hop)]
  have hbytes : reqBytes .atom r.hdr = w / 8 := by
    change (if r.hdr.asz = 1 then 8 else 4) = _
    rw [hw]
    split <;> rfl
  obtain ⟨y, hy, hmem, hexec⟩ := exec_performs rfl h hwin (.inr (.inr rfl)) hoperand hn (hbytes ▸ hh) hl
    (.inr ⟨hb, fun a ha => ⟨d, List.mem_singleton.mp ha ▸ hc⟩⟩)
  have hyc : y.cached (r.hdr.a / 64 * 64) [d] := fun i hi => by
    obtain ⟨l, hl, hx⟩ := hc i hi
    exact ⟨l, hy.moved.locate hl, (congrArg _ (State.sliceHas_congr (by rw [hmem]) l)).trans hx⟩
  obtain ⟨t, hfinish, hstands, hhere, hothers⟩ := State.finishAtom_lands (q := ⟨p, s.ports.nextSeq, .atom, r, true, false⟩) hxs
    (hy.moved.locate hl) (hy.moved.locate hl') (hy.moved.draws ▸ hb) hyc ((hy.moved.chanState _).trans hch)
    (hy.moved.hasRoom (by rw [hmem]) hr) hw hat hold ((atomValue_eq hwpos hsmall hcas).trans hnew.symm)
  obtain ⟨hanswered, hmoved, htmem, -⟩ := (hy.trans (.of_stands hstands)).respond r.hdr .ok (xs := [mkSec (BitVec.ofNat 512 old)])
    fun _ hx => List.mem_singleton.mp hx ▸ mkSec_good _
  have hsame (l : Loc) : (t.respond p r.hdr .ok false [mkSec (BitVec.ofNat 512 old)]).sliceHas l = t.sliceHas l :=
    State.sliceHas_congr (by rw [htmem]) l
  refine ⟨_, hexec _ hfinish, hanswered, hmoved.others, fun k hk => ?_, fun y hy => hmoved.now ?_, hmoved.arrayKept _, hmoved.draws,
    hmoved.anv, hmoved.pl⟩
  · rw [State.now_held ((hsame l).trans hhere)]
    exact getLsbD_replaced hnewlt hold hk
  · rw [hsame, hothers y hy]
    exact State.sliceHas_congr (by rw [hmem]) y

/-! ## ACC (R85 to R87) -/

/-- One contribution more of an ACC to a bucket with window `bx`, from element `i0` on. -/
def accStep (bx i0 : Nat) (acc : Bucket × Status × State × Nat) (e : Contribution × Nat) : Bucket × Status × State × Nat :=
  let x := e.1.window bx
  let t := acc.2.2.1.bucketAdd { acc.1 with maxc := e.1.raise acc.1.maxc } (i0 + e.2) x.1
  (t.1, Status.worst acc.2.1 t.2.1, t.2.2, acc.2.2.2 + (if x.2 then 1 else 0))

/-- The elements of `T` are those of `A` with the contributions from `i0` on added. -/
def Summed (bx i0 : Nat) (cs : List Contribution) (A T : Tab (BitVec 64)) : Prop :=
  (∀ j < cs.length, Tab.get (fun _ => 0#64) T (i0 + j) = Num.dxAdd (Tab.get (fun _ => 0#64) A (i0 + j)) ((cs.getD j (.word 0)).window bx).1) ∧
    ∀ j, j < i0 ∨ i0 + cs.length ≤ j → Tab.get (fun _ => 0#64) T j = Tab.get (fun _ => 0#64) A j

/-- R86: an element of a reserved line. -/
theorem State.bucketAdd_reserved {b : Bucket} (hb : b.spilled = []) (s : State) (i : Nat) (x : BitVec 64) :
    s.bucketAdd b i x = ({ b with acc := Tab.modify (fun _ => 0#64) b.acc i (Num.dxAdd · x) }, .ok, s) := by
  rw [State.bucketAdd, hb]
  rfl

theorem foldl_accStep (bx i0 : Nat) (s : State) (cs : List Contribution) : ∀ (n k : Nat) (b : Bucket), b.spilled = [] →
    ∃ T M, (cs.zipIdx n).foldl (accStep bx i0) (b, .ok, s, k) =
        ({ b with acc := T, maxc := M }, .ok, s, k + cs.countP fun c => (c.window bx).2) ∧ Summed bx (i0 + n) cs b.acc T := by
  induction cs with
  | nil => exact fun n k b _ => ⟨b.acc, b.maxc, rfl, nofun, fun _ _ => rfl⟩
  | cons c cs ih =>
    intro n k b hb
    obtain ⟨T, M, hfold, hin, hout⟩ := ih (n + 1) (k + if (c.window bx).2 then 1 else 0)
      { b with
        maxc := c.raise b.maxc
        acc := Tab.modify (fun _ => 0#64) b.acc (i0 + n) (Num.dxAdd · (c.window bx).1) } hb
    have hfirst : Tab.get (fun _ => 0#64) (Tab.modify (fun _ => 0#64) b.acc (i0 + n) (Num.dxAdd · (c.window bx).1)) (i0 + n) =
        Num.dxAdd (Tab.get (fun _ => 0#64) b.acc (i0 + n)) (c.window bx).1 := Tab.get_set_same _ _ _ _
    have hrest {j : Nat} (hj : j ≠ i0 + n) : Tab.get (fun _ => 0#64) (Tab.modify (fun _ => 0#64) b.acc (i0 + n) (Num.dxAdd · (c.window bx).1)) j =
        Tab.get (fun _ => 0#64) b.acc j := Tab.get_set_other _ _ _ _ _ hj
    refine ⟨T, M, ?_, fun j hj => ?_, fun j hj => ?_⟩
    · have hstep : accStep bx i0 (b, .ok, s, k) (c, n) = ({ b with
          maxc := c.raise b.maxc
          acc := Tab.modify (fun _ => 0#64) b.acc (i0 + n) (Num.dxAdd · (c.window bx).1) }, .ok, s, k + if (c.window bx).2 then 1 else 0) := by
        rw [accStep]
        dsimp only
        rw [State.bucketAdd_reserved (b := { b with maxc := c.raise b.maxc }) hb]
        rfl
      rw [List.zipIdx_cons, List.foldl_cons, hstep, hfold, List.countP_cons, Nat.add_assoc, Nat.add_comm (List.countP _ _)]
    · obtain _ | j := j
      · exact (hout (i0 + n) (.inl (by omega))).trans hfirst
      · have hj' : j < cs.length := by simpa using hj
        have hidx : i0 + n + (j + 1) = i0 + (n + 1) + j := by omega
        rw [hidx, hin j hj', hrest (by omega)]
        rfl
    · rw [List.length_cons] at hj
      rw [hout j (by omega), hrest (by omega)]

/-- The bucket once the contributions `cs` have been added. -/
structure Bucket.Added (b b' : Bucket) (i0 : Nat) (cs : List Contribution) : Prop where
  base : b'.base = b.base
  closer : b'.closer = b.closer
  arrived : b'.arrived = b.arrived + cs.length
  st : b'.st = if b.arrived + cs.length = b.nelem * b.expect then .complete else b.st
  sums : Summed b.bx i0 cs b.acc b'.acc

/-- R86: a count of a bucket may set CAP_SAT. -/
theorem State.satCount_wrote (s : State) (v n : Nat) :
    s.Wrote (s.satCount v n).2 fun o => o = Reg.offset .AV_ASSAY_STAT 0 ∨ o = Reg.offset .MW_IRQ_CAUSE 0 := by
  unfold State.satCount
  split
  · exact ((State.Wrote.refl s _).put _ _ _ (.inl rfl)).raise _ (.inr rfl)
  · exact .refl s _

theorem worst_clamped {cs : List Contribution} (bx : Nat) :
    Status.worst .ok (if (cs.countP fun c => (c.window bx).2) = 0 then .ok else .okClamped) =
      if cs.any (fun c => (c.window bx).2) then .okClamped else .ok := by
  by_cases h : cs.any (fun c => (c.window bx).2) = true
  · have hne : (cs.countP fun c => (c.window bx).2) ≠ 0 := fun h0 => by
      obtain ⟨c, hc, hx⟩ := List.any_eq_true.mp h
      exact List.countP_eq_zero.mp h0 c hc hx
    rw [if_pos h, if_neg hne]
    rfl
  · have h0 : (cs.countP fun c => (c.window bx).2) = 0 :=
      List.countP_eq_zero.mpr fun c hc hx => h (List.any_eq_true.mpr ⟨c, hc, hx⟩)
    rw [if_neg h, if_pos h0]
    rfl

section
variable {s : State} {b : Bucket} {i0 : Nat} {cs : List Contribution}

/-- R86: contributions to a bucket that is alone and has no spilled lines. -/
theorem State.addContributions_reserved (hs : s.draws.buckets = [b]) (hb : b.spilled = []) :
    ∃ b' u, s.addContributions b i0 cs = (if cs.any (fun c => (c.window b.bx).2) then .okClamped else .ok, u.setBucket b') ∧
      b.Added b' i0 cs ∧ s.Wrote u fun o => o = Reg.offset .AV_ASSAY_STAT 0 ∨ o = Reg.offset .MW_IRQ_CAUSE 0 := by
  obtain ⟨T, M, hfold, hsums⟩ := foldl_accStep b.bx i0 s cs 0 0 b hb
  have hfills : s.countFills (b.base + 8 * i0) (8 * cs.length) = s := by
    rw [State.countFills, hs, if_pos (by simp [hb])]
  rw [Nat.add_zero] at hsums
  rw [Nat.zero_add] at hfold
  have hadd : s.addContributions b i0 cs = (fun r : Bucket × Status × State × Nat =>
      let c := r.2.2.1.satCount r.1.clamps r.2.2.2
      let y : Bucket := { r.1 with clamps := c.1, arrived := r.1.arrived + cs.length }
      let z : Bucket := if y.arrived = y.full then { y with st := .complete, sweeping := y.closer.isSome } else y
      (Status.worst r.2.1 (if r.2.2.2 = 0 then .ok else .okClamped), c.2.setBucket z)) (cs.zipIdx.foldl (accStep b.bx i0) (b, .ok, s, 0)) := by
    rw [State.addContributions, hfills]
    rfl
  rw [hadd, hfold]
  dsimp only
  rw [worst_clamped]
  refine ⟨_, _, rfl, ?_, s.satCount_wrote _ _⟩
  split
  · next hfull => exact ⟨rfl, rfl, rfl, (if_pos (show b.arrived + cs.length = b.nelem * b.expect from hfull)).symm, hsums⟩
  · next hfull => exact ⟨rfl, rfl, rfl, (if_neg (show ¬b.arrived + cs.length = b.nelem * b.expect from hfull)).symm, hsums⟩

theorem State.setBucket_alone {u : State} {b' : Bucket} (hs : u.draws.buckets = [b]) (hbase : b'.base = b.base) :
    (u.setBucket b').draws.buckets = [b'] := by
  simp [State.setBucket, hs, hbase]

/-- R93: a bucket without a close goes on. -/
theorem State.closeProceeds_open {base : Nat} (hs : s.draws.buckets = [b]) (hc : b.closer = none) : s.closeProceeds base = s := by
  unfold State.closeProceeds
  cases hf : s.bucketBase base with
  | none => rfl
  | some x =>
    have hx : x = b := List.mem_singleton.mp (hs ▸ List.mem_of_find?_eq_some hf)
    dsimp only
    rw [hx, hc]

/-- R221: the parts of an ACC that are counted leave memory and the Drawers. -/
theorem State.countAccess_rest (s : State) (hit : Bool) (part bytes : Nat) : s.countAccess hit part bytes =
    { s with regs := (s.countAccess hit part bytes).regs, power := (s.countAccess hit part bytes).power } := by
  have hcharge (t : State) (cls k : Nat) : t.charge part cls k = { t with power := (t.charge part cls k).power } := by
    unfold State.charge
    dsimp only
    split <;> rfl
  rw [State.countAccess, hcharge, hcharge]
  cases hit
  · rw [if_neg Bool.false_ne_true, State.count_eq]
  · rw [if_pos rfl, State.count_eq]

theorem State.countReq_rest (s : State) (q : Req) : s.countReq q = { s with regs := (s.countReq q).regs, power := (s.countReq q).power } := by
  unfold State.countReq
  dsimp only
  split
  · exact List.foldlRecOn (motive := fun u : State => u = { s with regs := u.regs, power := u.power }) _ _ rfl fun u hu y _ => by
      rw [State.countAccess_rest, hu]
  · exact s.countAccess_rest ..

/-- What a bucket that takes contributions says of an ACC (R86, R87). -/
structure State.Takes (s : State) (q : Req) (b : Bucket) (cs : List Contribution) : Prop where
  alone : s.draws.buckets = [b]
  at_ : s.bucketAt q.r.hdr.a = some b
  owner : b.owner = q.r.hdr.p
  opened : b.st = .opened
  spilled : b.spilled = []
  closer : b.closer = none
  rules : accRulesHold b q.r.hdr q.r.sectors = true
  values : cs = contributions b q.r.hdr q.r.sectors
  room : b.arrived + cs.length ≤ b.nelem * b.expect

theorem State.Takes.congr {q : Req} {t : State} (h : s.Takes q b cs) (hd : t.draws = s.draws) : t.Takes q b cs :=
  { h with
    alone := hd ▸ h.alone
    at_ := by rw [State.bucketAt, hd]; exact h.at_ }

theorem State.finishAcc_adds {q : Req} (h : s.Takes q b cs) (hi : i0 = (q.r.hdr.a - b.base) / 8) : ∃ b' u,
    s.finishAcc q = (u.setBucket b').respond q.port q.r.hdr (if cs.any (fun c => (c.window b.bx).2) then .okClamped else .ok) false [] ∧
      b.Added b' i0 cs ∧ s.Wrote u fun o => o = Reg.offset .AV_ASSAY_STAT 0 ∨ o = Reg.offset .MW_IRQ_CAUSE 0 := by
  obtain ⟨b', u, hadd, hadded, hwrote⟩ := State.addContributions_reserved (i0 := i0) (cs := cs) h.alone h.spilled
  have halone : (u.setBucket b').draws.buckets = [b'] := State.setBucket_alone (hwrote.draws ▸ h.alone) hadded.base
  have hfull : (b.st != .opened || decide (b.full < b.arrived + cs.length)) = false := by
    rw [h.opened, Bucket.full, decide_eq_false (Nat.not_lt.mpr h.room)]
    rfl
  refine ⟨b', u, ?_, hadded, hwrote⟩
  rw [State.finishAcc, h.at_]
  dsimp only
  rw [if_neg (by simp [h.owner]), if_neg (by simp [h.rules]), ← h.values, hfull, if_neg Bool.false_ne_true, ← hi, hadd]
  dsimp only
  rw [State.closeProceeds_open halone (hadded.closer.trans h.closer)]

/-- R86, R188: an ACC that nothing is before is carried out at once. -/
theorem State.serve_acc {q : Req} (hk : q.kind = .acc) (hn : s.noRequests) (hstops : s.rangeStops q = none) (h : s.Takes q b cs) :
    s.serve q = .done (((s.passData q .acc).countReq q).finishAcc q) := by
  obtain ⟨hwaits, hretry⟩ := hn
  have haccWaits : s.accWaits q = false := by
    rw [State.accWaits, h.at_]
    simp [State.spilledReady, h.spilled]
  simp only [State.serve, hstops, hwaits, hk, haccWaits, hretry, List.any_nil, beq_self_eq_true, Bool.false_or, Bool.false_eq_true, if_false,
    if_true, List.any_eq_true, and_false, exists_false]

end

theorem acc_adds {p i0 : Nat} {r : PortReq} {b : Bucket} {cs : List Contribution} {s : State} {q : Req}
    (hq : q = ⟨p, s.ports.nextSeq, .acc, r, true, false⟩) (h : s.accepts p .acc r) (hwin : windowOf r.hdr.a = .memory)
    (ht : s.Takes q b cs) (hi : i0 = (r.hdr.a - b.base) / 8) (hn : s.noRequests) (hstops : s.rangeStops q = none) :
    ∃ t b', exec (.acc p r) s = .next t ∧
      s.answered t p r.hdr (if cs.any (fun c => (c.window b.bx).2) then .okClamped else .ok) false [] ∧ s.otherPorts t p ∧
      t.draws.buckets = [b'] ∧ b.Added b' i0 cs ∧ t.mem = s.mem ∧ t.anv = s.anv ∧ t.pl = s.pl ∧ t.draws.drawer = s.draws.drawer := by
  obtain ⟨u, hu, hexec⟩ := exec_accepted h (fun _ => rfl) fun _ => by
    rw [show (⟨p, s.ports.nextSeq, ReqType.kind .acc, r, true, false⟩ : Req) = q from hq.symm, hstops]
    exact (Option.some_ne_none _).symm
  have hport : q.port = p := by rw [hq]
  have hr : q.r = r := by rw [hq]
  have hmoved : s.PortMoved u.nextNumber p := hu.moved.trans (u.nextNumber_moved p)
  have hserve := State.serve_acc (q := q) (by rw [hq]) (State.noRequests_of (by rw [hmoved.mem]) hmoved.waits hn)
    ((hmoved.congr (·.rangeStops q) fun _ _ _ _ => rfl).trans hstops) (ht.congr hmoved.draws)
  have hpass := u.nextNumber.passData_credits q .acc
  rw [hport] at hpass
  generalize u.nextNumber.passData q .acc = v at hpass hserve
  have hcount := v.countReq_rest q
  generalize v.countReq q = w at hcount hserve
  have hw : s.PortMoved v p := hmoved.trans hpass.moved
  have hwdraws : w.draws = v.draws := by rw [hcount]
  have hwmem : w.mem = v.mem := by rw [hcount]
  have hwanv : w.anv = v.anv := by rw [hcount]
  have hwpl : w.pl = v.pl := by rw [hcount]
  have hwports : w.ports = v.ports := by rw [hcount]
  have hwsent : w.sent = v.sent := by rw [hcount]
  obtain ⟨b', x, hfinish, hadded, hwrote⟩ := State.finishAcc_adds (i0 := i0) (ht.congr (hwdraws.trans hw.draws)) (by rw [hr]; exact hi)
  rw [hport, hr] at hfinish
  have hsent : (x.setBucket b').answers = s.answers := by
    have hxsent : (x.setBucket b').sent = w.sent := by
      rw [hwrote.rest]
      rfl
    have hvsent : u.nextNumber.sent = s.sent := hu.sent
    rw [State.answers, hxsent, hwsent]
    exact hpass.answers.trans (by rw [State.answers, hvsent, State.answers])
  obtain ⟨hresponded, hanswered⟩ := (x.setBucket b').respond_answers p r.hdr
    (if cs.any (fun c => (c.window b.bx).2) then .okClamped else .ok) false (xs := []) fun _ hx => absurd hx List.not_mem_nil
  have hxpl : x.pl = w.pl := by rw [hwrote.rest]
  refine ⟨_, b', ?_, hanswered.of_answers hsent, fun y hy => ?_, ?_, hadded, ?_, ?_, ?_, ?_⟩
  · refine hexec.trans (congrArg _ ?_)
    rw [State.act_memory (k := .acc) hwin nofun nofun]
    refine State.admitReq_done (k := .acc) nofun ?_
    rw [hu.nextSeq, show (⟨p, s.ports.nextSeq, ReqType.kind .acc, r, true, false⟩ : Req) = q from hq.symm, hserve, hfinish]
  · rw [hresponded.others y hy]
    have hxport : (x.setBucket b').port y = v.port y :=
      State.port_congr (show x.ports.port = v.ports.port by rw [hwrote.ports, hwports]) y
    rw [hxport, hw.others y hy]
  · rw [hresponded.draws]
    exact State.setBucket_alone (by rw [hwrote.draws, hwdraws, hw.draws]; exact ht.alone) hadded.base
  · exact hresponded.mem.trans (hwrote.mem.trans (hwmem.trans hw.mem))
  · exact hresponded.anv.trans (hwrote.anv.trans (hwanv.trans hw.anv))
  · exact hresponded.pl.trans (hxpl.trans (hwpl.trans hw.pl))
  · have hxdraws : x.draws = s.draws := hwrote.draws.trans (hwdraws.trans hw.draws)
    rw [hresponded.draws, ← hxdraws]
    rfl

/-- Settles O35: an ATOM replaces one field of its sector's number; the contributions of an ACC are added one after the other. -/
theorem atomsAndContributionsModify : Obligations.AtomsAndContributionsModify := by
  unfold Obligations.AtomsAndContributionsModify
  refine ⟨fun p w at_ old new r x d l s h hwin hxs hxf hw hop hn hh hl' hl hc hch hb hr hat hold hnew =>
    atom_modifies h hwin hxs hxf hw hop hn hh hl' hl hc hch hb hr hat hold hnew,
    fun p i0 r b cs s h hwin halone hat howner hst hspill hcloser hrules hcs hroom hi hn hstops => ?_⟩
  obtain ⟨t, b', hexec, hanswered, hothers, hbuckets, hadded, hmem, hanv, hpl, hdrawer⟩ :=
    acc_adds rfl h hwin ⟨halone, hat, howner, hst, hspill, hcloser, hrules, hcs, hroom⟩ hi hn hstops
  obtain ⟨hbase, -, harrived, hstate, hin, hout⟩ := hadded
  exact ⟨t, hexec, hanswered, hothers, ⟨b', hbuckets, hbase, harrived, hst ▸ hstate, hin, hout⟩, hmem, hanv, hpl, hdrawer⟩

end Sys2Proof.Machine
end

section
/-!
SUPPORT. What leaves the number of a block in its chain, PT_MGT_ID, as it is (R184, R186, R341).
-/

namespace Sys2Proof.Machine

/-- PT_MGT_ID reads in `t` as in `s`. -/
def State.IdKept (s t : State) : Prop := t.reg .PT_MGT_ID 0 = s.reg .PT_MGT_ID 0

/-- The fields that stand under a register are fields of it. -/
theorem Reg.fields_reg (r : Reg) : ∀ f ∈ r.fields, f.fld.reg = r := by cases r <;> decide

theorem not_memRegs_id : ¬MemRegs (Reg.offset .PT_MGT_ID 0) := by
  rintro ((e | e | e | e | ⟨j, -, e⟩) | e | e | ⟨n, e⟩) <;> simp only [Reg.offset, Reg.base, Reg.stride] at e <;> omega

namespace State.IdKept

theorem refl (s : State) : s.IdKept s := rfl

variable {s t : State}

theorem of_regsBut {u : State} {p : Nat → Prop} (h : s.IdKept t) (hu : RegsBut t u p) (hp : ¬p (Reg.offset .PT_MGT_ID 0)) : s.IdKept u :=
  (hu.reg_eq hp).trans h

theorem tidied {u : State} (h : s.IdKept t) (hu : t.Tidied u) : s.IdKept u := h.of_regsBut hu.quiet.regs not_memRegs_id

theorem ite {p : Prop} [Decidable p] {u : State} (ht : s.IdKept t) (hu : s.IdKept u) : s.IdKept (if p then t else u) := by
  split
  · exact ht
  · exact hu

variable (h : s.IdKept t)
include h

theorem fld {f : Fld} (hf : f.reg = .PT_MGT_ID) : t.fld f 0 = s.fld f 0 := by
  rw [State.fld, State.fld, hf]
  exact congrArg (Fld.of f) h

theorem when {b : Bool} {f : State → State} (hf : s.IdKept (f t)) : s.IdKept (t.when b f) := ite hf h

theorem foldl {α : Type} {f : State → α → State} (l : List α) (hf : ∀ t x, s.IdKept t → s.IdKept (f t x)) :
    s.IdKept (l.foldl f t) := foldl_keeps hf l t h

theorem setReg {r : Reg} {i : Nat} (v : Word) (ho : r.offset i ≠ Reg.offset .PT_MGT_ID 0) : s.IdKept (t.setReg r i v) :=
  (reg_setReg_other _ _ _ _ _ _ ho.symm).trans h

theorem put {f : Fld} {i : Nat} (v : Nat) (ho : f.reg.offset i ≠ Reg.offset .PT_MGT_ID 0) : s.IdKept (t.put f i v) := h.setReg _ ho

theorem raise (c : Cause) : s.IdKept (t.raise c) := h.put _ (by decide)

theorem setSlice (n : Nat) (v : Slice) : s.IdKept (t.setSlice n v) := h

/-! Lines that leave their slice (R220 to R223, R234) -/

theorem log (c : LogClass) (i : Info) : s.IdKept (t.log c i) := h.tidied (t.tidied_log c i)

theorem hmInt (i : Info) : s.IdKept (t.hmInt i) := (h.put (f := F.IN_INTCNT_HM_INT) _ (by decide)).log _ _

theorem passGap (l : Loc) (g : Gap) (d : SectorBits) : s.IdKept (t.passGap l g d).2 := by
  unfold State.passGap
  split
  · exact h
  · exact h

theorem writeDram (l : Loc) (x : Sec) (part : Option Nat) : s.IdKept (t.writeDram l x part) := by
  have hgap := (when (b := !x.good) (f := fun s => s.hmInt (t.info l part)) h (h.hmInt _)).passGap l .ewr x.data
  unfold State.writeDram
  dsimp only
  split
  · next hd =>
    rw [hd] at hgap
    exact ite (hgap.tidied (State.tidied_writePoison _ _)) (hgap.tidied (State.tidied_writeEncoded _ _ _))
  · next hd =>
    rw [hd] at hgap
    exact ((hgap.put (f := F.IN_INTCNT_PAR_GAP) _ (by decide)).log _ _).tidied (State.tidied_writePoison _ _)

theorem writeBackBurst (n m part : Nat) : s.IdKept (t.writeBackBurst n m part) := by
  unfold State.writeBackBurst
  dsimp only
  refine ite h (setSlice (ite h (tidied ?_ (State.tidied_spillOps _ _ _))) _ _)
  exact (h.foldl _ fun _ _ ht => ht.writeDram _ _ _).tidied (State.tidied_chargeBurst _ _ _)

theorem makeRoom {n unit part : Nat} {u : State} (hu : t.makeRoom n unit part = some u) : s.IdKept u := by
  unfold State.makeRoom at hu
  dsimp only at hu
  split at hu
  · exact Option.some.inj hu ▸ h
  · split at hu
    · cases hu
    · split at hu
      · exact Option.some.inj hu ▸ h
      · split at hu
        · split at hu
          · exact Option.some.inj hu ▸ h
          · split at hu
            · exact Option.some.inj hu ▸ h
            · cases hu
        · split at hu
          · obtain ⟨c, -, rfl⟩ := Option.map_eq_some_iff.mp hu
            exact h
          · exact Option.some.inj hu ▸ h.writeBackBurst _ _ _

/-! What the bits and fields of a register do (R341) -/

theorem flush : s.IdKept t.flush :=
  (h.put (f := F.SB_STAT_FLUSHING) 1 (by decide)).foldl _ fun u n hu => hu.foldl _ fun _ m hw => hw.writeBackBurst n m 0

theorem trimSet (n set fuel : Nat) : s.IdKept (State.trimSet n set fuel t) := by
  induction fuel generalizing t with
  | zero => exact h
  | succ fuel ih =>
    unfold State.trimSet
    split
    · exact h
    · split
      · next hu => exact ih (h.makeRoom hu)
      · exact h

theorem resWays (v : Nat) : s.IdKept (t.resWays v).2 := by
  unfold State.resWays
  split
  · exact h
  · split
    · exact h
    · split
      · exact h
      · exact ((h.put (f := F.SB_CTL_RES_WAYS) v (by decide)).put (f := F.SB_STAT_RES_CHANGING) 1 (by decide)).foldl _
          fun u n hu => hu.foldl _ fun _ set hw => hw.trimSet n set 16

theorem rowLimit (lim : Nat) : s.IdKept (t.rowLimit lim) :=
  have hput := h.put (f := F.IN_CTL_CE_ROW_LIM) lim (by decide)
  ite hput (hput.foldl _ fun _ _ hu => hu.foldl _ fun w _ hw => hw.tidied (w.tidied_queueRow _ _))

theorem onBit {f : State → State} (b : Fld) (v : Word) (hf : s.IdKept (f t)) : s.IdKept (t.onBit b v f) := ite h hf

theorem seedReq : s.IdKept t.seedReq :=
  ite h (ite ((h.put (f := F.CR_NS_STAT_SEED_ERR) 1 (by decide)).raise .crucible) h)

theorem nsRestart : s.IdKept t.nsRestart :=
  h.foldl _ fun _ _ hu => ite (put (f := F.CR_NS_STAT_OSC_FAIL) hu _ (by decide)) hu

theorem seedWrite (n w : Nat) (v : Word) : s.IdKept (t.seedWrite n w v) :=
  ite h (h.foldl _ fun _ _ hu => hu.setReg _ (by simp only [Reg.offset, Reg.base, Reg.stride]; omega))

theorem targetOp (v : Nat) : s.IdKept (t.targetOp v).2 := by
  have hput := h.put (f := F.PW_OP_CTL_TARGET_OP) (i := 0) v (by decide)
  unfold State.targetOp
  split
  · exact h
  · split
    · exact h
    · dsimp only
      split
      · exact hput
      · split
        · exact (hput.put (f := F.PW_OP_CTL_OP_ERR) 1 (by decide)).raise .power
        · exact hput.put (f := F.PW_OP_CTL_BUSY) 1 (by decide)

theorem ranged {f : Fld} {i : Nat} (v : Word) (ok : Nat → Bool) (ho : f.reg.offset i ≠ Reg.offset .PT_MGT_ID 0) :
    s.IdKept (t.ranged f i v ok).2 := by
  unfold State.ranged
  split
  · exact h.put _ ho
  · exact h

theorem ringWrite {log base : Fld} {d : Nat} (v : Word) (hl : log.reg.offset d ≠ Reg.offset .PT_MGT_ID 0)
    (hb : base.reg.offset d ≠ Reg.offset .PT_MGT_ID 0) : s.IdKept (t.ringWrite log base d v).2 := by
  unfold State.ringWrite
  split
  · exact h
  · exact (h.ranged v _ hl).ranged v _ hb

theorem writeField (f : FSpec) {i : Nat} (v : Word) (ho : f.fld.reg.offset i ≠ Reg.offset .PT_MGT_ID 0) : s.IdKept (t.writeField f i v) :=
  h.of_regsBut (t.writeField_regsBut i v (.refl t (· ≠ Reg.offset .PT_MGT_ID 0)) f ho) (· rfl)

theorem writeFields {r : Reg} {i : Nat} (v : Word) (ho : r.offset i ≠ Reg.offset .PT_MGT_ID 0) : s.IdKept (t.writeFields r i v) :=
  h.of_regsBut (State.writeFields_regsBut (Reg.fields_reg r) t i v) ho.symm

/-! Drawers (R113, R115, R124) -/

omit h in
theorem drawer_offset_ne {r : Reg} {d : Nat} (hr : r = .DR_CTL ∨ r = .DR_DB ∨ r = .DR_STAT ∨ r = .DR_ERR) :
    r.offset d ≠ Reg.offset .PT_MGT_ID 0 := by
  rcases hr with rfl | rfl | rfl | rfl <;> simp only [Reg.offset, Reg.base, Reg.stride] <;> omega

theorem doorErr (d : Nat) : s.IdKept (t.doorErr d) := put h _ (drawer_offset_ne (.inr (.inr (.inr rfl))))

theorem setSqTail (d p : Nat) : s.IdKept (t.setSqTail d p) :=
  h.of_regsBut ((RegsBut.refl t (· = Reg.offset .DR_DB d)).setSqTail p rfl) (drawer_offset_ne (.inr (.inl rfl))).symm

theorem setCqHead (d p : Nat) : s.IdKept (t.setCqHead d p) :=
  h.of_regsBut ((RegsBut.refl t (· = Reg.offset .DR_DB d)).setCqHead p rfl) (drawer_offset_ne (.inr (.inl rfl))).symm

theorem doorSq (d p : Nat) : s.IdKept (t.doorSq d p).2 := by
  unfold State.doorSq
  split
  · exact h.doorErr d
  · split
    · exact h.doorErr d
    · exact h.setSqTail d p

theorem doorCq (d p : Nat) : s.IdKept (t.doorCq d p).2 := by
  unfold State.doorCq
  split
  · exact h.doorErr d
  · split
    · exact h.doorErr d
    · exact h.setCqHead d p

theorem doorBoth (d : Nat) (v : Word) : s.IdKept (t.doorBoth d v).2 := (h.doorSq d _).doorCq d _

theorem setDrawer (d : Nat) (x : Drawer) : s.IdKept (t.setDrawer d x) := h

theorem enableRegs (d : Nat) : s.IdKept (t.enableRegs d) := h.of_regsBut (t.enableRegs_regsBut d) <| by
  rintro (e | e | e)
  · exact drawer_offset_ne (.inl rfl) e.symm
  · exact drawer_offset_ne (.inr (.inr (.inl rfl))) e.symm
  · exact drawer_offset_ne (.inr (.inl rfl)) e.symm

theorem ringLost (d : Nat) : s.IdKept (t.ringLost d) :=
  (State.reg_congr (t.ringLost_spec d).1 ..).trans
    ((h.put (f := F.DR_STAT_RING_LOST) 1 (drawer_offset_ne (.inr (.inr (.inl rfl))))).raise .integrity)

theorem drawerEnable (d : Nat) : s.IdKept (t.drawerEnable d) := by
  have hserves (x : Drawer) : s.IdKept ((t.enableRegs d).setDrawer d x) := (h.enableRegs d).setDrawer d x
  unfold State.drawerEnable
  split
  · exact h
  · split
    · exact (hserves _).when ((hserves _).ringLost d)
    · exact (h.put (f := F.DR_CTL_CFG_ERR) 1 (drawer_offset_ne (.inl rfl))).raise .drawerErr

theorem drawerDisable (d : Nat) : s.IdKept (t.drawerDisable d) :=
  (h.put (f := F.DR_CTL_ENABLE) 0 (drawer_offset_ne (.inl rfl))).put (f := F.DR_STAT_RING_LOST) 0 (drawer_offset_ne (.inr (.inr (.inl rfl))))

theorem portReset (p : Nat) : s.IdKept (t.portReset p) :=
  h.put (f := F.PT_STAT_RESETTING) 1 (by simp only [F.PT_STAT_RESETTING, Reg.offset, Reg.base, Reg.stride]; omega)

/-- A write of any register but PT_MGT_ID leaves the block's number. -/
theorem regWrite {r : Reg} {i : Nat} (v : Word) (ho : r.offset i ≠ Reg.offset .PT_MGT_ID 0) : s.IdKept (t.regWrite r i v).2 := by
  unfold State.regWrite
  split
  case h_1 => exact h.put (f := F.MW_IRQ_CAUSE_EVENT) _ (by decide)
  case h_2 => exact (h.writeField _ v ho).targetOp _
  case h_3 => exact ((h.ranged v _ ho).ranged v _ ho).ranged v _ ho
  case h_4 => exact h.ranged v _ ho
  case h_5 => exact h.onBit _ v h
  case h_6 => exact (h.onBit (f := (·.portReset i)) F.PT_CTL_PORT_RESET v (h.portReset i)).ranged (f := F.PT_CTL_RSP_TMO_LOG2) v _ ho
  case h_7 => exact (h.ranged v _ ho).ranged v _ ho
  case h_8 => exact h.ringWrite v ho ho
  case h_9 => exact h.ringWrite v ho ho
  case h_10 =>
    have hwritten := h.writeField ⟨F.DR_CTL_CFG_ERR, .w1c, 0, false⟩ v ho
    exact (ite (hwritten.drawerEnable i) (hwritten.drawerDisable i)).put (f := F.DR_CTL_IRQ_EN) _ ho
  case h_11 => exact h.doorBoth i v
  case h_12 =>
    have hways := h.resWays (Fld.of F.SB_CTL_RES_WAYS v)
    exact hways.onBit F.SB_CTL_FLUSH v hways.flush
  case h_13 =>
    have hput := (h.put (f := F.IN_CTL_LOG_CE) (i := 0) (Fld.of F.IN_CTL_LOG_CE v) (by decide)).put (f := F.IN_CTL_AUTO_REPAIR) (i := 0)
      (Fld.of F.IN_CTL_AUTO_REPAIR v) (by decide)
    exact (hput.rowLimit _).ranged v _ (by decide)
  case h_14 =>
    have hreq := h.onBit F.CR_CTL_SEED_REQ v h.seedReq
    exact (hreq.onBit F.CR_CTL_NS_RESTART v hreq.nsRestart).put (f := F.CR_CTL_NS_EN) _ (by decide)
  case h_15 => exact h.seedWrite _ _ v
  case h_16 => exact (h.onBit F.GT_CTL_SEND_ALIGN v (f := State.sendAlign) (ite h h)).writeFields v ho
  case h_17 => exact h.ranged v _ ho
  case h_18 => exact ite (h.put (f := F.GT_STEP_STEP) _ (by decide)) (h.put (f := F.GT_STEP_STEP) _ (by decide))
  case h_19 => exact h.writeFields v ho

end State.IdKept

/-- R341: a write of CSR space at any other offset than PT_MGT_ID's leaves the block's number. -/
theorem State.idKept_csrWrite (s : State) {off : Nat} (v : Word) (ho : off ≠ Reg.offset .PT_MGT_ID 0) : s.IdKept (s.csrWrite off v).2 := by
  unfold State.csrWrite
  split
  · next hr => exact (State.IdKept.refl s).regWrite v (by rwa [Reg.offset_of_ofOffset hr])
  · exact .refl s

/-- R332: a read of CSR space at any other offset than CR_NS_DATA3's changes nothing. -/
theorem State.csrRead_pure (s : State) {off : Nat} (ho : off ≠ Reg.offset .CR_NS_DATA 3) : (s.csrRead off).2 = s := by
  unfold State.csrRead
  split
  · next r i hr =>
    refine if_neg fun ⟨hreg, hi⟩ => ho ?_
    rw [← Reg.offset_of_ofOffset hr, hreg, hi]
  · rfl

end Sys2Proof.Machine
end

section
/-!
PROOF of O38: the management port.
-/

namespace Sys2Proof.Machine

/-! ## Packets and answers (R184, R185) -/

/-- A packet whose CRC is generated passes its check. -/
theorem mgtGood_seal (kind : BitVec 4) (m : MgtPkt) : mgtGood kind (mgtSeal kind m) = true := by
  rw [mgtGood, show mgtCrc kind (mgtSeal kind m) = mgtCrc kind m from rfl, mgtSeal, BitVec.setWidth_setWidth_of_le _ (by decide),
    BitVec.setWidth_eq]
  exact beq_self_eq_true _

theorem code_fits (st : Status) : (BitVec.ofNat 14 st.code).toNat = st.code := by cases st <;> rfl

/-- The packet that answers `m` under a block number. -/
def mgtReply (m : MgtPkt) (id : Nat) (st : Status) (v : Word) : MgtPkt :=
  { m with bid := BitVec.ofNat 6 id, w0hi := BitVec.ofNat 14 st.code, dataLo := v.setWidth 32, dataHi := (v >>> 32).setWidth 32 }

theorem State.mgtAnswer_eq (s : State) (m : MgtPkt) (st : Status) (v : Word) :
    s.mgtAnswer m st v = s.emit (.mgtUp 9 (mgtSeal 9 (mgtReply m (s.fld F.PT_MGT_ID_BLOCK_ID 0) st v))) := rfl

/-- A status goes upstream under the block's number, its data drawn. -/
theorem State.mgtStatus_spec (s : State) (m : MgtPkt) (st : Status) : ∃ t, s.mgtStatus m st = t ∧
    (∃ a, t.sent = .mgtUp 9 a :: s.sent ∧ a.w0hi.toNat = st.code ∧ a.bid = BitVec.ofNat 6 (s.fld F.PT_MGT_ID_BLOCK_ID 0) ∧ a.tag = m.tag ∧
      mgtGood 9 a = true) ∧
    t = { s with sent := t.sent, freeCtr := s.freeCtr + 1 } :=
  ⟨_, rfl, ⟨_, rfl, code_fits st, rfl, rfl, mgtGood_seal _ _⟩, rfl⟩

/-! ## The route of a packet (R186) -/

section
variable {s : State} {kind : BitVec 4} {m : MgtPkt} (own : State → State) (hup : s.mgtUp = true)
include hup

theorem State.mgtRoute_drop (hg : mgtGood kind m = false) : s.mgtRoute kind m own = s.mgtDrop := by
  rw [State.mgtRoute, hup, hg]
  rfl

variable (hg : mgtGood kind m = true)
include hg

theorem State.mgtRoute_own (ha : s.flag F.PT_MGT_ID_ASSIGNED 0 = true) (hb : s.fld F.PT_MGT_ID_BLOCK_ID 0 = m.bid.toNat) :
    s.mgtRoute kind m own = own s := by
  rw [State.mgtRoute, hup, hg, ha, hb, beq_self_eq_true]
  rfl

variable (hno : s.flag F.PT_MGT_ID_ASSIGNED 0 = false ∨ s.fld F.PT_MGT_ID_BLOCK_ID 0 ≠ m.bid.toNat)
include hno

theorem State.mgtRoute_other : s.mgtRoute kind m own =
    if s.lastBlock then (s.countSat F.PT_MGT_STAT_BAD_BID 0 1).mgtStatus m .badArg else s.emit (.mgtDown kind (mgtSeal kind m)) := by
  have hother : (s.flag F.PT_MGT_ID_ASSIGNED 0 && s.fld F.PT_MGT_ID_BLOCK_ID 0 == m.bid.toNat) = false := by
    rcases hno with h | h
    · rw [h, Bool.false_and]
    · rw [beq_eq_false_iff_ne.mpr h, Bool.and_false]
  rw [State.mgtRoute, hup, hg, hother]
  rfl

theorem State.mgtRoute_onward (hd : s.life.dnPresent = true) : s.mgtRoute kind m own = s.emit (.mgtDown kind (mgtSeal kind m)) := by
  rw [State.mgtRoute_other own hup hg hno, State.lastBlock, hd]
  rfl

theorem State.mgtRoute_last (hd : s.life.dnPresent = false) :
    s.mgtRoute kind m own = (s.countSat F.PT_MGT_STAT_BAD_BID 0 1).mgtStatus m .badArg := by
  rw [State.mgtRoute_other own hup hg hno, State.lastBlock, hd]
  rfl

end

/-! ## READ and WRITE (R186, R341) -/

/-- What a block does with a READ of its own, or with a packet of an undefined KIND. -/
def readHere (kind : BitVec 4) (m : MgtPkt) (s : State) : State :=
  if kind ≠ 1 ∨ badOffset m.offset then s.mgtStatus m .badArg
  else if !s.mgtMay m.offset.toNat then s.mgtStatus m .notPermitted
  else (s.csrRead m.offset.toNat).2.mgtAnswer m .ok (s.csrRead m.offset.toNat).1

/-- What a block does with a WRITE of its own. -/
def writeHere (m : MgtPkt) (s : State) : State :=
  if badOffset m.offset then s.mgtStatus m .badArg
  else if !s.mgtMay m.offset.toNat then s.mgtStatus m .notPermitted
  else (s.csrWrite m.offset.toNat (m.dataHi ++ m.dataLo)).2.mgtStatus m (s.csrWrite m.offset.toNat (m.dataHi ++ m.dataLo)).1

section
variable {s : State} {m : MgtPkt}

theorem exec_mgtRead {kind : BitVec 4} (h2 : kind ≠ 2) (h3 : kind ≠ 3) :
    exec (.read kind m) s = .next (s.mgtRoute kind m (readHere kind m)) := by
  change execRead kind m s = _
  rw [execRead, if_neg (not_or_intro h2 h3)]
  rfl

theorem exec_mgtWrite : exec (.write m) s = .next (s.mgtRoute 2 m (writeHere m)) := rfl

theorem readHere_badArg {kind : BitVec 4} (h : kind ≠ 1 ∨ badOffset m.offset = true) : readHere kind m s = s.mgtStatus m .badArg :=
  if_pos h

theorem readHere_closed (ho : badOffset m.offset = false) (hm : s.mgtMay m.offset.toNat = false) :
    readHere 1 m s = s.mgtStatus m .notPermitted := by
  rw [readHere, if_neg (by simp [ho]), hm]
  rfl

theorem readHere_open (ho : badOffset m.offset = false) (hm : s.mgtMay m.offset.toNat = true) :
    readHere 1 m s = (s.csrRead m.offset.toNat).2.mgtAnswer m .ok (s.csrRead m.offset.toNat).1 := by
  rw [readHere, if_neg (by simp [ho]), hm]
  rfl

theorem writeHere_badArg (h : badOffset m.offset = true) : writeHere m s = s.mgtStatus m .badArg := if_pos h

theorem writeHere_closed (ho : badOffset m.offset = false) (hm : s.mgtMay m.offset.toNat = false) :
    writeHere m s = s.mgtStatus m .notPermitted := by
  rw [writeHere, ho, hm]
  rfl

theorem writeHere_open (ho : badOffset m.offset = false) (hm : s.mgtMay m.offset.toNat = true) : writeHere m s =
    (s.csrWrite m.offset.toNat (m.dataHi ++ m.dataLo)).2.mgtStatus m (s.csrWrite m.offset.toNat (m.dataHi ++ m.dataLo)).1 := by
  rw [writeHere, ho, hm]
  rfl

/-- A READ, a packet of an undefined KIND, and a WRITE are routed alike. -/
theorem exec_mgtRouted {i : Instr} {kind : BitVec 4} (hi : i = .read kind m ∧ kind ≠ 2 ∧ kind ≠ 3 ∨ i = .write m ∧ kind = 2) :
    ∃ own, exec i s = .next (s.mgtRoute kind m own) ∧
      (kind ≠ 1 ∧ kind ≠ 2 ∨ badOffset m.offset = true → own s = s.mgtStatus m .badArg) ∧
      (kind = 1 ∨ kind = 2 → badOffset m.offset = false → s.mgtMay m.offset.toNat = false → own s = s.mgtStatus m .notPermitted) := by
  rcases hi with ⟨rfl, h2, h3⟩ | ⟨rfl, rfl⟩
  · refine ⟨_, exec_mgtRead h2 h3, fun h => readHere_badArg (h.imp_left And.left), fun hk ho hm => ?_⟩
    cases hk.resolve_right h2
    exact readHere_closed ho hm
  · exact ⟨_, exec_mgtWrite, fun h => writeHere_badArg (h.resolve_left fun hk => hk.2 rfl), fun _ ho hm => writeHere_closed ho hm⟩

end

/-! ## ENUM (R186) -/

/-- A block numbered by an ENUM of value `v`. -/
def State.numbered (s : State) (v : Nat) : State :=
  if v < 64 then (s.put F.PT_MGT_ID_BLOCK_ID 0 v).put F.PT_MGT_ID_ASSIGNED 0 1
  else (s.put F.PT_MGT_ID_BLOCK_ID 0 0).put F.PT_MGT_ID_ASSIGNED 0 0

section
variable (s : State) {v : Nat}

theorem State.numbered_fields : (v < 64 → (s.numbered v).fld F.PT_MGT_ID_BLOCK_ID 0 = v ∧ (s.numbered v).fld F.PT_MGT_ID_ASSIGNED 0 = 1) ∧
    (64 ≤ v → (s.numbered v).fld F.PT_MGT_ID_BLOCK_ID 0 = 0 ∧ (s.numbered v).fld F.PT_MGT_ID_ASSIGNED 0 = 0) := by
  have hput (b a : Nat) (hb : b < 64) (ha : a < 2) :
      ((s.put F.PT_MGT_ID_BLOCK_ID 0 b).put F.PT_MGT_ID_ASSIGNED 0 a).fld F.PT_MGT_ID_BLOCK_ID 0 = b ∧
        ((s.put F.PT_MGT_ID_BLOCK_ID 0 b).put F.PT_MGT_ID_ASSIGNED 0 a).fld F.PT_MGT_ID_ASSIGNED 0 = a := by
    rw [fld_put_field _ F.PT_MGT_ID_ASSIGNED F.PT_MGT_ID_BLOCK_ID _ _ rfl (by decide), fld_put_same _ _ _ _ (by decide),
      fld_put_same _ _ _ _ (by decide)]
    exact ⟨Nat.mod_eq_of_lt hb, Nat.mod_eq_of_lt ha⟩
  refine ⟨fun h => ?_, fun h => ?_⟩
  · rw [State.numbered, if_pos h]
    exact hput v 1 h (by decide)
  · rw [State.numbered, if_neg (by omega)]
    exact hput 0 0 (by decide) (by decide)

theorem State.numbered_regsBut : RegsBut s (s.numbered v) (fun o => o = Reg.offset .PT_MGT_ID 0) := by
  have hput (b a : Nat) : RegsBut s ((s.put F.PT_MGT_ID_BLOCK_ID 0 b).put F.PT_MGT_ID_ASSIGNED 0 a) (fun o => o = Reg.offset .PT_MGT_ID 0) :=
    ((RegsBut.refl s (· = Reg.offset .PT_MGT_ID 0)).put _ _ _ rfl).put _ _ _ rfl
  unfold State.numbered
  split
  · exact hput v 1
  · exact hput 0 0

theorem State.numbered_rest : s.numbered v = { s with regs := (s.numbered v).regs } := by
  unfold State.numbered
  split <;> rfl

theorem State.numbered_id_lt : (s.numbered v).fld F.PT_MGT_ID_BLOCK_ID 0 < 64 := Fld.of_lt F.PT_MGT_ID_BLOCK_ID _

/-- The word with which the last block answers ENUM: the count, held at 64 with its flag. -/
def enumCount (v : Nat) : Word := if 64 < v + 1 then BitVec.ofNat 64 (64 + 2 ^ 40) else BitVec.ofNat 64 (v + 1)

theorem enumCount_few (h : v < 64) : ((enumCount v).setWidth 32).toNat = v + 1 ∧ (enumCount v >>> 32).setWidth 32 = 0#32 := by
  rw [enumCount, if_neg (by omega)]
  refine ⟨?_, BitVec.eq_of_toNat_eq ?_⟩
  · rw [BitVec.toNat_setWidth, BitVec.toNat_ofNat]
    omega
  · rw [BitVec.toNat_setWidth, BitVec.toNat_ushiftRight, BitVec.toNat_ofNat, Nat.shiftRight_eq_div_pow, BitVec.toNat_zero]
    omega

theorem enumCount_many (h : 64 ≤ v) : ((enumCount v).setWidth 32).toNat = 64 ∧ ((enumCount v >>> 32).setWidth 32).toNat = 2 ^ 8 := by
  rw [enumCount, if_pos (by omega)]
  decide

variable {s} {m : MgtPkt} (hup : s.mgtUp = true) (hg : mgtGood 3 m = true)
include hup hg

theorem exec_enum : exec (.enum m) s = .next (if (s.numbered m.dataLo.toNat).lastBlock then
      (s.numbered m.dataLo.toNat).mgtAnswer m .ok (enumCount m.dataLo.toNat)
    else (s.numbered m.dataLo.toNat).emit (.mgtDown 3 (mgtSeal 3 { m with dataLo := m.dataLo + 1 }))) := by
  change execEnum m s = _
  rw [execEnum, hup, hg]
  exact (apply_ite _ _ _ _).symm

theorem exec_enum_onward (hd : s.life.dnPresent = true) : exec (.enum m) s =
    .next ((s.numbered m.dataLo.toNat).emit (.mgtDown 3 (mgtSeal 3 { m with dataLo := m.dataLo + 1 }))) := by
  rw [exec_enum hup hg, State.lastBlock, s.numbered_rest, hd]
  rfl

theorem exec_enum_last (hd : s.life.dnPresent = false) : exec (.enum m) s =
    .next ((s.numbered m.dataLo.toNat).mgtAnswer m .ok (enumCount m.dataLo.toNat)) := by
  rw [exec_enum hup hg, State.lastBlock, s.numbered_rest, hd]
  rfl

end

/-! ## The clauses of the obligation -/

section
variable {s : State} {m : MgtPkt} (hup : s.mgtUp = true)
include hup

section
variable (ha : s.flag F.PT_MGT_ID_ASSIGNED 0 = true) (hb : s.fld F.PT_MGT_ID_BLOCK_ID 0 = m.bid.toNat)
include ha hb

/-- R186: a READ of this block is answered with the register's word. -/
theorem mgtRead_answered (hg : mgtGood 1 m = true) (ho : badOffset m.offset = false) (hm : s.mgtMay m.offset.toNat = true)
    (hseed : m.offset.toNat ≠ Reg.offset .CR_NS_DATA 3) :
    ∃ t, exec (.read 1 m) s = .next t ∧
      t.sent = .mgtUp 9 (mgtSeal 9 { m with
        w0hi := 0
        dataLo := (s.csrRead m.offset.toNat).1.setWidth 32
        dataHi := ((s.csrRead m.offset.toNat).1 >>> 32).setWidth 32 }) :: s.sent ∧
      t = { s with sent := t.sent } := by
  have hreply (v : Word) : mgtReply m (s.fld F.PT_MGT_ID_BLOCK_ID 0) .ok v =
      { m with w0hi := 0, dataLo := v.setWidth 32, dataHi := (v >>> 32).setWidth 32 } := by
    rw [mgtReply, hb, BitVec.ofNat_toNat, BitVec.setWidth_eq]
    rfl
  rw [exec_mgtRead (by decide) (by decide), State.mgtRoute_own _ hup hg ha hb, readHere_open ho hm, s.csrRead_pure hseed, State.mgtAnswer_eq,
    hreply]
  exact ⟨_, rfl, rfl, rfl⟩

/-- R186, R341: a WRITE of this block does what the register's write does, and its status goes back. -/
theorem mgtWrite_answered (hg : mgtGood 2 m = true) (ho : badOffset m.offset = false) (hm : s.mgtMay m.offset.toNat = true)
    (hid : m.offset.toNat ≠ Reg.offset .PT_MGT_ID 0) :
    ∃ t, exec (.write m) s = .next t ∧
      (∃ a, t.sent = .mgtUp 9 a :: (s.csrWrite m.offset.toNat (m.dataHi ++ m.dataLo)).2.sent ∧
        a.w0hi.toNat = (s.csrWrite m.offset.toNat (m.dataHi ++ m.dataLo)).1.code ∧ a.bid = m.bid ∧ a.tag = m.tag ∧ mgtGood 9 a = true) ∧
      t = { (s.csrWrite m.offset.toNat (m.dataHi ++ m.dataLo)).2 with
        sent := t.sent
        freeCtr := (s.csrWrite m.offset.toNat (m.dataHi ++ m.dataLo)).2.freeCtr + 1 } := by
  have hkept := (s.idKept_csrWrite (m.dataHi ++ m.dataLo) hid).fld (f := F.PT_MGT_ID_BLOCK_ID) rfl
  rw [exec_mgtWrite, State.mgtRoute_own _ hup hg ha hb, writeHere_open ho hm]
  obtain ⟨t, ht, ⟨a, hsent, hcode, hbid, htag, hseal⟩, hrest⟩ := State.mgtStatus_spec
    (s.csrWrite m.offset.toNat (m.dataHi ++ m.dataLo)).2 m (s.csrWrite m.offset.toNat (m.dataHi ++ m.dataLo)).1
  refine ⟨t, by rw [ht], ⟨a, hsent, hcode, ?_, htag, hseal⟩, hrest⟩
  rw [hbid, hkept, hb, BitVec.ofNat_toNat, BitVec.setWidth_eq]

end

section
variable {i : Instr} {kind : BitVec 4} (hi : i = .read kind m ∧ kind ≠ 2 ∧ kind ≠ 3 ∨ i = .write m ∧ kind = 2)
include hi

/-- R186: a packet of this block that it refuses is answered with the status, and nothing else changes. -/
theorem mgt_refused {st : Status} (hg : mgtGood kind m = true) (ha : s.flag F.PT_MGT_ID_ASSIGNED 0 = true)
    (hb : s.fld F.PT_MGT_ID_BLOCK_ID 0 = m.bid.toNat)
    (hst : (kind ≠ 1 ∧ kind ≠ 2 ∨ badOffset m.offset = true) ∧ st = .badArg ∨
      (kind = 1 ∨ kind = 2) ∧ badOffset m.offset = false ∧ s.mgtMay m.offset.toNat = false ∧ st = .notPermitted) :
    ∃ t, exec i s = .next t ∧
      (∃ a, t.sent = .mgtUp 9 a :: s.sent ∧ a.w0hi.toNat = st.code ∧ a.bid = m.bid ∧ a.tag = m.tag ∧ mgtGood 9 a = true) ∧
      t = { s with
        sent := t.sent
        freeCtr := s.freeCtr + 1 } := by
  obtain ⟨own, hexec, hbad, hclosed⟩ := exec_mgtRouted (s := s) hi
  have hown : own s = s.mgtStatus m st := by
    rcases hst with ⟨h, rfl⟩ | ⟨hk, ho, hm, rfl⟩
    · exact hbad h
    · exact hclosed hk ho hm
  obtain ⟨t, ht, ⟨a, hsent, hcode, hbid, htag, hseal⟩, hrest⟩ := s.mgtStatus_spec m st
  rw [hexec, State.mgtRoute_own own hup hg ha hb, hown]
  refine ⟨t, by rw [ht], ⟨a, hsent, hcode, ?_, htag, hseal⟩, hrest⟩
  rw [hbid, hb, BitVec.ofNat_toNat, BitVec.setWidth_eq]

/-- R185: a packet with a failing CRC is dropped and counted. -/
theorem mgt_dropped (hg : mgtGood kind m = false) : ∃ t, exec i s = .next t ∧ t = { s with regs := t.regs } ∧
    t.fld F.PT_MGT_STAT_CRC_DROPS 0 = Nat.min (s.fld F.PT_MGT_STAT_CRC_DROPS 0 + 1) (2 ^ F.PT_MGT_STAT_CRC_DROPS.w - 1) ∧
    RegsBut s t (fun o => o = Reg.offset .PT_MGT_STAT 0) := by
  obtain ⟨own, hexec, -⟩ := exec_mgtRouted (s := s) hi
  rw [hexec, State.mgtRoute_drop own hup hg]
  exact ⟨_, rfl, rfl, State.fld_countSat (by decide), (RegsBut.refl s _).put _ _ _ rfl⟩

variable (hg : mgtGood kind m = true) (hno : s.flag F.PT_MGT_ID_ASSIGNED 0 = false ∨ s.fld F.PT_MGT_ID_BLOCK_ID 0 ≠ m.bid.toNat)
include hg hno

/-- R186: a packet for another block goes on downstream. -/
theorem mgt_onward (hd : s.life.dnPresent = true) : exec i s = .next (s.emit (.mgtDown kind (mgtSeal kind m))) := by
  obtain ⟨own, hexec, -⟩ := exec_mgtRouted (s := s) hi
  rw [hexec, State.mgtRoute_onward own hup hg hno hd]

/-- R186: the last block refuses a packet for no block of the chain. -/
theorem mgt_badBid (hd : s.life.dnPresent = false) : ∃ t, exec i s = .next t ∧
    (∃ a, t.sent = .mgtUp 9 a :: s.sent ∧ a.w0hi.toNat = Status.badArg.code ∧ a.tag = m.tag ∧ mgtGood 9 a = true) ∧
    t.fld F.PT_MGT_STAT_BAD_BID 0 = Nat.min (s.fld F.PT_MGT_STAT_BAD_BID 0 + 1) (2 ^ F.PT_MGT_STAT_BAD_BID.w - 1) ∧
    RegsBut s t (fun o => o = Reg.offset .PT_MGT_STAT 0) := by
  obtain ⟨own, hexec, -⟩ := exec_mgtRouted (s := s) hi
  obtain ⟨t, ht, ⟨a, hsent, hcode, -, htag, hseal⟩, hrest⟩ := (s.countSat F.PT_MGT_STAT_BAD_BID 0 1).mgtStatus_spec m .badArg
  have hregs : t.regs = (s.countSat F.PT_MGT_STAT_BAD_BID 0 1).regs := by rw [hrest]
  rw [hexec, State.mgtRoute_last own hup hg hno hd, ht]
  exact ⟨t, rfl, ⟨a, hsent, hcode, htag, hseal⟩, (State.fld_congr hregs ..).trans (State.fld_countSat (by decide)),
    .congr hregs ((RegsBut.refl s _).put _ _ _ rfl)⟩

end

/-- R186: ENUM numbers the block, and goes on raised by one or is answered with the count. -/
theorem mgt_enumerated (hg : mgtGood 3 m = true) :
    ∃ t, exec (.enum m) s = .next t ∧
      (m.dataLo.toNat < 64 → t.fld F.PT_MGT_ID_BLOCK_ID 0 = m.dataLo.toNat ∧ t.fld F.PT_MGT_ID_ASSIGNED 0 = 1) ∧
      (64 ≤ m.dataLo.toNat → t.fld F.PT_MGT_ID_BLOCK_ID 0 = 0 ∧ t.fld F.PT_MGT_ID_ASSIGNED 0 = 0) ∧
      RegsBut s t (fun o => o = Reg.offset .PT_MGT_ID 0) ∧ t.sent.tail = s.sent ∧
      (s.life.dnPresent = true → t.sent.head? = some (.mgtDown 3 (mgtSeal 3 { m with dataLo := m.dataLo + 1 }))) ∧
      (s.life.dnPresent = false → ∃ a, t.sent.head? = some (.mgtUp 9 a) ∧ mgtGood 9 a = true ∧ a.w0hi.toNat = Status.ok.code ∧
        a.tag = m.tag ∧ a.bid.toNat = t.fld F.PT_MGT_ID_BLOCK_ID 0 ∧
        (m.dataLo.toNat < 64 → a.dataLo.toNat = m.dataLo.toNat + 1 ∧ a.dataHi = 0) ∧
        (64 ≤ m.dataLo.toNat → a.dataLo.toNat = 64 ∧ a.dataHi.toNat = 2 ^ 8)) ∧
      t = { s with
        sent := t.sent
        regs := t.regs } := by
  obtain ⟨hfew, hmany⟩ := s.numbered_fields (v := m.dataLo.toNat)
  have hbut := s.numbered_regsBut (v := m.dataLo.toNat)
  have hid := s.numbered_id_lt (v := m.dataLo.toNat)
  have hrest := s.numbered_rest (v := m.dataLo.toNat)
  generalize hu : s.numbered m.dataLo.toNat = u at hfew hmany hbut hid hrest
  have hsent : u.sent = s.sent := by rw [hrest]
  have hemit (o : Sent) : u.emit o = { s with sent := (u.emit o).sent, regs := u.regs } :=
    (congrArg (State.emit · o) hrest).trans (congrArg (fun l => { s with sent := o :: l, regs := u.regs }) hsent.symm)
  cases hd : s.life.dnPresent with
  | true =>
    refine ⟨_, exec_enum_onward hup hg hd, ?_⟩
    rw [hu]
    exact ⟨hfew, hmany, hbut, hsent, fun _ => rfl, nofun, hemit _⟩
  | false =>
    refine ⟨_, exec_enum_last hup hg hd, ?_⟩
    rw [hu, State.mgtAnswer_eq]
    exact ⟨hfew, hmany, hbut, hsent, nofun, fun _ => ⟨_, rfl, mgtGood_seal _ _, code_fits .ok, rfl,
      (BitVec.toNat_ofNat _ _).trans (Nat.mod_eq_of_lt hid), enumCount_few, enumCount_many⟩, hemit _⟩

/-- R184: a response of the downstream block goes upstream. -/
theorem exec_mgtResponse (hg : mgtGood 9 m = true) : exec (.mgtResponse m) s = .next (s.emit (.mgtUp 9 (mgtSeal 9 m))) := by
  change execMgtResponse m s = _
  rw [execMgtResponse, hup, hg]
  rfl

end

/-- Settles O38: packets by what the port does with them, a READ, a WRITE and an undefined KIND over the one route of R186. -/
theorem managementPort : Obligations.ManagementPort := by
  unfold Obligations.ManagementPort
  refine ⟨?_, ?_, ?_, ?_, ?_, ?_⟩
  · intro m s hup hg ha hb ho hm hseed
    exact mgtRead_answered hup ha hb hg ho hm hseed
  · intro m s hup hg ha hb ho hm hid
    exact mgtWrite_answered hup ha hb hg ho hm hid
  · intro i kind m st s hi hup hg ha hb hst
    exact mgt_refused hup hi hg ha hb hst
  · intro i kind m s hi hup
    exact ⟨mgt_dropped hup hi, mgt_onward hup hi, mgt_badBid hup hi⟩
  · intro m s hup hg
    exact mgt_enumerated hup hg
  · intro m s hup hg
    exact exec_mgtResponse hup hg

end Sys2Proof.Machine
end
